-- ==== Sys2Proof/Word.lean ====
section
/-!
DEFINITION. The word types of the LX2416 model and their plainest arithmetic.
-/
namespace Sys2Proof

/-- One 32-bit register word (spec/00, Notation). -/
abbrev Word := BitVec 32

/-- One byte. -/
abbrev Byte := BitVec 8

/-- A Bool as a number: 1 or 0. -/
def b2n (b : Bool) : Nat := if b then 1 else 0

end Sys2Proof
end

