-- ==== Sys2Proof/Config.lean ====
section
/-!
DEFINITION. What an implementation fixes and the values the spec leaves open.
The `opaque` below is a FREE VALUE: it has no body, so nothing in Lean can evaluate it, and a claim
about it holds whatever it is.
-/
namespace Sys2Proof

/-- The three variants of R1. A device is one of them for its whole life. -/
inductive Variant where
  | lx2416
  | lx2412
  | lx1608
  deriving DecidableEq, Repr

/-- A value the spec leaves open, one for each use: the step reads and advances `State.freeCtr` (log entry 3). -/
opaque Config.freeValue : Nat → BitVec 32

end Sys2Proof
end

