-- ==== Sys2Proof/Syntax.lean ====
section
/-!
DEFINITION. The commands of the block: one constructor of `Instr` for each row of spec/opcode_table.json,
with the row's operands: the unit it names, the value it carries, and what the world outside the device
supplies at that moment (bytes that arrive, times, data read from host memory, results of a standard
that the spec cites and does not restate).
-/
namespace Sys2Proof

/-- Who makes a BAR0 access: the PCIe endpoint, the QSPI target (GLB_REJ_ADDR.SRC), or the set-up writes of a directory (R544). -/
inductive Master where
  | pcie
  | qspi
  deriving DecidableEq, Repr

/-- How the FCS of a received frame checks (R195): good, bad, or the stomp residue. -/
inductive FcsKind where
  | good
  | bad
  | stomp
  deriving DecidableEq, Repr

/-- How a received frame arrived on a port with preemption (R127): as an express frame, reassembled from this many
fragments, failed in reassembly, or as an mPacket with an unknown SMD. -/
inductive RxForm where
  | express
  | assembled (fragments : Nat)
  | assyErr
  | smdErr
  deriving DecidableEq, Repr

/-- How an output's transmission ended: complete, for want of a cell (R150), or on an uncorrectable buffer word (R154). -/
inductive TxEnd where
  | complete
  | underrun
  | bufEcc
  deriving DecidableEq, Repr

/-- The ring kinds of Table 02-8 RING_HALT. -/
inductive RingKind where
  | tx
  | rx
  | ev
  deriving DecidableEq, Repr

/-- The read kinds of DMA_ERROR (Table 02-8). -/
inductive DmaKind where
  | poll
  | descriptor
  | buffer
  deriving DecidableEq, Repr

/-- What SECDED ECC finds at an instruction's fetch and data access (R318): nothing uncorrectable, an uncorrectable error
whose second read is good, or one whose second read fails too. -/
inductive CoreEcc where
  | clean
  | fetchRetry
  | fetchFail
  | dataRetry
  | dataFail
  deriving DecidableEq, Repr

/-- Who accesses a lock: a cluster, or the host through PCIe or QSPI (R370). -/
inductive LockUser where
  | cluster (k : Fin 16)
  | host (m : Master)
  deriving DecidableEq, Repr

/-- A CAN frame as received: identifier (a base identifier in bits 28:18), flags, DLC and data bytes. -/
structure CanMsg where
  xtd : Bool
  rtr : Bool
  esi : Bool
  fdf : Bool
  brs : Bool
  id : BitVec 29
  dlc : BitVec 4
  data : List Byte
  deriving DecidableEq, Repr

/-- The kinds of detected CAN errors (Table 12-10), and a CAN FD frame with its res bit recessive (R432). -/
inductive CanErr where
  | bit
  | stuff
  | form
  | ack
  | crc
  | res
  deriving DecidableEq, Repr

/-- What the core exchange copies: an element of a receive FIFO, of the event FIFO, or of the high-priority buffer (R438, R439). -/
inductive CanElem where
  | rx
  | ev
  | hp
  deriving DecidableEq, Repr

/-- Where a launch time is reached: the head of a class queue of an output, or a transmit buffer of a CAN controller. -/
inductive LaunchAt where
  | output (p : Fin 17) (cls : Fin 8)
  | can (c : Fin 4) (b : Fin 32)
  deriving DecidableEq, Repr


/-- A register of a loop slot that holds coefficients (R457). -/
inductive LoopReg where
  | opt
  | mode
  | man
  | ki
  | kd
  | kf
  | imin
  | imax
  | umin
  | umax
  | rmax
  | frX0
  | vdb
  | cgX0
  deriving DecidableEq, Repr

/-- A loop coefficient: a register of a slot, or a word of its gain or friction table or of a cogging table (R457). -/
inductive LoopCoef where
  | reg (s : Fin 64) (r : LoopReg)
  | gain (s : Fin 64) (i : Fin 17)
  | fric (s : Fin 64) (j : Fin 64)
  | cog (k : Fin 16) (m : Fin 256)
  deriving DecidableEq, Repr

/-- A host write of a coefficient that is served between two slots of a pass, just before the turn of slot `before` (R445, R446). -/
structure LoopAt where
  before : Fin 64
  src : Master
  c : LoopCoef
  v : Word
  deriving DecidableEq, Repr

/-- The places in the order of R32, with the sharers of the host place (R163: 0 fetches and 1 LATCH commits of
the transit windows, 2 PCIe accesses, 3 the host ring manager) and of a core's (R34: 0 loads and atomics, 1 the store buffer, 2 the frame queue engine, 3 the CAN exchange). -/
inductive PoolPlace where
  | mirror
  | host (sharer : Fin 4)
  | loop
  | core (n : Fin 16) (sharer : Fin 4)
  deriving DecidableEq, Repr

/-- What a request does to its 64-bit word: a read, a write of the lanes named, or an atomic on its low or high half (R488). -/
inductive PoolOp where
  | read
  | write (lanes : BitVec 8) (data : BitVec 64)
  | add (high : Bool) (v : Word)
  | swap (high : Bool) (v : Word)
  deriving DecidableEq, Repr

/-- What SECDED ECC finds at a read (R486): nothing uncorrectable, an uncorrectable error whose second read is good, or one
whose second read fails. -/
inductive UncErr where
  | clean
  | retryOk
  | fail
  deriving DecidableEq, Repr

/-- A request at a pool bank: its place, its 64-bit word in the bank, what it does, and what ECC finds. -/
structure PoolReq where
  place : PoolPlace
  word : BitVec 14
  op : PoolOp
  ecc : UncErr
  deriving DecidableEq, Repr

/-- What the re-read of a word finds (R485, R486): a single-bit error gone, or found again and written back; an uncorrectable error
whose second read is good, or fails. -/
inductive Reread where
  | transient
  | stored
  | retryOk
  | fail
  deriving DecidableEq, Repr


/-- One command for each row of spec/opcode_table.json. -/
inductive Instr where
  /-- REGISTER_WRITE (R11): A BAR0 write from PCIe or QSPI to a register that has no row of its own is applied under its field access classes or rejected. A BAR0 write of 1, 2, 4 or 8 bytes (R9 to R14). -/
  | registerWrite (m : Master) (off : BitVec 26) (width : Nat) (data : BitVec 64)
  /-- READ_GLB_REJ_CNT (R17): A read of GLB_REJ_CNT returns the count, clears it and clears GLB_REJ_ADDR and GLB_REJ_DATA so that capture is re-armed. A read of GLB_REJ_CNT (R17). -/
  | readGlbRejCnt (m : Master)
  /-- RC_COUNTER_READ (R11): A read of an RC counter returns its value and clears it to 0. A BAR0 read; RC fields are cleared by it (R11). -/
  | rcCounterRead (m : Master) (off : BitVec 26) (width : Nat)
  /-- BAR2_ACCESS (R574): An access to BAR2 reads or writes the MSI-X table or reads the pending bits, and any other BAR2 access completes without effect. An access to the MSI-X table or the pending bits (R574). -/
  | bar2Access (write : Bool) (off : BitVec 12) (width : Nat) (data : BitVec 64)
  /-- MSIX_UNMASK (R79): Unmasking an MSI-X entry whose pending bit is set sends its message once. -/
  | msixUnmask (v : Fin 64)
  /-- QSPI_WRITE (R569): A QSPI target WRITE transaction makes one aligned 32-bit BAR0 write within 100 ns of QT_CS_N rising. A WRITE transaction; `complete` when QT_CS_N rises after its last bit (R569). -/
  | qspiWrite (complete : Bool) (off : BitVec 26) (data : Word)
  /-- QSPI_READ (R569): A QSPI target READ transaction returns one aligned 32-bit BAR0 word after 8 dummy clocks. A READ transaction (R569). -/
  | qspiRead (complete : Bool) (off : BitVec 26)
  /-- QSPI_WRITE_QUAD (R569): A QSPI target WRITE_QUAD transaction makes one BAR0 write, with its address and data on four lines. A WRITE_QUAD transaction (R569). -/
  | qspiWriteQuad (complete : Bool) (off : BitVec 26) (data : Word)
  /-- QSPI_READ_QUAD (R569): A QSPI target READ_QUAD transaction returns one BAR0 word, with its address and data on four lines. A READ_QUAD transaction (R569). -/
  | qspiReadQuad (complete : Bool) (off : BitVec 26)
  /-- CYCLE_TICK (R21): The selected time base passes a multiple of GLB_CYC_PERIOD, or a Geyser cycle start whose number is a multiple of DIV occurs, and the device issues the cycle tick. -/
  | cycleTick
  /-- RILL_SYNC_RELEASE (R400): At GLB_CYC_OFS[0] after a tick, every engine with CYC_SYNC restarts its divider phase, and an AWAIT CYCLE in progress completes. -/
  | rillSyncRelease
  /-- CORE_CYCLE_EVENT (R349): At GLB_CYC_OFS[2] after a tick, line 0 is set in every RUNNING cluster with CYC_BIND. -/
  | coreCycleEvent
  /-- LOOP_PASS (R446): At GLB_CYC_OFS[1] after a tick, the loop engine reads the command word and computes every due slot in ascending order. With the host writes served between its slots, the slots whose pool read fails twice, and the slots that meet a loop-memory word whose uncorrectable error persists, with its byte offset. -/
  | loopPass (ws : List LoopAt) (failed : List (Fin 64)) (ecc : List (Fin 64 × BitVec 16))
  /-- LOOP_DONE (R446): At the end of a pass, or at GLB_CYC_OFS[1] while the loop engine is disabled or absent, line 1 is raised in every cluster with CYC_BIND. With the duration of the pass in clocks. -/
  | loopDone (clks : BitVec 14)
  /-- POOL_BATCH (R32): A pool bank begins a batch and serves the pending requests in the fixed order of the masters. The bank, and the requests that have arrived at it since the last batch. -/
  | poolBatch (b : Fin 16) (arrivals : List PoolReq)
  /-- DOORBELL_POLL (R48): At a due poll instant with at least one enabled ring not halted, the device issues the read of the doorbell lines. -/
  | doorbellPoll
  /-- POLL_COMPLETION (R49): The doorbell read returns, and the device takes up the new tails and heads and judges whether the poll was empty. Words 0 to 79 of the doorbell page as the read returns them. -/
  | pollCompletion (words : List Word)
  /-- POLL_NOW (R51): HST_CMD.POLL_NOW starts a poll within 100 ns, restores the fast interval and clears the empty-poll count. -/
  | pollNow (m : Master)
  /-- QUIESCE (R87): HST_CMD.QUIESCE stops polling and fetching and discards prefetched descriptors. -/
  | quiesce (m : Master)
  /-- QUIESCE_COMPLETE (R87): Once the writes in flight have completed, HST_STS.QUIESCED is set. -/
  | quiesceComplete
  /-- HOST_RESUME (R87): HST_CMD.RESUME clears QUIESCED, writes the held write-backs and shadow words, and resumes fetching. -/
  | hostResume (m : Master)
  /-- BUS_MASTER_LOSS (R41): The PCIe link goes down or Bus Master Enable is cleared while EN is 1, so NOMASTER is set and DMA stops or is abandoned. -/
  | busMasterLoss (linkDown bmeOff : Bool)
  /-- BUS_MASTER_RESTORE (R41): The link and Bus Master Enable return, and polling and abandoned work resume afresh. The payload rate in kb/s of a link that comes up. -/
  | busMasterRestore (rate : Option Nat) (bmeOn : Bool)
  /-- DESCRIPTOR_FETCH_DONE (R61): Fetched transmit descriptors are validated as a chain under Table 02-4, and a valid chain has its buffers read. The descriptors as host memory holds them, 32 bytes each. -/
  | descriptorFetchDone (n : Fin 32) (descs : List (List Byte))
  /-- TX_BUFFER_READ_DONE (R61): The buffers of a valid transmit chain have been read, and the frame is offered to the switch on SP14. -/
  | txBufferReadDone (n : Fin 32) (data : List Byte)
  /-- DMA_COMPLETION_TIMEOUT (R81): A DMA read without completion for 64 µs fails and is handled under the second-attempt rule. The ring of a descriptor or buffer read, and the buffer of its chain. -/
  | dmaCompletionTimeout (kind : DmaKind) (rx : Bool) (n : Fin 32) (b : Fin 8)
  /-- TX_COMPLETION (R63): Once every target has transmitted or discarded a host frame, its descriptors are written back in ring order. -/
  | txCompletion (n : Fin 32)
  /-- MSIX_MODERATION_TIMEOUT (R78): US microseconds after the oldest unsignalled record, the event ring sends its MSI-X vector. -/
  | msixModerationTimeout (n : Fin 16)
  /-- RX_FRAME_DELIVERY (R69): A complete frame forwarded to SP14 is steered to a receive ring and written into its descriptors. The descriptors posted in the ring the frame is steered to, from its consumer index on. -/
  | rxFrameDelivery (descs : List (List Byte))
  /-- SHADOW_UPDATE (R56): The device writes a ring's shadow word no later than 1 µs after the last write-back of a batch. -/
  | shadowUpdate (k : RingKind) (n : Fin 32)
  /-- RING_HALT_CMD (R82): A write of CTL.HALT halts the ring with cause HOST. -/
  | ringHaltCmd (m : Master) (k : RingKind) (n : Fin 32)
  /-- RING_RESET (R85): CTL.RESET of a halted ring sets its index to 0, clears the halt and suppresses its pending write-backs. -/
  | ringReset (m : Master) (k : RingKind) (n : Fin 32)
  /-- RING_RESUME (R84): CTL.RESUME of a halted ring clears HALT and CAUSE, and the ring continues from its consumer index. -/
  | ringResume (m : Master) (k : RingKind) (n : Fin 32)
  /-- INGRESS_ADMISSION (R91): When the first 64 bytes of a frame are in, or a complete frame arrives, the ingress steps run and buffer admission is decided. The first 64 bytes, and the receive stamp in 1/256 ns of the port's time base. -/
  | ingressAdmission (p : Fin 14) (hdr : List Byte) (ts : Nat)
  /-- FRAME_END_AT_INPUT (R94): The last byte of a frame is received and written, so the MAC outcome, the FCS check, the enqueue of stored targets and learning follow. The frame without its FCS, and the PCS code errors within it. -/
  | frameEndAtInput (p : Fin 14) (data : List Byte) (fcs : FcsKind) (codeErrs : Nat) (partialByte : Bool) (form : RxForm)
  /-- OUTPUT_SELECT (R114): An output that is idle, or whose inter-packet gap ends, examines its queues and starts the head frame of the highest eligible class. -/
  | outputSelect (p : Fin 17)
  /-- FRAME_TRANSMIT_END (R137): An output ends a frame, and the frame's reference count is decremented. Whether the frame waited for carrier, and the stamp of the transmit timestamp point in 1/256 ns. -/
  | frameTransmitEnd (p : Fin 17) (how : TxEnd) (deferred : Bool) (ts : Nat)
  /-- PREEMPTION (R125): An express frame, a closing gate or a hold preempts a preemptable frame at the next permitted point. -/
  | preemption (p : Fin 10)
  /-- PREEMPTION_HOLD (R126): ADV nanoseconds before a SetAndHold entry, hold is raised, and SetAndRelease lowers it. -/
  | preemptionHold (p : Fin 10) (hold : Bool)
  /-- PREEMPTION_VERIFY (R124): The VERIFY_MS timer expires, and a verify mPacket is sent, or verification ends FAILED after three. -/
  | preemptionVerify (p : Fin 10) (response : Bool)
  /-- GATE_ENTRY_CHANGE (R116): The interval of an operative gate list entry ends, and the next entry or a new cycle takes force. -/
  | gateEntryChange (p : Fin 14)
  /-- GCL_CHANGE (R118): CFL_GCL_CMD.CHANGE sets PENDING and fixes the ConfigChangeTime. -/
  | gclChange (m : Master) (p : Fin 14)
  /-- GCL_CANCEL (R119): CFL_GCL_CMD.CANCEL withdraws a pending list change. -/
  | gclCancel (m : Master) (p : Fin 14)
  /-- GCL_CONFIG_CHANGE_TIME (R118): At the ConfigChangeTime the administrative list becomes operative and a new operative cycle starts. -/
  | gclConfigChangeTime (p : Fin 14)
  /-- FDB_AGE_SWEEP (R112): Every SEC/8 seconds on TB0, dynamic entries with AGE 0 are removed and the others are decremented. -/
  | fdbAgeSweep
  /-- FDB_ADD (R113): CFL_FDB_CMD ADD writes a static entry, evicting a dynamic entry if the bucket is full. -/
  | fdbAdd (m : Master)
  /-- FDB_DELETE (R113): CFL_FDB_CMD DELETE removes the entry for the key. -/
  | fdbDelete (m : Master)
  /-- FDB_READ (R113): CFL_FDB_CMD READ copies the entry INDEX into CFL_FDB_RES0–2. -/
  | fdbRead (m : Master) (index : Fin 16384)
  /-- FDB_LOOKUP (R113): CFL_FDB_CMD LOOKUP finds the key and copies its entry and index. -/
  | fdbLookup (m : Master)
  /-- FDB_FLUSH (R113): CFL_FDB_CMD FLUSH removes the matching dynamic entries, walking the buckets in ascending order. -/
  | fdbFlush (m : Master) (byFid byPort : Bool) (port : Fin 32)
  /-- FDB_OP_COMPLETE (R113): A database operation ends, and BUSY clears with RESULT set. -/
  | fdbOpComplete
  /-- VLAN_TABLE_WRITE (R107): CFL_VT_CMD WRITE before RUN writes the VLAN table entry from DATA0–2. -/
  | vlanTableWrite (m : Master) (vid : Fin 4096)
  /-- VLAN_TABLE_READ (R107): CFL_VT_CMD READ loads the VLAN table entry into DATA0–2. -/
  | vlanTableRead (m : Master) (vid : Fin 4096)
  /-- DUPLICATE_ENTRY_LAPSE (R132): A duplicate table entry lapses FORGET_MS after its insertion. -/
  | duplicateEntryLapse (i : Fin 2) (src : BitVec 48) (seq : BitVec 16)
  /-- RESIDUE_EXPIRY (R144): A residue entry that has waited CFL_RESIDUE_TO is removed and counted in RESIDUE_DROP. -/
  | residueExpiry
  /-- AGE_EXAMINATION (R171): Once per millisecond, and at each selection, an output examines its queue heads for missed launches and for age. -/
  | ageExamination (p : Fin 17)
  /-- EDDY_REQUEST (R172): Every PERIOD_MS milliseconds the Eddy audit requests the maintenance token, or counts SKIP. -/
  | eddyRequest
  /-- EDDY_SWEEP (R173): Holding the token, the audit sweeps the descriptors and cells, marking or reclaiming orphans. -/
  | eddySweep
  /-- EDDY_SWEEP_COMPLETE (R175): A sweep ends, reclaims are counted and logged, MAINT_DONE is posted where due, and the token is released. -/
  | eddySweepComplete
  /-- TRANSIT_FRAME_START (R156): A frame arrives on a port of an enabled transit window and is passed to the other port with 640 ns delay, edited under its rules. -/
  | transitFrameStart (w : Fin 4) (fromA : Bool) (data : List Byte)
  /-- TRANSIT_FRAME_END (R164): A transit frame ends, and with a good FCS its LATCH data is committed and the sequence word incremented. Whether both staging buffers of the direction still hold earlier frames. -/
  | transitFrameEnd (w : Fin 4) (fromA : Bool) (fcs : FcsKind) (full : Bool) (ts : Nat)
  /-- COLLISION (R181): A collision on a half-duplex or PLCA medium sends jam and starts the back-off, or ends the attempt as a late collision. Late: more than 512 bit times after the first preamble bit. -/
  | collision (p : Fin 14) (late : Bool)
  /-- BACKOFF_EXPIRY (R181): The back-off ends and the frame is attempted again from its stored cells. -/
  | backoffExpiry (p : Fin 14)
  /-- PLCA_BEACON_RECEIVED (R184): A PLCA beacon starts a PLCA cycle and returns a node that had fallen back to CSMA/CD to PLCA. Port P10 + t. -/
  | plcaBeaconReceived (t : Fin 4)
  /-- PLCA_BEACON_LOSS (R185): No beacon for 4000 bit times clears ACTIVE and falls back to CSMA/CD. -/
  | plcaBeaconLoss (t : Fin 4)
  /-- PLCA_TRANSMIT_OPPORTUNITY (R184): The transmit opportunity timer moves the PLCA cycle to the next node, or the coordinator sends a beacon. -/
  | plcaTransmitOpportunity (t : Fin 4)
  /-- MDIO_WRITE (R180): MAC_MDIO OP write queues a clause 22 write operation. Port P2 + q. -/
  | mdioWrite (m : Master) (q : Fin 8) (phyad regad : Fin 32) (data : BitVec 16)
  /-- MDIO_READ (R180): MAC_MDIO OP read queues a clause 22 read operation. -/
  | mdioRead (m : Master) (q : Fin 8) (phyad regad : Fin 32)
  /-- MDIO_COMPLETE (R180): An MDIO operation ends after 64 MDC periods, and BUSY clears with the data read. What the PHY answers, none when it does not. -/
  | mdioComplete (answer : Option (BitVec 16))
  /-- EEE_LPI_ENTRY (R187): After IDLE_US of empty queues and enough distance to the next wake-for-gate instant, the transmit side enters LPI. -/
  | eeeLpiEntry (p : Fin 10)
  /-- EEE_WAKE (R188): TW_TX before a wake-for-gate instant, or on an enqueue or a PAUSE due, the port leaves LPI. -/
  | eeeWake (p : Fin 10)
  /-- EEE_WAKE_COMPLETE (R189): The wake ends, and frames may start again. -/
  | eeeWakeComplete (p : Fin 10)
  /-- EEE_TW_WRITE (R190): A write of MAC_EEE_TW sets the wake time for the next entry into LPI. -/
  | eeeTwWrite (m : Master) (p : Fin 10) (tw : BitVec 16)
  /-- PARTNER_LPI (R195): Low-power idle received from the partner is recognised and counted in RX_LPI. -/
  | partnerLpi (p : Fin 10) (present : Bool)
  /-- PAUSE_HOLD_EXPIRY (R198): The quanta of a received PAUSE run out, and the hold of the output ends. -/
  | pauseHoldExpiry (p : Fin 10)
  /-- PAUSE_REPEAT (R199): While back-pressure lasts, a PAUSE frame is sent again each QUANTA/2 quanta. -/
  | pauseRepeat (p : Fin 10)
  /-- SERDES_SIGNAL_LOSS (R200): Loss of signal, lock or synchronisation sets RETRAINING, and the MAC retrains once. The bytes so far of a frame being received. -/
  | serdesSignalLoss (p : Fin 10) (part : Option (List Byte))
  /-- RETRAIN_TIMEOUT (R200): A retrain not back within RETRAIN_MS sets LINK to 0, counts DOWN and posts LINK_CHANGE. -/
  | retrainTimeout (p : Fin 10)
  /-- LINK_UP (R200): Link acquisition succeeds, LINK becomes 1 and LINK_CHANGE is posted, or a retrain ends in time without a change. The rate, as MAC_STS.RATE encodes it, and the duplex that the link comes up with. -/
  | linkUp (p : Fin 10) (rate : Fin 7) (half : Bool)
  /-- PHY_LINK_DOWN (R201): An SGMII in-band link-down report sets LINK to 0 at once, without retrain. -/
  | phyLinkDown (p : Fin 10)
  /-- LOOP_ON (R203): MAC_CMD.LOOP_ON puts the port into internal loopback within 1 µs. -/
  | loopOn (m : Master) (p : Fin 14)
  /-- LOOP_OFF (R203): MAC_CMD.LOOP_OFF restores the line, and on P0–P9 the link drops and is acquired again. -/
  | loopOff (m : Master) (p : Fin 14)
  /-- RETRAIN (R203): MAC_CMD.RETRAIN starts a manual retrain of a port of P0–P9. The bytes so far of a frame being received. -/
  | retrain (m : Master) (p : Fin 14) (part : Option (List Byte))
  /-- CNT_CLR (R204): MAC_CMD.CNT_CLR clears every counter of the port in one clock. -/
  | cntClr (m : Master) (p : Fin 14)
  /-- MAC_COUNTER_LOW_READ (R204): A read of a MAC counter's low word latches its high word. -/
  | macCounterLowRead (m : Master) (p : Fin 14) (j : Fin 35)
  /-- TB_STEP (R214): TB_CMD STEP adds the signed amount to the time base and cancels any slew, subject to the guard. -/
  | tbStep (m : Master) (n : Fin 8)
  /-- TB_SET (R214): TB_CMD SET loads the time and counts as a step of the difference. -/
  | tbSet (m : Master) (n : Fin 8)
  /-- TB_SLEW (R214): TB_CMD SLEW sets the remaining slew, and the time base runs ±SLEW_MAX beyond its rate. -/
  | tbSlew (m : Master) (n : Fin 8)
  /-- TB_SLEW_STOP (R214): TB_CMD SLEW_STOP sets the remaining slew to 0. -/
  | tbSlewStop (m : Master) (n : Fin 8)
  /-- TB_SERVE_SWITCH (R223): TB_CMD SERVE_SWITCH moves service to the other member and computes the served offset. -/
  | tbServeSwitch (m : Master) (n : Fin 8)
  /-- TB_OUT_OF_SERVICE (R227): TB_CMD OUT_OF_SERVICE takes the time base out of service for its consumers. -/
  | tbOutOfService (m : Master) (n : Fin 8)
  /-- TB_IN_SERVICE (R227): TB_CMD IN_SERVICE returns the time base to service, and its guard applies again. -/
  | tbInService (m : Master) (n : Fin 8)
  /-- TB_SNAPSHOT (R212): TB_CMD SNAPSHOT captures every raw time base and every served offset in one clock. -/
  | tbSnapshot (m : Master) (n : Fin 8)
  /-- TB_RATE_WRITE (R213): A write of TB_RATE.ADJ changes the rate at the next time base clock edge. -/
  | tbRateWrite (m : Master) (n : Fin 8) (adj : Word)
  /-- TB_NOW_READ (R211): A read of TB_NOW_NS returns the nanoseconds and latches the seconds and fraction. -/
  | tbNowRead (m : Master) (n : Fin 8)
  /-- SLEW_COMPLETE (R214): The remaining slew reaches 0, and SLEWING clears. -/
  | slewComplete (n : Fin 8)
  /-- SERVE_SLEW_COMPLETE (R224): The served offset reaches 0, and SERVE_SLEWING clears. -/
  | serveSlewComplete (n : Fin 8)
  /-- CAPTURE_EDGE (R237): A selected edge on a capture unit's pin is stamped into its FIFO, or counted as LOST. The time of the edge at the pin, in 2^-16 ns of the unit's time base. -/
  | captureEdge (k : Fin 4) (rising : Bool) (t : Nat)
  /-- TB_CAP_READ (R238): A read of TB_CAP_NS removes the oldest capture entry and latches its fraction and seconds. -/
  | tbCapRead (m : Master) (k : Fin 4)
  /-- PULSE_EDGE (R239): A pulse unit makes its active edge at START + k × PERIOD, or its inactive edge WIDTH later. -/
  | pulseEdge (k : Fin 4) (active : Bool)
  /-- GYS_CYCLE_START (R247): The bus timer reaches the end of its cycle, and a new Geyser cycle opens. -/
  | gysCycleStart
  /-- SLOT_PAYLOAD_FETCH (R252): 2000 ns before an own DATA slot starts, the mirror engine begins reading its payload from the pool. -/
  | slotPayloadFetch (c : Fin 2) (n : Fin 64)
  /-- SLOT_TRANSMIT (R251): At an own slot's nominal start the node sends its frame: data, heartbeat, mirror fragment or gateway fragment. Whether the receiver returned another symbol, and the stamp of the start of frame in 1/256 ns of the gateway frame's time base. -/
  | slotTransmit (c : Fin 2) (n : Fin 64) (mismatch : Bool) (ts : Nat)
  /-- GYS_FRAME_RECEIVE (R254): A frame received on a channel goes through the checks of Table 07-4 and is accepted or rejected. No code-group, disparity or delimiter error; header, payload and CRC; the time since the start of frame in 1/256 ns of the bus timer. -/
  | gysFrameReceive (c : Fin 2) (coding : Bool) (bytes : List Byte) (ago : Nat)
  /-- SLOT_CLOSE (R255): A slot closes, and an other-owned slot without an accepted frame is counted empty and its receive region ages. -/
  | slotClose (c : Fin 2) (n : Fin 64)
  /-- DELAY_REQ_SEND (R267): In a delay cycle the requester sends DELAY_REQ in the DLY_SLOT. T1 in 1/256 ns from the cycle start. -/
  | delayReqSend (c : Fin 2) (t1 : BitVec 32)
  /-- DELAY_RESP_SEND (R267): The responder sends DELAY_RESP with T2 and T3 at its fixed time in the DLY_SLOT. T3 in 1/256 ns from the cycle start. -/
  | delayRespSend (c : Fin 2) (t3 : BitVec 32)
  /-- GYS_LISTEN_TIMEOUT (R270): Silence for 2T in LISTEN or INTEGRATING leads to SYNC as first node, or to COLDSTART. -/
  | gysListenTimeout
  /-- COLDSTART_SEND (R271): After waiting node ID × 1 µs with no valid frame, the node sends a COLDSTART frame. -/
  | coldstartSend
  /-- COLDSTART_FRAME_END (R271): A clean COLDSTART frame starts the timer and enters SYNC, and a collision counts CS_COLL and backs off. The own receiver returned the frame unchanged; the time since the start of frame in 1/256 ns. -/
  | coldstartFrameEnd (clean : Bool) (ago : Nat)
  /-- INTEGRATION_ATTEMPT_END (R272): An integration attempt ends without two good cycles after 8 cycles, and a new attempt starts. -/
  | integrationAttemptEnd
  /-- GYS_ISOLATE (R274): GYS_CH_CMD.ISOLATE isolates the channel at the end of any frame it is sending. -/
  | gysIsolate (m : Master) (c : Fin 2)
  /-- GYS_JOIN (R270): GYS_CH_CMD.JOIN returns an isolated channel to LISTEN or to the node's timer state. -/
  | gysJoin (m : Master) (c : Fin 2)
  /-- HB_IN_TRANSITION (R282): A transition of HB_IN clears the loss count and restores a lost HB path. -/
  | hbInTransition
  /-- HB_PATH_LOST (R282): Three own 32.768 kHz edges without an HB_IN transition set HB_LOST. -/
  | hbPathLost
  /-- LONE_START_TIMEOUT (R279): An ISOLATED unit hears no usable partner heartbeat for 20 ms or 200 ms and becomes due to go ACTIVE. -/
  | loneStartTimeout
  /-- ENTER_ACTIVE (R296): At the first Geyser cycle start after its condition holds, the unit becomes ACTIVE, opens its gates, raises its epoch and delivers the takeover event. What a catch-up pass meets, as in LOOP_PASS. -/
  | enterActive (ws : List LoopAt) (failed : List (Fin 64)) (ecc : List (Fin 64 × BitVec 16))
  /-- PAIRING_LINK_FRAME_RECEIVE (R291): A frame received on the pairing link is taken as a mirror fragment, or discarded and counted in LINK_DROP. -/
  | pairingLinkFrameReceive (data : List Byte)
  /-- SNAPSHOT_COMMIT_DONE (R293): The commit of a checked snapshot body ends, and SNAP_OK, SEQ and SNAP_VALID are updated. -/
  | snapshotCommitDone
  /-- STANDBY_STALE (R279): Eight device cycles without a commit while the partner is ACTIVE return the standby to SYNCING. -/
  | standbyStale
  /-- PAIR_HANDOVER (R300): PAIR_CMD.HANDOVER starts an agreed handover by setting REQ in the heartbeats. -/
  | pairHandover (m : Master)
  /-- PAIR_ISOLATE (R279): PAIR_CMD.ISOLATE puts the unit into ISOLATED, held. -/
  | pairIsolate (m : Master)
  /-- PAIR_JOIN (R279): PAIR_CMD.JOIN releases a held ISOLATED unit. -/
  | pairJoin (m : Master)
  /-- HANDOVER_TICK (R300): At the agreed handover tick, the active sends its last snapshot and becomes STANDBY. -/
  | handoverTick
  /-- HANDOVER_TIMEOUT (R300): No RDY within 16 device cycles, or no echo before the tick, fails the handover. -/
  | handoverTimeout
  /-- REVERT_HOLDOFF_EXPIRY (R301): The reversion hold-off expires on a PREFERRED standby, which then sets REVERT_REQ. -/
  | revertHoldoffExpiry
  /-- INTERRUPT_ENTRY (R337): At an instruction boundary with an enabled line pending, the core enters the handler of the lowest pending line. -/
  | interruptEntry (k : Fin 16)
  /-- CORE_TIMER_EXPIRY (R340): The TIMER CSR counts from 1 to 0 and raises line 10. -/
  | coreTimerExpiry (k : Fin 16)
  /-- WAIT_WAKE (R321): A WAIT ends on an enabled pending line, or after WAIT_TO with STATUS.TO set. -/
  | waitWake (k : Fin 16) (expired : Bool)
  /-- TBWAIT_END (R327): A TBWAIT ends when the time base reaches the target or goes out of service. -/
  | tbwaitEnd (k : Fin 16)
  /-- RFIFO_WAIT_END (R328): A waiting RFPUSH or RFPOP completes, or its FIFO_TO expires with STATUS.TO set. -/
  | rfifoWaitEnd (k : Fin 16) (expired : Bool)
  /-- ADD (R321): rd receives ra + rb. Executed by cluster `k`. -/
  | add (k : Fin 16) (e : CoreEcc)
  /-- SUB (R321): rd receives ra − rb. Executed by cluster `k`. -/
  | sub (k : Fin 16) (e : CoreEcc)
  /-- AND (R321): rd receives ra AND rb. Executed by cluster `k`. -/
  | and (k : Fin 16) (e : CoreEcc)
  /-- OR (R321): rd receives ra OR rb. Executed by cluster `k`. -/
  | or (k : Fin 16) (e : CoreEcc)
  /-- XOR (R321): rd receives ra XOR rb. Executed by cluster `k`. -/
  | xor (k : Fin 16) (e : CoreEcc)
  /-- ANDN (R321): rd receives ra AND NOT rb. Executed by cluster `k`. -/
  | andn (k : Fin 16) (e : CoreEcc)
  /-- SHL (R321): rd receives ra shifted left by rb. Executed by cluster `k`. -/
  | shl (k : Fin 16) (e : CoreEcc)
  /-- SHR (R321): rd receives ra shifted right by rb, with zeros in. Executed by cluster `k`. -/
  | shr (k : Fin 16) (e : CoreEcc)
  /-- SAR (R321): rd receives ra shifted right by rb, with the sign in. Executed by cluster `k`. -/
  | sar (k : Fin 16) (e : CoreEcc)
  /-- ROR (R321): rd receives ra rotated right by rb. Executed by cluster `k`. -/
  | ror (k : Fin 16) (e : CoreEcc)
  /-- SLT (R321): rd receives 1 if ra < rb signed, and 0 otherwise. Executed by cluster `k`. -/
  | slt (k : Fin 16) (e : CoreEcc)
  /-- SLTU (R321): rd receives 1 if ra < rb unsigned, and 0 otherwise. Executed by cluster `k`. -/
  | sltu (k : Fin 16) (e : CoreEcc)
  /-- MIN (R321): rd receives the signed minimum of ra and rb. Executed by cluster `k`. -/
  | min (k : Fin 16) (e : CoreEcc)
  /-- MAX (R321): rd receives the signed maximum of ra and rb. Executed by cluster `k`. -/
  | max (k : Fin 16) (e : CoreEcc)
  /-- MINU (R321): rd receives the unsigned minimum of ra and rb. Executed by cluster `k`. -/
  | minu (k : Fin 16) (e : CoreEcc)
  /-- MAXU (R321): rd receives the unsigned maximum of ra and rb. Executed by cluster `k`. -/
  | maxu (k : Fin 16) (e : CoreEcc)
  /-- MUL (R321): rd receives the low 32 bits of ra × rb. Executed by cluster `k`. -/
  | mul (k : Fin 16) (e : CoreEcc)
  /-- MULH (R321): rd receives the high 32 bits of the signed product. Executed by cluster `k`. -/
  | mulh (k : Fin 16) (e : CoreEcc)
  /-- MULHU (R321): rd receives the high 32 bits of the unsigned product. Executed by cluster `k`. -/
  | mulhu (k : Fin 16) (e : CoreEcc)
  /-- DIV (R321): rd receives ra / rb signed, truncated toward 0, in 34 cycles. Executed by cluster `k`. -/
  | div (k : Fin 16) (e : CoreEcc)
  /-- DIVU (R321): rd receives ra / rb unsigned. Executed by cluster `k`. -/
  | divu (k : Fin 16) (e : CoreEcc)
  /-- REM (R321): rd receives the signed remainder of the division. Executed by cluster `k`. -/
  | rem (k : Fin 16) (e : CoreEcc)
  /-- REMU (R321): rd receives the unsigned remainder of the division. Executed by cluster `k`. -/
  | remu (k : Fin 16) (e : CoreEcc)
  /-- CLZ (R321): rd receives the number of leading zeros of ra. Executed by cluster `k`. -/
  | clz (k : Fin 16) (e : CoreEcc)
  /-- POPC (R321): rd receives the number of set bits of ra. Executed by cluster `k`. -/
  | popc (k : Fin 16) (e : CoreEcc)
  /-- REV8 (R321): rd receives ra with its four bytes reversed. Executed by cluster `k`. -/
  | rev8 (k : Fin 16) (e : CoreEcc)
  /-- SEXTB (R321): rd receives ra[7:0] sign-extended. Executed by cluster `k`. -/
  | sextb (k : Fin 16) (e : CoreEcc)
  /-- SEXTH (R321): rd receives ra[15:0] sign-extended. Executed by cluster `k`. -/
  | sexth (k : Fin 16) (e : CoreEcc)
  /-- MULQ (R321): rd receives the saturated Q16.16 product of ra and rb. Executed by cluster `k`. -/
  | mulq (k : Fin 16) (e : CoreEcc)
  /-- SADD (R321): rd receives the saturated sum of ra and rb. Executed by cluster `k`. -/
  | sadd (k : Fin 16) (e : CoreEcc)
  /-- SSUB (R321): rd receives the saturated difference of ra and rb. Executed by cluster `k`. -/
  | ssub (k : Fin 16) (e : CoreEcc)
  /-- ADDI (R321): rd receives ra plus the sign-extended immediate. Executed by cluster `k`. -/
  | addi (k : Fin 16) (e : CoreEcc)
  /-- ANDI (R321): rd receives ra AND the zero-extended immediate. Executed by cluster `k`. -/
  | andi (k : Fin 16) (e : CoreEcc)
  /-- ORI (R321): rd receives ra OR the zero-extended immediate. Executed by cluster `k`. -/
  | ori (k : Fin 16) (e : CoreEcc)
  /-- XORI (R321): rd receives ra XOR the zero-extended immediate. Executed by cluster `k`. -/
  | xori (k : Fin 16) (e : CoreEcc)
  /-- LIH (R321): rd receives the immediate × 65 536. Executed by cluster `k`. -/
  | lih (k : Fin 16) (e : CoreEcc)
  /-- SHI (R321): rd receives ra shifted or rotated by an immediate amount. Executed by cluster `k`. -/
  | shi (k : Fin 16) (e : CoreEcc)
  /-- SLTI (R321): rd receives 1 if ra is below the sign-extended immediate, and 0 otherwise. Executed by cluster `k`. -/
  | slti (k : Fin 16) (e : CoreEcc)
  /-- LW (R321): rd receives the word at ra plus the offset. Executed by cluster `k`. -/
  | lw (k : Fin 16) (e : CoreEcc)
  /-- LH (R321): rd receives the halfword at ra plus the offset, sign-extended. Executed by cluster `k`. -/
  | lh (k : Fin 16) (e : CoreEcc)
  /-- LHU (R321): rd receives the halfword at ra plus the offset, zero-extended. Executed by cluster `k`. -/
  | lhu (k : Fin 16) (e : CoreEcc)
  /-- LB (R321): rd receives the byte at ra plus the offset, sign-extended. Executed by cluster `k`. -/
  | lb (k : Fin 16) (e : CoreEcc)
  /-- LBU (R321): rd receives the byte at ra plus the offset, zero-extended. Executed by cluster `k`. -/
  | lbu (k : Fin 16) (e : CoreEcc)
  /-- SW (R321): The word rd is stored at ra plus the offset. Executed by cluster `k`. -/
  | sw (k : Fin 16) (e : CoreEcc)
  /-- SH (R321): The halfword of rd is stored at ra plus the offset. Executed by cluster `k`. -/
  | sh (k : Fin 16) (e : CoreEcc)
  /-- SB (R321): The byte of rd is stored at ra plus the offset. Executed by cluster `k`. -/
  | sb (k : Fin 16) (e : CoreEcc)
  /-- LWP (R321): A word load at ra, after which ra is incremented by the offset. Executed by cluster `k`. -/
  | lwp (k : Fin 16) (e : CoreEcc)
  /-- LHUP (R321): A zero-extending halfword load at ra, after which ra is incremented. Executed by cluster `k`. -/
  | lhup (k : Fin 16) (e : CoreEcc)
  /-- LBUP (R321): A zero-extending byte load at ra, after which ra is incremented. Executed by cluster `k`. -/
  | lbup (k : Fin 16) (e : CoreEcc)
  /-- SWP (R321): A word store at ra, after which ra is incremented. Executed by cluster `k`. -/
  | swp (k : Fin 16) (e : CoreEcc)
  /-- SHP (R321): A halfword store at ra, after which ra is incremented. Executed by cluster `k`. -/
  | shp (k : Fin 16) (e : CoreEcc)
  /-- SBP (R321): A byte store at ra, after which ra is incremented. Executed by cluster `k`. -/
  | sbp (k : Fin 16) (e : CoreEcc)
  /-- BFXU (R321): rd receives a bitfield of ra, zero-extended. Executed by cluster `k`. -/
  | bfxu (k : Fin 16) (e : CoreEcc)
  /-- BFXS (R321): rd receives a bitfield of ra, sign-extended. Executed by cluster `k`. -/
  | bfxs (k : Fin 16) (e : CoreEcc)
  /-- BFI (R321): The low bits of ra are inserted into a bitfield of rd. Executed by cluster `k`. -/
  | bfi (k : Fin 16) (e : CoreEcc)
  /-- BFCLR (R321): rd receives ra with a bitfield cleared. Executed by cluster `k`. -/
  | bfclr (k : Fin 16) (e : CoreEcc)
  /-- CRC (R323): rd receives the CRC or checksum accumulator ra updated by bytes of rb. Executed by cluster `k`. -/
  | crc (k : Fin 16) (e : CoreEcc)
  /-- CRCM (R323): rd is updated by the bytes at address ra, and ra advances by the width. Executed by cluster `k`. -/
  | crcm (k : Fin 16) (e : CoreEcc)
  /-- AADD (R488): The pool word at ra has rb added in one indivisible access, and rd receives the previous word. Executed by cluster `k`. -/
  | aadd (k : Fin 16) (e : CoreEcc)
  /-- ASWP (R488): The pool word at ra is swapped with rb in one indivisible access, and rd receives the previous word. Executed by cluster `k`. -/
  | aswp (k : Fin 16) (e : CoreEcc)
  /-- MBSEND (R325): After a fence, a notice is stored on the mailbox, and rd reports whether an unread notice was overwritten. Executed by cluster `k`. -/
  | mbsend (k : Fin 16) (e : CoreEcc)
  /-- MBTAKE (R325): The mailbox notice is taken: rd receives the pointer and MBTAG the tag and flags. Executed by cluster `k`. -/
  | mbtake (k : Fin 16) (e : CoreEcc)
  /-- MBACK (R325): A return code is written as the mailbox's ACK. Executed by cluster `k`. -/
  | mback (k : Fin 16) (e : CoreEcc)
  /-- MBACKR (R325): The mailbox ACK is consumed, and rd receives its code. Executed by cluster `k`. -/
  | mbackr (k : Fin 16) (e : CoreEcc)
  /-- MBSTAT (R325): rd receives the mailbox status word. Executed by cluster `k`. -/
  | mbstat (k : Fin 16) (e : CoreEcc)
  /-- TBRD (R326): rd receives NS32 of the time base, and the TB CSRs latch its full time. Executed by cluster `k`. -/
  | tbrd (k : Fin 16) (e : CoreEcc)
  /-- TBSTEP (R326): The core steps the time base by ra ns in the order of R216. Executed by cluster `k`. -/
  | tbstep (k : Fin 16) (e : CoreEcc)
  /-- TBSLEW (R326): The core issues a slew of ra ns on the time base. Executed by cluster `k`. -/
  | tbslew (k : Fin 16) (e : CoreEcc)
  /-- TBRATE (R326): The core writes ra as the time base's ADJ. Executed by cluster `k`. -/
  | tbrate (k : Fin 16) (e : CoreEcc)
  /-- TBWAIT (R327): The core stalls until the time base reaches the NS32 value in ra. Executed by cluster `k`. -/
  | tbwait (k : Fin 16) (e : CoreEcc)
  /-- RFPUSH (R328): ra is written into the FIFO toward the engine, waiting up to FIFO_TO while it is full. Executed by cluster `k`. -/
  | rfpush (k : Fin 16) (e : CoreEcc)
  /-- RFPOP (R328): rd receives a word from the FIFO toward the core, waiting up to FIFO_TO while it is empty. Executed by cluster `k`. -/
  | rfpop (k : Fin 16) (e : CoreEcc)
  /-- RFLVL (R328): rd receives the fill level of the engine's FIFOs. Executed by cluster `k`. -/
  | rflvl (k : Fin 16) (e : CoreEcc)
  /-- FQTX (R354): After a fence, a transmit request is submitted toward SP15 and accepted, refused or found invalid. Executed by cluster `k`. -/
  | fqtx (k : Fin 16) (e : CoreEcc)
  /-- FQRX (R329): rd receives the address of the next receive record, or 0 if there is none. Executed by cluster `k`. -/
  | fqrx (k : Fin 16) (e : CoreEcc)
  /-- FQFREE (R361): A receive record and its buffer are returned, and a bad address is counted in BADFREE. Executed by cluster `k`. -/
  | fqfree (k : Fin 16) (e : CoreEcc)
  /-- FQLVL (R329): rd receives the queued receive records and the free transmit requests. Executed by cluster `k`. -/
  | fqlvl (k : Fin 16) (e : CoreEcc)
  /-- CRD (R340): rd receives a CSR. Executed by cluster `k`. -/
  | crd (k : Fin 16) (e : CoreEcc)
  /-- CWR (R340): rd receives a CSR, and the CSR takes ra. Executed by cluster `k`. -/
  | cwr (k : Fin 16) (e : CoreEcc)
  /-- CSET (R340): rd receives a CSR, and the bits set in ra are set in the CSR. Executed by cluster `k`. -/
  | cset (k : Fin 16) (e : CoreEcc)
  /-- CCLR (R340): rd receives a CSR, and the bits set in ra are cleared in the CSR. Executed by cluster `k`. -/
  | cclr (k : Fin 16) (e : CoreEcc)
  /-- NOP (R321): No operation. Executed by cluster `k`. -/
  | nop (k : Fin 16) (e : CoreEcc)
  /-- FENCE (R316): The core stalls until every earlier load and store has been served. Executed by cluster `k`. -/
  | fence (k : Fin 16) (e : CoreEcc)
  /-- WAIT (R321): The core clock is gated until an enabled line is pending or WAIT_TO passes. Executed by cluster `k`. -/
  | wait (k : Fin 16) (e : CoreEcc)
  /-- ECALL (R321): Raises the ECALL exception with CODE in CAUSE.INFO. Executed by cluster `k`. -/
  | ecall (k : Fin 16) (e : CoreEcc)
  /-- BREAK (R321): Raises the BREAK exception. Executed by cluster `k`. -/
  | break (k : Fin 16) (e : CoreEcc)
  /-- RETI (R338): STATUS and the loop state are restored, the window slides back, and execution continues at EPC. Executed by cluster `k`. -/
  | reti (k : Fin 16) (e : CoreEcc)
  /-- EI (R321): STATUS.IE is set from the next instruction boundary. Executed by cluster `k`. -/
  | ei (k : Fin 16) (e : CoreEcc)
  /-- DI (R321): STATUS.IE is cleared. Executed by cluster `k`. -/
  | di (k : Fin 16) (e : CoreEcc)
  /-- BCC (R322): The core branches if ra COND rb holds, or on STATUS.TO. Executed by cluster `k`. -/
  | bcc (k : Fin 16) (e : CoreEcc)
  /-- BCCI (R322): The core branches if ra compared with imm5, or a bit test of ra, holds. Executed by cluster `k`. -/
  | bcci (k : Fin 16) (e : CoreEcc)
  /-- J (R320): The core jumps to a relative target. Executed by cluster `k`. -/
  | j (k : Fin 16) (e : CoreEcc)
  /-- CALL (R310): The window slides forward by one bank and the core calls a relative target. Executed by cluster `k`. -/
  | call (k : Fin 16) (e : CoreEcc)
  /-- JR (R320): The core jumps to the address in ra. Executed by cluster `k`. -/
  | jr (k : Fin 16) (e : CoreEcc)
  /-- CALLR (R310): The core calls the address in ra with a window slide. Executed by cluster `k`. -/
  | callr (k : Fin 16) (e : CoreEcc)
  /-- RET (R310): The window slides back and execution continues at v7. Executed by cluster `k`. -/
  | ret (k : Fin 16) (e : CoreEcc)
  /-- LOOP (R330): A zero-overhead loop level opens with its count from ra. Executed by cluster `k`. -/
  | loop (k : Fin 16) (e : CoreEcc)
  /-- LOOPI (R330): A zero-overhead loop level opens with an immediate count. Executed by cluster `k`. -/
  | loopi (k : Fin 16) (e : CoreEcc)
  /-- REP (R334): The next instruction is repeated ra times. Executed by cluster `k`. -/
  | rep (k : Fin 16) (e : CoreEcc)
  /-- REPI (R334): The next instruction is repeated COUNT times. Executed by cluster `k`. -/
  | repi (k : Fin 16) (e : CoreEcc)
  /-- ENG_START (R375): ENG_CMD START begins a loaded IDLE cluster at vector 0, or continues a STOPPED one. -/
  | engStart (m : Master) (k : Fin 16)
  /-- ENG_STOP (R375): ENG_CMD STOP stops a RUNNING cluster at the next instruction boundary. -/
  | engStop (m : Master) (k : Fin 16)
  /-- ENG_RESTART (R375): ENG_CMD RESTART restarts the cluster as at core start and clears FAILED. -/
  | engRestart (m : Master) (k : Fin 16)
  /-- ENG_MIGRATE (R376): ENG_CMD MIGRATE requests the migration of the cluster and the maintenance token. -/
  | engMigrate (m : Master) (k : Fin 16) (target : Fin 32)
  /-- ENG_SOFT (R352): ENG_CMD SOFT sets line 11 of the cluster. -/
  | engSoft (m : Master) (k : Fin 16)
  /-- AUTO_RESTART (R374): 1 µs after a halt, a cluster with AUTO_RESTART is restarted on the same core. -/
  | autoRestart (k : Fin 16)
  /-- RESTART_WINDOW_EXPIRY (R374): A restarted cluster that has not halted again within ENG_RESTART_WIN counts RESTART_OK. -/
  | restartWindowExpiry (k : Fin 16)
  /-- MIGRATION_RUN (R377): At the first tick with the token held, the migration stops the source and copies its context and memories. -/
  | migrationRun
  /-- MIGRATION_COMPLETE (R380): The cores of the two clusters are exchanged, or the migration ends with another result, and MAINT_DONE is posted. Whether a word stayed uncorrectable, and the time since the tick. -/
  | migrationComplete (eccAbort : Bool) (ns : Nat)
  /-- MIGRATION_TIMEOUT (R379): A migration not finished 25 µs after its tick is abandoned with TIMEOUT. -/
  | migrationTimeout
  /-- CORE_OUT_OF_SERVICE (R381): ENG_CORE_CMD OUT_OF_SERVICE takes a core out of service, after migrating its cluster if it runs one. -/
  | coreOutOfService (m : Master) (n : Fin 16)
  /-- CORE_IN_SERVICE (R381): ENG_CORE_CMD IN_SERVICE starts initialising the core's memories to zero. -/
  | coreInService (m : Master) (n : Fin 16)
  /-- CORE_INIT_DONE (R381): Core memory initialisation ends, and the core becomes free. -/
  | coreInitDone (n : Fin 16)
  /-- FQ_FRAME_READ_DONE (R355): The frame of an accepted request has been read into the packet buffer and enters SP15 as a frame arriving complete. -/
  | fqFrameReadDone (k : Fin 16) (eccFail : Bool)
  /-- FQ_TX_COMPLETION (R355): A transmit request is completed in submission order with its status written back. -/
  | fqTxCompletion (k : Fin 16)
  /-- FQ_RX_DELIVERY (R359): A frame forwarded to SP15 is steered to a cluster and written into a free receive buffer, or discarded. -/
  | fqRxDelivery
  /-- MBX_CMD_SEND (R367): MBX_CMD SEND posts MBX_HOST_PTR with its tag as a host notice. -/
  | mbxCmdSend (src : Master) (m : Fin 64) (data : BitVec 16)
  /-- MBX_CMD_TAKE (R367): MBX_CMD TAKE takes the notice of a host-receiving mailbox. -/
  | mbxCmdTake (src : Master) (m : Fin 64) (data : BitVec 16)
  /-- MBX_CMD_ACK (R367): MBX_CMD ACK posts DATA as the return code of a host-receiving mailbox. -/
  | mbxCmdAck (src : Master) (m : Fin 64) (data : BitVec 16)
  /-- MBX_CMD_ACK_CLR (R367): MBX_CMD ACK_CLR consumes the ACK of a host-sending mailbox. -/
  | mbxCmdAckClr (src : Master) (m : Fin 64) (data : BitVec 16)
  /-- LOCK_READ (R370): A read of a free lock acquires it for the reader, and a read of a held lock returns its value unchanged. -/
  | lockRead (who : LockUser) (n : Fin 64)
  /-- LOCK_WRITE (R370): A write of 0 by the owner frees the lock, and every other write is ignored and counted in BAD. -/
  | lockWrite (who : LockUser) (n : Fin 64) (v : Word)
  /-- LOCK_FORCE (R372): ENG_LOCK_FORCE frees the named lock, whoever owns it. -/
  | lockForce (m : Master) (n : Fin 64)
  /-- RILL_GOTO (R387): The engine continues at ADDR when its test holds, with DJNZ decrementing CTR. The filtered levels of the slots at the tick. -/
  | rillGoto (e : Fin 48) (lv : BitVec 4)
  /-- RILL_AWAIT (R387): The engine waits until a pin level, edge, compare or cycle release holds. The levels at this tick and at the tick before. -/
  | rillAwait (e : Fin 48) (lv before : BitVec 4)
  /-- RILL_SHIFT (R388): N bits are shifted, one per tick, in from a slot, out to a slot, or both. The level at each tick and the instant of the pin's last transition. -/
  | rillShift (e : Fin 48) (samples : List (Bool × Nat))
  /-- RILL_FETCH (R387): SR is loaded from the next eligible word of the FIFO toward the engine, or the engine waits. -/
  | rillFetch (e : Fin 48)
  /-- RILL_POST (R387): SR or the stamp is written into the FIFO toward the core, or the engine waits or drops it. -/
  | rillPost (e : Fin 48)
  /-- RILL_WAIT_END (R387): The condition of a waiting AWAIT, FETCH or POST comes to hold, and the instruction completes. -/
  | rillWaitEnd (e : Fin 48) (lv before : BitVec 4)
  /-- RILL_LOAD (R387): A slot level, a slot driver enable or CTR is loaded from VAL. -/
  | rillLoad (e : Fin 48)
  /-- RILL_COPY (R387): A value is copied between CTR, SR, the slot levels and BC. -/
  | rillCopy (e : Fin 48) (lv : BitVec 4)
  /-- RILL_VERIFY (R389): A slot is tested for a level, with an optional second sample, and the engine branches to FAIL on a mismatch. The level at the tick and at the second sample. -/
  | rillVerify (e : Fin 48) (lvl lvl2 : Bool)
  /-- RILL_HALT (R387): The engine stops and sets DONE. -/
  | rillHalt (e : Fin 48)
  /-- RIL_START (R404): RIL_CTL START starts a stopped engine at ENTRY. -/
  | rilStart (m : Master) (e : Fin 48) (clrSr flush : Bool)
  /-- RIL_STOP (R401): RIL_CTL STOP requests a stop at the engine's next tick. -/
  | rilStop (m : Master) (e : Fin 48)
  /-- RIL_STOP_EFFECT (R401): At the engine's next tick the stop takes effect and abandons the instruction in progress. -/
  | rilStopEffect (e : Fin 48)
  /-- SYNC_START (R399): RIL_SYNC_CMD START starts every named engine on one Rill clock edge. -/
  | syncStart (m : Master) (hi : BitVec 16)
  /-- SYNC_PHASE (R399): RIL_SYNC_CMD PHASE restarts the divider phase of every named engine on one edge. -/
  | syncPhase (m : Master) (hi : BitVec 16)
  /-- GROUP_OUT_OF_SERVICE (R406): RIL_GRP_CMD OUT_OF_SERVICE stops the group's engines and releases their output slots. -/
  | groupOutOfService (m : Master) (g : Fin 16)
  /-- GROUP_IN_SERVICE (R406): RIL_GRP_CMD IN_SERVICE returns the group's engines to STOPPED. -/
  | groupInService (m : Master) (g : Fin 16)
  /-- PROGRAM_WORD_WRITE (R402): A write of a Rill program word takes effect only on a STOPPED engine, and otherwise sets PROG_REJ. -/
  | programWordWrite (m : Master) (e : Fin 48) (i : Fin 32) (v : Word)
  /-- CAN_FRAME_RECEIVE (R416): A valid CAN frame is filtered and stored in a FIFO or the high-priority buffer, or rejected. With its start of frame in 1/256 ns of the controller's time base. -/
  | canFrameReceive (c : Fin 4) (own : Bool) (msg : CanMsg) (ts : Nat)
  /-- CAN_TX_REQUEST (R420): A CAN_TXREQ bit validates its buffer and makes it pending, or completes it at once. -/
  | canTxRequest (m : Master) (c : Fin 4) (b : Fin 32)
  /-- CAN_TX_CANCEL (R423): A CAN_TXCAN bit cancels its buffer by the first case of R423 that applies. -/
  | canTxCancel (m : Master) (c : Fin 4) (b : Fin 32)
  /-- CAN_ARBITRATION (R421): When the bus allows a start of frame, the highest-priority eligible pending buffer is sent. Whether the arbitration of an attempt is won, and, at a start of frame, whether the buffer read meets an uncorrectable error that persists. -/
  | canArbitration (c : Fin 4) (won ecc : Bool)
  /-- CAN_TX_COMPLETE (R426): A transmit completes, writes its event element and frees the buffer. -/
  | canTxComplete (c : Fin 4) (ts : Nat) (tdcv : BitVec 7)
  /-- CAN_ERROR (R427): A detected bus error updates TEC and REC and the error state. -/
  | canError (c : Fin 4) (kind : CanErr) (add : Fin 17)
  /-- CAN_RECOVER (R430): CAN_CMD RECOVER starts bus-off recovery. -/
  | canRecover (m : Master) (c : Fin 4)
  /-- CAN_AUTO_RECOVERY (R430): WAIT_MS after bus-off without a recovery, the controller starts recovery itself. -/
  | canAutoRecovery (c : Fin 4)
  /-- CAN_RECOVERY_COMPLETE (R430): After 128 occurrences of 11 recessive bits, the counters are cleared and integration begins. -/
  | canRecoveryComplete (c : Fin 4)
  /-- CAN_INTEGRATION_COMPLETE (R428): 11 consecutive recessive bits make an INTEGRATING controller ERROR_ACTIVE. -/
  | canIntegrationComplete (c : Fin 4)
  /-- CAN_OUT_OF_SERVICE (R435): CAN_CMD OUT_OF_SERVICE takes the controller off the bus and aborts its pending buffers. -/
  | canOutOfService (m : Master) (c : Fin 4)
  /-- CAN_IN_SERVICE (R435): CAN_CMD IN_SERVICE aborts the remaining buffers and starts integration. -/
  | canInService (m : Master) (c : Fin 4)
  /-- CAN_EXCHANGE_POLL (R437): Every 1 µs the device reads the cluster's exchange words and takes its request entries. -/
  | canExchangePoll (c : Fin 4)
  /-- CAN_RING_COPY (R438): A receive, event or high-priority element is copied to the exchange area and its RAM entry freed. -/
  | canRingCopy (c : Fin 4) (what : CanElem) (ecc : Bool)
  /-- CAN_RXF_ACK (R417): A write of CAN_RXF_ACK frees receive FIFO elements up to the one named. -/
  | canRxfAck (m : Master) (c : Fin 4) (f : Fin 2) (i : Fin 64)
  /-- CAN_EVF_ACK (R426): A write of CAN_EVF_ACK frees event FIFO elements up to the one named. -/
  | canEvfAck (m : Master) (c : Fin 4) (i : Fin 32)
  /-- CAN_HP_ACK (R418): A write of CAN_HP_ACK clears FULL and COLL of the high-priority buffer. -/
  | canHpAck (m : Master) (c : Fin 4) (ack : Bool)
  /-- CAN_RAM_WRITE (R415): A write through the message RAM window is checked against the filter encodings and pending buffers. -/
  | canRamWrite (m : Master) (c : Fin 4) (j : Fin 512) (v : Word)
  /-- LOOP_COEFFICIENT_WRITE (R457): A loop coefficient or table write is applied whole between slots and increments LOOP_COEF_SEQ. -/
  | loopCoefficientWrite (m : Master) (c : LoopCoef) (v : Word)
  /-- IMAGE_REPLACE (R475): BOOT_IMG_CMD REPLACE requests the replacement of a cluster's image and the maintenance token. The cluster, and pool offset bits 20:12 of the container. -/
  | imageReplace (m : Master) (k : Fin 16) (page : BitVec 9)
  /-- IMAGE_VERIFY (R476): Holding the token, the loader verifies the container under Table 14-4. Whether a word of the container or of the target memories is uncorrectable after one re-read. -/
  | imageVerify (ecc : Bool)
  /-- IMAGE_REPLACE_ACT (R476): At the first tick after verification, the loader stops the cluster, writes the image and starts it at vector 0. -/
  | imageReplaceAct
  /-- ECC_REREAD (R485): At the bank's next idle clock a word with a single-bit error is read again, and it is counted transient or written back. The memory, the byte offset of the word, and what its second read finds. -/
  | eccReread (m : Fin 56) (off : BitVec 18) (e : Reread)
  /-- ATOM_ADD (R489): MEM_ATOM_CMD ADD performs a host atomic add on a pool word. -/
  | atomAdd (m : Master)
  /-- ATOM_SWAP (R489): MEM_ATOM_CMD SWAP performs a host atomic swap on a pool word. -/
  | atomSwap (m : Master)
  /-- BANK_ON (R490): MEM_BANK_CMD ON requests that a memory return to ON. -/
  | bankOn (src : Master) (m : Fin 64)
  /-- BANK_RET (R490): MEM_BANK_CMD RET requests retention of a memory. -/
  | bankRet (src : Master) (m : Fin 64)
  /-- BANK_OFF (R490): MEM_BANK_CMD OFF requests that a memory be switched off. -/
  | bankOff (src : Master) (m : Fin 64)
  /-- BANK_OOS (R490): MEM_BANK_CMD OOS requests that a memory be taken out of service. -/
  | bankOos (src : Master) (m : Fin 64)
  /-- BANK_POWER_DONE (R492): Holding the token, the bank command ends with OK or IN_USE. -/
  | bankPowerDone
  /-- PLL_LOCK_LOSS (R496): A running PLL loses lock and is restarted once. -/
  | pllLockLoss (n : Fin 8)
  /-- PLL_LOCK_TIMEOUT (R496): A PLL not locked 50 µs after its start is restarted once, or fails. -/
  | pllLockTimeout (n : Fin 8)
  /-- LSE_LOSS (R498): 200 µs without a 32.768 kHz edge clears LSE_OK. -/
  | lseLoss
  /-- HSE_LOSS (R498): Loss of the 25 MHz clock is a fatal fault. -/
  | hseLoss
  /-- SECONDS_TICK (R499): Every 32 768th edge of the 32.768 kHz clock adds 1 to PWR_SEC. -/
  | secondsTick
  /-- PWR_DOZE (R502): PWR_CMD DOZE stops work and puts the domains into retention. -/
  | pwrDoze (m : Master)
  /-- PWR_SLEEP (R502): PWR_CMD SLEEP stops work, the crystal and the PLLs. -/
  | pwrSleep (m : Master)
  /-- PWR_HIBERNATE (R504): PWR_CMD HIBERNATE releases the pins and switches off every domain but AON. -/
  | pwrHibernate (m : Master)
  /-- PWR_WAKE (R503): PWR_CMD WAKE in DOZE returns the device to ON. -/
  | pwrWake (m : Master)
  /-- WAKE_SOURCE (R503): An enabled wake source returns the device from DOZE or SLEEP, or restarts it from HIBERNATE. The sources active, as in PWR_STS.WAKE_SRC. -/
  | wakeSource (srcs : BitVec 7)
  /-- BT_REQUEST (R505): Every PERIOD_US the background test requests the maintenance token. -/
  | btRequest
  /-- ROW_TEST (R506): Holding the token, the test engine saves a row and runs March C− on it. -/
  | rowTest
  /-- ROW_TEST_DONE (R508): A March run ends, and is repeated, passed as transient or followed by repair, and the row is restored. Whether a read of the run differed. -/
  | rowTestDone (failed : Bool)
  /-- BT_ABORT (R507): A March run not ended MAX_US after the first copy is abandoned and the row restored. -/
  | btAbort
  /-- BT_ROW (R505): MEM_BT_CMD ROW makes the named row the next one tested. -/
  | btRow (src : Master) (m : Fin 64) (row : BitVec 8)
  /-- BT_FULL (R508): MEM_BT_CMD FULL runs March C− on every row of an OOS memory, with repair. -/
  | btFull (src : Master) (m : Fin 64)
  /-- WDG_KICK (R521): A write of TPH_WDG_KICK with KEY 0x5A meets the host condition, and a kick follows when all conditions are met. -/
  | wdgKick (m : Master) (key : BitVec 8)
  /-- WDG_WARN (R520): The watchdog count reaches half its limit, and WARN is set. -/
  | wdgWarn
  /-- WDG_EXPIRY (R520): The watchdog count reaches its limit, and WDG_EXPIRED is raised. -/
  | wdgExpiry
  /-- FATAL_AUTO_RESET (R524): With AUTO_RESET, the device resets itself 10 ms after a fatal trigger. -/
  | fatalAutoReset
  /-- UNDERVOLT (R523): VDD_CORE below its monitor threshold for more than 2 µs raises a fatal fault. -/
  | undervolt
  /-- OVERTEMP (R572): The junction reaches the shutdown temperature, and a fatal fault is raised. With the junction temperature in °C. -/
  | overtemp (temp : BitVec 8)
  /-- TPH_FREEZE (R523): TPH_CMD FREEZE raises the fatal fault HOST_FREEZE. -/
  | tphFreeze (m : Master)
  /-- TPH_CLEAR (R529): TPH_CMD CLEAR zeroes every log entry and TPH_TOTAL, and then releases the log. -/
  | tphClear (m : Master)
  /-- TPH_CLEAR_DONE (R529): The log clear ends within 40.96 µs, and logging resumes. -/
  | tphClearDone
  /-- TPH_RELEASE (R529): TPH_CMD RELEASE clears FROZEN and DROPPED, and writing resumes. -/
  | tphRelease (m : Master)
  /-- TEPHRA_ENTRY_WRITE (R526): The Tephra controller writes the next queued event as one entry and increments TPH_TOTAL. -/
  | tephraEntryWrite
  /-- TPH_WINDOW_READ (R530): A read of the log window serves any pending entry write first, and an uncorrectable word sets TPH_STS.ECC. Word `w` of the window, and whether its uncorrectable error persists. -/
  | tphWindowRead (m : Master) (w : Fin 512) (ecc : Bool)
  /-- MAIN_RAIL_LOSS (R561): VDDIO_33 falls below 2.90 V, the AON island switches to VBAT, and MAIN_LOSS is logged. -/
  | mainRailLoss
  /-- POWER_UP_RESET (R532): VDD_CORE crosses its monitor threshold rising and resets the device. Whether VBAT is applied for the first time. -/
  | powerUpReset (first : Bool)
  /-- RESET_N_ASSERT (R532): RESET_N held low for at least 1 µs resets the device. -/
  | resetNAssert
  /-- GLB_RESET (R551): GLB_RESET written with KEY 0xA5 resets the device and keeps the PCIe link. -/
  | glbReset (m : Master) (key : BitVec 8)
  /-- PERST_N (R533): A PCI Express fundamental reset resets the endpoint and its link, and in RUN quiesces the host ring manager. -/
  | perstN
  /-- HSE_STARTUP_TIMEOUT (R535): A 25 MHz crystal not running 5 ms after reset is the fatal fault HSE_LOSS. -/
  | hseStartupTimeout
  /-- INIT_COMPLETE (R535): INIT ends, PCIe training starts, and the device enters LOADING or HOST. Whether the 32.768 kHz crystal runs. -/
  | initComplete (lse : Bool)
  /-- DIRECTORY_LOAD (R542): A boot directory is read and verified, directory B is tried after A, and its keys are loaded. The bytes of the directory as the flash returns them. -/
  | directoryLoad (d : List Byte)
  /-- CONTAINER_LOAD (R543): A container named by the directory is read, verified and written into its cluster, or the load falls back or stops. The bytes of the container as the flash returns them, and whether a word of the target memories is uncorrectable. -/
  | containerLoad (d : List Byte) (ecc : Bool)
  /-- SETUP_WRITES (R544): The directory's set-up writes are applied in order, and the device enters RUN or HOST. The time since the release of reset in µs, for BOOT_TIME. -/
  | setupWrites (us : Nat)
  /-- BOOT_KEYS (R545): BOOT_CMD KEYS replaces the key store from a key table in the pool. Pool offset bits 20:8 of the key table. -/
  | bootKeys (m : Master) (page : BitVec 13)
  /-- BOOT_RUN (R546): BOOT_CMD RUN is accepted in HOST and starts the entry into RUN. The time since the release of reset in µs, for BOOT_TIME. -/
  | bootRun (m : Master) (us : Nat)
  /-- BOOT_FLASH (R545): BOOT_CMD FLASH unloads every image and starts a flash boot from HOST. -/
  | bootFlash (m : Master)
  /-- FUSE_PROGRAM (R540): BOOT_FUSE_CMD PROGRAM writes a key hash into a fuse slot and sets PROG. -/
  | fuseProgram (m : Master) (slot : Fin 4) (key : BitVec 8)
  /-- FUSE_REVOKE (R540): BOOT_FUSE_CMD REVOKE revokes a fuse slot and empties it in the key store. -/
  | fuseRevoke (m : Master) (slot : Fin 4) (key : BitVec 8)
  /-- FUSE_OP_DONE (R540): A fuse operation ends, and BUSY clears. -/
  | fuseOpDone
  /-- RESET_RELEASE (R534): At the release of reset the straps are latched, the pair role is fixed and INIT begins. The straps BOOT_MODE, PAIR_ROLE and FLASH_FAST. -/
  | resetRelease (mode : Fin 4) (role fast : Bool)
  /-- PLL_LOCK (R496): A started or restarted PLL achieves lock, its units run, and on a second attempt RELOCK_OK is counted and logged. -/
  | pllLock (n : Fin 8)
  /-- LAUNCH_TIME_REACHED (R233): The launch time of a queued frame or pending CAN buffer, less its lead, is reached and it becomes eligible on an idle output or bus. With the lead of its medium in ns (R233). -/
  | launchTimeReached (target : LaunchAt) (lead : Nat)
  /-- CREDIT_RECOVERED (R115): The credit of a shaped class rises to 0 and the class becomes eligible at an idle output. -/
  | creditRecovered (p : Fin 17) (cls : Fin 8)
  /-- HB_OUT_TOGGLE (R281): HB_OUT changes level at every rising edge of the device's own 32.768 kHz clock while the pair unit runs. -/
  | hbOutToggle
  /-- POWER_ENTRY_COMPLETE (R502): The steps of entry into DOZE or SLEEP end within 20 µs and PWR_STS.STATE leaves ENTERING. -/
  | powerEntryComplete
  /-- MAIN_RAIL_RETURN (R561): VDDIO_33 rises to 2.90 V or more and the AON island switches back from VBAT to VDDIO_33. -/
  | mainRailReturn
  /-- LSE_RETURN (R498): The 32.768 kHz clock runs again after a loss, so the seconds counter and HB_OUT resume and LSE_OK is set. -/
  | lseReturn
  deriving DecidableEq, Repr

end Sys2Proof
end

