-- ==== Sys2Proof/Machine/RegMap.lean ====
section
/-!
DEFINITION. The register map of BAR0: one `RegId` for each register (or array of registers) of the spec's
register tables, where its words lie, their fields with their access classes (Table 00-5) and the values a
write may carry (R12), and their reset values. Written from the tables of spec/00 to spec/17.
-/
namespace Sys2Proof.Machine

/-- Access classes of Table 00-5 (R11). -/
inductive Acc where
  | rw | ro | wo | w1c | w1s | rwl | rc
  deriving DecidableEq, Repr

/-- Which units a register belongs to, for R6 (absent units). -/
inductive Owner where
  | always | sp | port | core | eng | lslot | loop | pair | gch | steer | mem
  deriving DecidableEq, Repr

/-- One field: its bits, its access class and the encodings a write may carry (`[]` = every one). -/
structure Fld where
  hi : Nat
  lo : Nat
  acc : Acc
  ok : List (Nat × Nat)
  deriving DecidableEq, Repr

/-- Where the words of a register lie: `base + s1 * i + s2 * j` for `lo1 ≤ i < hi1` and `j < n2`. -/
structure RegDef where
  base : Nat
  s1 : Nat
  lo1 : Nat
  hi1 : Nat
  s2 : Nat
  n2 : Nat
  owner : Owner
  flds : List Fld
  deriving DecidableEq, Repr

/-- The registers of BAR0, under the spec's own names. -/
inductive RegId where
  | FEAT_DEV
  | FEAT_UNITS
  | FEAT_COUNTS
  | FEAT_CORE_MAP
  | FEAT_PORT_MAP
  | GLB_SETUP_LOCK
  | GLB_REJ_CNT
  | GLB_REJ_ADDR
  | GLB_REJ_DATA
  | GLB_CYC_CFG
  | GLB_CYC_PERIOD
  | GLB_CYC_OFS
  | GLB_CYC_STS
  | GLB_CYC_LATE_CNT
  | HST_CTL
  | HST_CMD
  | HST_STS
  | HST_DB_BASE_LO
  | HST_DB_BASE_HI
  | HST_SH_BASE_LO
  | HST_SH_BASE_HI
  | HST_POLL
  | HST_POLL_IDLE
  | HST_IDLE_POLLS
  | HST_EV_ROUTE
  | HST_EV_EN
  | HST_IRQ_MAP
  | HST_DMA_CNT
  | HST_RX_NOSTEER
  | HST_TXR_BASE_LO
  | HST_TXR_BASE_HI
  | HST_TXR_CFG
  | HST_TXR_CTL
  | HST_TXR_STS
  | HST_TXR_CNT
  | HST_RXR_BASE_LO
  | HST_RXR_BASE_HI
  | HST_RXR_CFG
  | HST_RXR_CTL
  | HST_RXR_STS
  | HST_RXR_CNT
  | HST_EVR_BASE_LO
  | HST_EVR_BASE_HI
  | HST_EVR_CFG
  | HST_EVR_CTL
  | HST_EVR_STS
  | HST_EVR_CNT
  | HST_EVR_MOD
  | HST_RX_STEER
  | CFL_CTL
  | CFL_BUF_STS
  | CFL_BUF_QE
  | CFL_TRAP
  | CFL_ADM_CFG
  | CFL_PORT_CFG
  | CFL_PORT_VLAN
  | CFL_PCP_MAP
  | CFL_PORT_FC
  | CFL_PORT_MAX
  | CFL_FDB_KEY_LO
  | CFL_FDB_KEY_HI
  | CFL_FDB_VAL
  | CFL_FDB_CMD
  | CFL_FDB_STS
  | CFL_FDB_RES0
  | CFL_FDB_RES1
  | CFL_FDB_RES2
  | CFL_FDB_AGE
  | CFL_VT_DATA0
  | CFL_VT_DATA1
  | CFL_VT_DATA2
  | CFL_VT_CMD
  | CFL_RED_CFG
  | CFL_RED_SEQ
  | CFL_RED_DUP_DROP
  | CFL_RED_NO_TAG
  | CFL_RED_WRONG_LAN
  | CFL_RED_OWN_DROP
  | CFL_RED_DD_EVICT
  | CFL_RED_NO_RCT_TX
  | CFL_OQ_CFG
  | CFL_OQ_SLOPE
  | CFL_OQ_CRED
  | CFL_OQ_STS
  | CFL_GCL_ADMIN_CFG
  | CFL_GCL_ADMIN_CYCLE
  | CFL_GCL_ADMIN_EXT
  | CFL_GCL_ADMIN_BASE_NS
  | CFL_GCL_ADMIN_BASE_SEC_LO
  | CFL_GCL_ADMIN_BASE_SEC_HI
  | CFL_GCL_CMD
  | CFL_GCL_STS
  | CFL_GCL_OPER_CYCLE
  | CFL_GCL_CHG_NS
  | CFL_GCL_CHG_SEC_LO
  | CFL_GCL_CHG_SEC_HI
  | CFL_FP_CFG
  | CFL_FP_HOLD
  | CFL_FP_STS
  | CFL_FP_ASSY_ERR
  | CFL_FP_SMD_ERR
  | CFL_FP_ASSY_OK
  | CFL_FP_FRAG_RX
  | CFL_FP_FRAG_TX
  | CFL_ICNT
  | CFL_QCNT
  | CFL_GCL_ENTRY_INT
  | CFL_GCL_ENTRY_OP
  | CFL_CT_CFG
  | CFL_RESIDUE_TO
  | CFL_RESIDUE_STS
  | CFL_EDDY_CFG
  | CFL_EDDY_STS
  | CFL_EDDY_CELLS
  | CFL_EDDY_FD
  | CFL_CT_CNT
  | CFL_CT_UNDERRUN
  | CFL_AGE_LIM
  | CFL_TW_CFG
  | CFL_TW_ETYPE
  | CFL_TW_SEQ
  | CFL_TW_STS
  | CFL_TW_CNT
  | CFL_TW_RULE0
  | CFL_TW_RULE1
  | CFL_TW_RULE2
  | CFL_TW_RULE3
  | MAC_CFG
  | MAC_MAXLEN
  | MAC_SA_LO
  | MAC_SA_HI
  | MAC_RX_FILT
  | MAC_PAUSE
  | MAC_STS
  | MAC_CMD
  | MAC_PLCA_CFG
  | MAC_PLCA_BURST
  | MAC_PLCA_STS
  | MAC_EEE_CFG
  | MAC_EEE_TW
  | MAC_EEE_STS
  | MAC_LINK_CFG
  | MAC_LINK_CNT
  | MAC_MDIO
  | MAC_MDIO_STS
  | MAC_UC_LO
  | MAC_UC_HI
  | MAC_HASH
  | MAC_CNT_LO
  | MAC_CNT_HI
  | TB_CFG
  | TB_STS
  | TB_CMD
  | TB_RATE
  | TB_NOW_NS
  | TB_NOW_FRAC
  | TB_NOW_SEC_LO
  | TB_NOW_SEC_HI
  | TB_ADJ_NS
  | TB_ADJ_FRAC
  | TB_ADJ_SEC_LO
  | TB_ADJ_SEC_HI
  | TB_GUARD
  | TB_LAUNCH_CFG
  | TB_SLEW_REM_NS
  | TB_SERVE_OFS_NS
  | TB_SNAP_NS
  | TB_SNAP_FRAC
  | TB_SNAP_SEC_LO
  | TB_SNAP_SEC_HI
  | TB_SNAP_OFS_NS
  | TB_SNAP_OFS_FRAC
  | TB_CNT
  | TB_LATE_CNT
  | TB_MISS_CNT
  | TB_CAP_CFG
  | TB_CAP_NS
  | TB_CAP_FRAC
  | TB_CAP_SEC_LO
  | TB_CAP_SEC_HI
  | TB_CAP_STS
  | TB_PLS_CFG
  | TB_PLS_START_NS
  | TB_PLS_START_SEC_LO
  | TB_PLS_START_SEC_HI
  | TB_PLS_PERIOD
  | TB_PLS_WIDTH
  | TB_PLS_STS
  | TB_CAL_RX
  | TB_CAL_TX
  | TB_CAL_CAN
  | TB_CAL_GYS_RX
  | TB_CAL_GYS_TX
  | GYS_CFG
  | GYS_CYCLE
  | GYS_TIMING
  | GYS_DLY_INIT
  | GYS_STS
  | GYS_NOW_CYC
  | GYS_NOW_OFS
  | GYS_RATE
  | GYS_OFFSET
  | GYS_CS_NS
  | GYS_CNT
  | GYS_GW_CNT
  | GYS_CH_CFG
  | GYS_CH_CMD
  | GYS_CH_STS
  | GYS_CH_DLY
  | GYS_CH_CNT
  | GYS_SLOT_T
  | GYS_SLOT_D
  | GYS_EMPTY
  | PAIR_CFG
  | PAIR_HOLDOFF
  | PAIR_CMD
  | PAIR_STS
  | PAIR_EPOCH
  | PAIR_SNAP
  | PAIR_PORT_GATE
  | PAIR_OUT_GATE
  | PAIR_TB_CFG
  | PAIR_STAGE
  | PAIR_HB_STS
  | PAIR_PARTNER_EPOCH
  | PAIR_TB_DIFF
  | PAIR_CNT
  | PAIR_MREG_BASE
  | PAIR_MREG_LEN
  | ENG_CFG
  | ENG_BIND
  | ENG_BIND_AUX
  | ENG_TB_PERM
  | ENG_CMD
  | ENG_STS
  | ENG_HALT_CAUSE
  | ENG_HALT_PC
  | ENG_HALT_ADDR
  | ENG_CNT
  | ENG_RESTART_WIN
  | ENG_FQ_RXBASE
  | ENG_FQ_RXGEO
  | ENG_FQ_CNT
  | ENG_FQ_TXCNT
  | ENG_CORE_CMD
  | ENG_CORE_STS
  | ENG_FQ_ETYPE
  | ENG_FQ_STEER
  | ENG_FQ_NOSTEER
  | ENG_MIG_STS
  | ENG_LOCK_FORCE
  | ENG_LOCK_CNT
  | MBX_CFG
  | MBX_HOST_PTR
  | MBX_HOST_RX_LO
  | MBX_HOST_RX_HI
  | MBX_HOST_ACK_LO
  | MBX_HOST_ACK_HI
  | MBX_STS
  | MBX_PTR
  | MBX_INFO
  | MBX_CMD
  | RIL_SYNC_LO
  | RIL_SYNC_CMD
  | RIL_GRP_CMD
  | RIL_GRP_STS
  | RIL_PIN
  | RIL_ECFG
  | RIL_DIV
  | RIL_CMP_VAL
  | RIL_CMP_MASK
  | RIL_CTL
  | RIL_STS
  | RIL_SR
  | RIL_CTR
  | RIL_TS_NS
  | RIL_TS_FRAC
  | RIL_CNT
  | RIL_LAST
  | RIL_SLOT
  | RIL_PROG
  | CAN_CFG
  | CAN_NBT
  | CAN_DBT
  | CAN_TDC
  | CAN_ACC
  | CAN_BOFF
  | CAN_XCH_CFG
  | CAN_XCH_BASE
  | CAN_CMD
  | CAN_STS
  | CAN_ECNT
  | CAN_TDC_STS
  | CAN_TXREQ
  | CAN_TXCAN
  | CAN_TXPEND
  | CAN_RXF_STS
  | CAN_RXF_ACK
  | CAN_EVF_STS
  | CAN_EVF_ACK
  | CAN_HP_STS
  | CAN_HP_ACK
  | CAN_RAM_PAGE
  | CAN_CNT
  | CAN_RAM_WIN
  | LOOP_SCFG
  | LOOP_IN
  | LOOP_OUT
  | LOOP_AGE
  | LOOP_OPT
  | LOOP_MODE
  | LOOP_MAN
  | LOOP_KI
  | LOOP_KD
  | LOOP_KF
  | LOOP_IMIN
  | LOOP_IMAX
  | LOOP_UMIN
  | LOOP_UMAX
  | LOOP_RMAX
  | LOOP_FR_X0
  | LOOP_VDB
  | LOOP_CG_X0
  | LOOP_SSTS
  | LOOP_I_ST
  | LOOP_D_ST
  | LOOP_U_ST
  | LOOP_SAMPLE_SEQ
  | LOOP_SCNT
  | LOOP_GAIN
  | LOOP_FRIC
  | LOOP_COG
  | LOOP_CFG
  | LOOP_COEF_SEQ
  | LOOP_PCMD
  | LOOP_PCMD_STS
  | LOOP_STS
  | LOOP_CNT
  | BOOT_IMG_CMD
  | BOOT_IMG_STS
  | BOOT_IMG_VER
  | CLK_STS
  | CLK_CFG
  | CLK_CNT
  | PWR_CMD
  | PWR_STS
  | PWR_WAKE_EN
  | PWR_WAKE_PIN
  | PWR_SEC
  | PWR_ALARM
  | PWR_CNT
  | MEM_TOKEN_STS
  | MEM_TOKEN_CNT
  | MEM_BANK_CMD
  | MEM_BANK_RES
  | MEM_BT_CFG
  | MEM_BT_STS
  | MEM_BT_CMD
  | MEM_BT_CNT
  | MEM_REP_CFG
  | MEM_ATOM_ADDR
  | MEM_ATOM_DATA
  | MEM_ATOM_CMD
  | MEM_ATOM_RES
  | MEM_MIRROR_WREJ
  | MEM_ECC_CNT
  | MEM_UNCORR_CNT
  | MEM_OFF_ACC
  | MEM_BANK_STS
  | MEM_SPARE
  | MEM_LOCK
  | TPH_STS
  | TPH_TOTAL
  | TPH_FREEZE_SEQ
  | TPH_CMD
  | TPH_PAGE
  | TPH_WDG_CFG
  | TPH_WDG_CLU
  | TPH_WDG_KICK
  | TPH_WDG_STS
  | TPH_WIN
  | GLB_RESET
  | BOOT_STS
  | BOOT_STRAP
  | BOOT_CMD
  | BOOT_ERR
  | BOOT_SET_VER
  | BOOT_TIME
  | BOOT_KEY_STS
  | BOOT_FUSE_HASH
  | BOOT_FUSE_STS
  | BOOT_FUSE_CMD
  | BOOT_FUSE_DATA
  deriving DecidableEq, Repr

/-- The layout of each register, from the spec's register tables. -/
def RegId.defn : RegId → RegDef
  -- spec/00_scope.md
  | .FEAT_DEV => ⟨0x800, 0x0, 0, 1, 0x0, 1, .always, [⟨31, 16, .ro, [(5640, 5640), (9234, 9234), (9238, 9238)]⟩, ⟨15, 12, .ro, [(1, 2)]⟩, ⟨11, 8, .ro, [(0, 9)]⟩]⟩
  | .FEAT_UNITS => ⟨0x804, 0x0, 0, 1, 0x0, 1, .always, [⟨6, 5, .ro, [(0, 2)]⟩, ⟨4, 4, .ro, []⟩, ⟨3, 3, .ro, []⟩, ⟨2, 2, .ro, []⟩, ⟨1, 1, .ro, []⟩, ⟨0, 0, .ro, []⟩]⟩
  | .FEAT_COUNTS => ⟨0x808, 0x0, 0, 1, 0x0, 1, .always, [⟨31, 24, .ro, []⟩, ⟨23, 16, .ro, []⟩, ⟨15, 8, .ro, []⟩, ⟨4, 0, .ro, []⟩]⟩
  | .FEAT_CORE_MAP => ⟨0x80C, 0x0, 0, 1, 0x0, 1, .always, [⟨15, 0, .ro, []⟩]⟩
  | .FEAT_PORT_MAP => ⟨0x810, 0x0, 0, 1, 0x0, 1, .always, [⟨23, 0, .ro, []⟩]⟩
  | .GLB_SETUP_LOCK => ⟨0x10, 0x0, 0, 1, 0x0, 1, .always, [⟨0, 0, .ro, []⟩]⟩
  | .GLB_REJ_CNT => ⟨0x14, 0x0, 0, 1, 0x0, 1, .always, [⟨31, 0, .rc, []⟩]⟩
  | .GLB_REJ_ADDR => ⟨0x18, 0x0, 0, 1, 0x0, 1, .always, [⟨31, 31, .ro, []⟩, ⟨30, 27, .ro, [(0, 5)]⟩, ⟨26, 26, .ro, []⟩, ⟨25, 0, .ro, []⟩]⟩
  | .GLB_REJ_DATA => ⟨0x1C, 0x0, 0, 1, 0x0, 1, .always, [⟨31, 0, .ro, []⟩]⟩
  -- spec/01_one_cycle.md
  | .GLB_CYC_CFG => ⟨0x20, 0x0, 0, 1, 0x0, 1, .always, [⟨26, 16, .rwl, [(1, 2047)]⟩, ⟨6, 4, .rwl, [(1, 7)]⟩, ⟨1, 0, .rwl, [(0, 2)]⟩]⟩
  | .GLB_CYC_PERIOD => ⟨0x24, 0x0, 0, 1, 0x0, 1, .always, [⟨26, 0, .rwl, [(31250, 65536000)]⟩]⟩
  | .GLB_CYC_OFS => ⟨0x28, 0x4, 0, 3, 0x0, 1, .always, [⟨26, 0, .rwl, []⟩]⟩
  | .GLB_CYC_STS => ⟨0x34, 0x0, 0, 1, 0x0, 1, .always, [⟨31, 16, .ro, []⟩, ⟨4, 4, .ro, []⟩, ⟨3, 3, .ro, []⟩, ⟨2, 2, .w1c, []⟩, ⟨1, 1, .w1c, []⟩, ⟨0, 0, .ro, []⟩]⟩
  | .GLB_CYC_LATE_CNT => ⟨0x38, 0x0, 0, 1, 0x0, 1, .always, [⟨31, 16, .rc, []⟩, ⟨15, 8, .rc, []⟩, ⟨7, 0, .rc, []⟩]⟩
  -- spec/02_host_rings.md
  | .HST_CTL => ⟨0x10000, 0x0, 0, 1, 0x0, 1, .always, [⟨0, 0, .rwl, []⟩]⟩
  | .HST_CMD => ⟨0x10004, 0x0, 0, 1, 0x0, 1, .always, [⟨2, 2, .wo, []⟩, ⟨1, 1, .wo, []⟩, ⟨0, 0, .wo, []⟩]⟩
  | .HST_STS => ⟨0x10008, 0x0, 0, 1, 0x0, 1, .always, [⟨31, 16, .ro, []⟩, ⟨3, 3, .ro, []⟩, ⟨2, 2, .ro, []⟩, ⟨1, 1, .ro, []⟩, ⟨0, 0, .ro, []⟩]⟩
  | .HST_DB_BASE_LO => ⟨0x10010, 0x0, 0, 1, 0x0, 1, .always, [⟨31, 12, .rwl, []⟩]⟩
  | .HST_DB_BASE_HI => ⟨0x10014, 0x0, 0, 1, 0x0, 1, .always, [⟨31, 0, .rwl, []⟩]⟩
  | .HST_SH_BASE_LO => ⟨0x10018, 0x0, 0, 1, 0x0, 1, .always, [⟨31, 12, .rwl, []⟩]⟩
  | .HST_SH_BASE_HI => ⟨0x1001C, 0x0, 0, 1, 0x0, 1, .always, [⟨31, 0, .rwl, []⟩]⟩
  | .HST_POLL => ⟨0x10020, 0x0, 0, 1, 0x0, 1, .always, [⟨19, 0, .rwl, [(1000, 1000000)]⟩]⟩
  | .HST_POLL_IDLE => ⟨0x10024, 0x0, 0, 1, 0x0, 1, .always, [⟨23, 0, .rwl, [(10000, 10000000)]⟩]⟩
  | .HST_IDLE_POLLS => ⟨0x10028, 0x0, 0, 1, 0x0, 1, .always, [⟨15, 0, .rwl, []⟩]⟩
  | .HST_EV_ROUTE => ⟨0x10030, 0x0, 0, 1, 0x0, 1, .always, [⟨31, 28, .rwl, []⟩, ⟨27, 24, .rwl, []⟩, ⟨23, 20, .rwl, []⟩, ⟨19, 16, .rwl, []⟩, ⟨15, 12, .rwl, []⟩, ⟨11, 8, .rwl, []⟩, ⟨7, 4, .rwl, []⟩, ⟨3, 0, .rwl, []⟩]⟩
  | .HST_EV_EN => ⟨0x10034, 0x0, 0, 1, 0x0, 1, .always, [⟨7, 0, .rwl, []⟩]⟩
  | .HST_IRQ_MAP => ⟨0x10038, 0x0, 0, 1, 0x0, 1, .always, [⟨7, 7, .rwl, []⟩, ⟨5, 0, .rwl, []⟩]⟩
  | .HST_DMA_CNT => ⟨0x10040, 0x0, 0, 1, 0x0, 1, .always, [⟨31, 16, .rc, []⟩, ⟨15, 0, .rc, []⟩]⟩
  | .HST_RX_NOSTEER => ⟨0x10044, 0x0, 0, 1, 0x0, 1, .always, [⟨31, 0, .rc, []⟩]⟩
  | .HST_TXR_BASE_LO => ⟨0x11000, 0x20, 0, 32, 0x0, 1, .always, [⟨31, 12, .rwl, []⟩]⟩
  | .HST_TXR_BASE_HI => ⟨0x11004, 0x20, 0, 32, 0x0, 1, .always, [⟨31, 0, .rwl, []⟩]⟩
  | .HST_TXR_CFG => ⟨0x11008, 0x20, 0, 32, 0x0, 1, .always, [⟨13, 11, .rwl, []⟩, ⟨10, 10, .rwl, []⟩, ⟨9, 6, .rwl, []⟩, ⟨5, 1, .rwl, [(4, 16)]⟩, ⟨0, 0, .rwl, []⟩]⟩
  | .HST_TXR_CTL => ⟨0x1100C, 0x20, 0, 32, 0x0, 1, .always, [⟨2, 2, .wo, []⟩, ⟨1, 1, .wo, []⟩, ⟨0, 0, .wo, []⟩]⟩
  | .HST_TXR_STS => ⟨0x11010, 0x20, 0, 32, 0x0, 1, .always, [⟨31, 16, .ro, []⟩, ⟨7, 4, .ro, [(0, 6)]⟩, ⟨1, 1, .ro, []⟩, ⟨0, 0, .ro, []⟩]⟩
  | .HST_TXR_CNT => ⟨0x11014, 0x20, 0, 32, 0x0, 1, .always, [⟨31, 16, .rc, []⟩, ⟨15, 0, .rc, []⟩]⟩
  | .HST_RXR_BASE_LO => ⟨0x12000, 0x20, 0, 32, 0x0, 1, .always, [⟨31, 12, .rwl, []⟩]⟩
  | .HST_RXR_BASE_HI => ⟨0x12004, 0x20, 0, 32, 0x0, 1, .always, [⟨31, 0, .rwl, []⟩]⟩
  | .HST_RXR_CFG => ⟨0x12008, 0x20, 0, 32, 0x0, 1, .always, [⟨13, 11, .rwl, [(0, 0)]⟩, ⟨10, 10, .rwl, []⟩, ⟨9, 6, .rwl, []⟩, ⟨5, 1, .rwl, [(4, 16)]⟩, ⟨0, 0, .rwl, []⟩]⟩
  | .HST_RXR_CTL => ⟨0x1200C, 0x20, 0, 32, 0x0, 1, .always, [⟨2, 2, .wo, []⟩, ⟨1, 1, .wo, []⟩, ⟨0, 0, .wo, []⟩]⟩
  | .HST_RXR_STS => ⟨0x12010, 0x20, 0, 32, 0x0, 1, .always, [⟨31, 16, .ro, []⟩, ⟨7, 4, .ro, [(0, 6)]⟩, ⟨1, 1, .ro, []⟩, ⟨0, 0, .ro, []⟩]⟩
  | .HST_RXR_CNT => ⟨0x12014, 0x20, 0, 32, 0x0, 1, .always, [⟨31, 16, .rc, []⟩, ⟨15, 0, .rc, []⟩]⟩
  | .HST_EVR_BASE_LO => ⟨0x13000, 0x20, 0, 16, 0x0, 1, .always, [⟨31, 12, .rwl, []⟩]⟩
  | .HST_EVR_BASE_HI => ⟨0x13004, 0x20, 0, 16, 0x0, 1, .always, [⟨31, 0, .rwl, []⟩]⟩
  | .HST_EVR_CFG => ⟨0x13008, 0x20, 0, 16, 0x0, 1, .always, [⟨19, 12, .rwl, [(1, 255)]⟩, ⟨11, 6, .rwl, []⟩, ⟨5, 1, .rwl, [(4, 16)]⟩, ⟨0, 0, .rwl, []⟩]⟩
  | .HST_EVR_CTL => ⟨0x1300C, 0x20, 0, 16, 0x0, 1, .always, [⟨2, 2, .wo, []⟩, ⟨1, 1, .wo, []⟩, ⟨0, 0, .wo, []⟩]⟩
  | .HST_EVR_STS => ⟨0x13010, 0x20, 0, 16, 0x0, 1, .always, [⟨31, 16, .ro, []⟩, ⟨7, 4, .ro, [(0, 6)]⟩, ⟨1, 1, .ro, []⟩, ⟨0, 0, .ro, []⟩]⟩
  | .HST_EVR_CNT => ⟨0x13014, 0x20, 0, 16, 0x0, 1, .always, [⟨31, 0, .rc, []⟩]⟩
  | .HST_EVR_MOD => ⟨0x13018, 0x20, 0, 16, 0x0, 1, .always, [⟨9, 0, .rwl, []⟩]⟩
  | .HST_RX_STEER => ⟨0x14000, 0x4, 0, 136, 0x0, 1, .steer, [⟨7, 7, .rwl, []⟩, ⟨4, 0, .rwl, []⟩]⟩
  -- spec/03_confluence_switch.md
  | .CFL_CTL => ⟨0x20000, 0x0, 0, 1, 0x0, 1, .always, [⟨1, 1, .rwl, []⟩, ⟨0, 0, .rwl, []⟩]⟩
  | .CFL_BUF_STS => ⟨0x20004, 0x0, 0, 1, 0x0, 1, .always, [⟨31, 16, .ro, []⟩, ⟨14, 0, .ro, []⟩]⟩
  | .CFL_BUF_QE => ⟨0x20008, 0x0, 0, 1, 0x0, 1, .always, [⟨15, 0, .ro, []⟩]⟩
  | .CFL_TRAP => ⟨0x20010, 0x0, 0, 1, 0x0, 1, .always, [⟨16, 16, .rwl, []⟩, ⟨15, 0, .rwl, []⟩]⟩
  | .CFL_ADM_CFG => ⟨0x20100, 0x0, 0, 1, 0x0, 1, .always, [⟨18, 16, .rwl, []⟩, ⟨15, 0, .rwl, [(0, 8192)]⟩]⟩
  | .CFL_PORT_CFG => ⟨0x20400, 0x20, 0, 17, 0x0, 1, .sp, [⟨9, 9, .rwl, []⟩, ⟨8, 8, .rwl, []⟩, ⟨7, 6, .rwl, [(0, 2)]⟩, ⟨5, 5, .rwl, []⟩, ⟨4, 4, .rwl, []⟩, ⟨3, 1, .rwl, []⟩]⟩
  | .CFL_PORT_VLAN => ⟨0x20404, 0x20, 0, 17, 0x0, 1, .sp, [⟨15, 14, .rwl, [(0, 2)]⟩, ⟨13, 13, .rwl, []⟩, ⟨11, 0, .rwl, [(1, 4094)]⟩]⟩
  | .CFL_PCP_MAP => ⟨0x20408, 0x20, 0, 17, 0x0, 1, .sp, [⟨23, 0, .rwl, []⟩]⟩
  | .CFL_PORT_FC => ⟨0x2040C, 0x20, 0, 17, 0x0, 1, .sp, [⟨31, 16, .rwl, [(0, 32767)]⟩, ⟨15, 0, .rwl, []⟩]⟩
  | .CFL_PORT_MAX => ⟨0x20410, 0x20, 14, 17, 0x0, 1, .always, [⟨13, 0, .rwl, [(64, 9216)]⟩]⟩
  | .CFL_FDB_KEY_LO => ⟨0x20800, 0x0, 0, 1, 0x0, 1, .always, [⟨31, 0, .rwl, []⟩]⟩
  | .CFL_FDB_KEY_HI => ⟨0x20804, 0x0, 0, 1, 0x0, 1, .always, [⟨27, 16, .rwl, []⟩, ⟨15, 0, .rwl, []⟩]⟩
  | .CFL_FDB_VAL => ⟨0x20808, 0x0, 0, 1, 0x0, 1, .always, [⟨16, 0, .rwl, []⟩]⟩
  | .CFL_FDB_CMD => ⟨0x2080C, 0x0, 0, 1, 0x0, 1, .always, [⟨29, 16, .wo, []⟩, ⟨14, 14, .wo, []⟩, ⟨13, 13, .wo, []⟩, ⟨12, 8, .wo, []⟩, ⟨3, 0, .wo, [(1, 5)]⟩]⟩
  | .CFL_FDB_STS => ⟨0x20810, 0x0, 0, 1, 0x0, 1, .always, [⟨31, 31, .ro, []⟩, ⟨30, 28, .ro, [(0, 2)]⟩, ⟨13, 0, .ro, []⟩]⟩
  | .CFL_FDB_RES0 => ⟨0x20814, 0x0, 0, 1, 0x0, 1, .always, [⟨31, 0, .ro, []⟩]⟩
  | .CFL_FDB_RES1 => ⟨0x20818, 0x0, 0, 1, 0x0, 1, .always, [⟨27, 16, .ro, []⟩, ⟨15, 0, .ro, []⟩]⟩
  | .CFL_FDB_RES2 => ⟨0x2081C, 0x0, 0, 1, 0x0, 1, .always, [⟨31, 31, .ro, []⟩, ⟨30, 30, .ro, []⟩, ⟨29, 27, .ro, []⟩, ⟨16, 0, .ro, []⟩]⟩
  | .CFL_FDB_AGE => ⟨0x20820, 0x0, 0, 1, 0x0, 1, .always, [⟨19, 0, .rwl, [(0, 0), (8, 1000000)]⟩]⟩
  | .CFL_VT_DATA0 => ⟨0x20900, 0x0, 0, 1, 0x0, 1, .always, [⟨16, 0, .rwl, []⟩]⟩
  | .CFL_VT_DATA1 => ⟨0x20904, 0x0, 0, 1, 0x0, 1, .always, [⟨16, 0, .rwl, []⟩]⟩
  | .CFL_VT_DATA2 => ⟨0x20908, 0x0, 0, 1, 0x0, 1, .always, [⟨31, 31, .rwl, []⟩, ⟨30, 30, .rwl, []⟩, ⟨11, 0, .rwl, []⟩]⟩
  | .CFL_VT_CMD => ⟨0x2090C, 0x0, 0, 1, 0x0, 1, .always, [⟨13, 12, .wo, [(1, 2)]⟩, ⟨11, 0, .wo, [(1, 4094)]⟩]⟩
  | .CFL_RED_CFG => ⟨0x20A00, 0x20, 0, 2, 0x0, 1, .always, [⟨31, 30, .rwl, [(0, 2)]⟩, ⟨29, 25, .rwl, []⟩, ⟨24, 20, .rwl, []⟩, ⟨19, 19, .rwl, []⟩, ⟨9, 0, .rwl, [(1, 1000)]⟩]⟩
  | .CFL_RED_SEQ => ⟨0x20A04, 0x20, 0, 2, 0x0, 1, .always, [⟨15, 0, .ro, []⟩]⟩
  | .CFL_RED_DUP_DROP => ⟨0x20A08, 0x20, 0, 2, 0x0, 1, .always, [⟨31, 0, .rc, []⟩]⟩
  | .CFL_RED_NO_TAG => ⟨0x20A0C, 0x20, 0, 2, 0x0, 1, .always, [⟨31, 0, .rc, []⟩]⟩
  | .CFL_RED_WRONG_LAN => ⟨0x20A10, 0x20, 0, 2, 0x0, 1, .always, [⟨31, 0, .rc, []⟩]⟩
  | .CFL_RED_OWN_DROP => ⟨0x20A14, 0x20, 0, 2, 0x0, 1, .always, [⟨31, 0, .rc, []⟩]⟩
  | .CFL_RED_DD_EVICT => ⟨0x20A18, 0x20, 0, 2, 0x0, 1, .always, [⟨31, 0, .rc, []⟩]⟩
  | .CFL_RED_NO_RCT_TX => ⟨0x20A1C, 0x20, 0, 2, 0x0, 1, .always, [⟨31, 0, .rc, []⟩]⟩
  | .CFL_OQ_CFG => ⟨0x21000, 0x100, 0, 17, 0x10, 8, .sp, [⟨16, 16, .rwl, []⟩, ⟨15, 0, .rwl, [(0, 32768)]⟩]⟩
  | .CFL_OQ_SLOPE => ⟨0x21004, 0x100, 0, 17, 0x10, 8, .sp, [⟨23, 0, .rwl, []⟩]⟩
  | .CFL_OQ_CRED => ⟨0x21008, 0x100, 0, 17, 0x10, 8, .sp, [⟨31, 16, .rwl, []⟩, ⟨15, 0, .rwl, []⟩]⟩
  | .CFL_OQ_STS => ⟨0x2100C, 0x100, 0, 17, 0x10, 8, .sp, [⟨31, 31, .ro, []⟩, ⟨30, 30, .ro, []⟩, ⟨15, 0, .ro, []⟩]⟩
  | .CFL_GCL_ADMIN_CFG => ⟨0x22800, 0x40, 0, 14, 0x0, 1, .sp, [⟨20, 12, .rw, [(1, 256)]⟩, ⟨10, 8, .rw, []⟩, ⟨0, 0, .rw, []⟩]⟩
  | .CFL_GCL_ADMIN_CYCLE => ⟨0x22804, 0x40, 0, 14, 0x0, 1, .sp, [⟨31, 0, .rw, [(1000, 1000000000)]⟩]⟩
  | .CFL_GCL_ADMIN_EXT => ⟨0x22808, 0x40, 0, 14, 0x0, 1, .sp, [⟨31, 0, .rw, []⟩]⟩
  | .CFL_GCL_ADMIN_BASE_NS => ⟨0x2280C, 0x40, 0, 14, 0x0, 1, .sp, [⟨29, 0, .rw, [(0, 999999999)]⟩]⟩
  | .CFL_GCL_ADMIN_BASE_SEC_LO => ⟨0x22810, 0x40, 0, 14, 0x0, 1, .sp, [⟨31, 0, .rw, []⟩]⟩
  | .CFL_GCL_ADMIN_BASE_SEC_HI => ⟨0x22814, 0x40, 0, 14, 0x0, 1, .sp, [⟨15, 0, .rw, []⟩]⟩
  | .CFL_GCL_CMD => ⟨0x22818, 0x40, 0, 14, 0x0, 1, .sp, [⟨1, 1, .wo, []⟩, ⟨0, 0, .wo, []⟩]⟩
  | .CFL_GCL_STS => ⟨0x2281C, 0x40, 0, 14, 0x0, 1, .sp, [⟨31, 31, .ro, []⟩, ⟨30, 30, .ro, []⟩, ⟨29, 29, .ro, []⟩, ⟨20, 12, .ro, []⟩, ⟨7, 0, .ro, []⟩]⟩
  | .CFL_GCL_OPER_CYCLE => ⟨0x22820, 0x40, 0, 14, 0x0, 1, .sp, [⟨31, 0, .ro, []⟩]⟩
  | .CFL_GCL_CHG_NS => ⟨0x22824, 0x40, 0, 14, 0x0, 1, .sp, [⟨29, 0, .ro, []⟩]⟩
  | .CFL_GCL_CHG_SEC_LO => ⟨0x22828, 0x40, 0, 14, 0x0, 1, .sp, [⟨31, 0, .ro, []⟩]⟩
  | .CFL_GCL_CHG_SEC_HI => ⟨0x2282C, 0x40, 0, 14, 0x0, 1, .sp, [⟨15, 0, .ro, []⟩]⟩
  | .CFL_FP_CFG => ⟨0x22C00, 0x20, 0, 10, 0x0, 1, .sp, [⟨23, 16, .rwl, []⟩, ⟨11, 10, .rwl, []⟩, ⟨9, 9, .rwl, []⟩, ⟨8, 8, .rwl, []⟩, ⟨7, 0, .rwl, [(1, 128)]⟩]⟩
  | .CFL_FP_HOLD => ⟨0x22C04, 0x20, 0, 10, 0x0, 1, .sp, [⟨15, 0, .rwl, []⟩]⟩
  | .CFL_FP_STS => ⟨0x22C08, 0x20, 0, 10, 0x0, 1, .sp, [⟨4, 4, .ro, []⟩, ⟨3, 3, .ro, []⟩, ⟨2, 0, .ro, [(0, 4)]⟩]⟩
  | .CFL_FP_ASSY_ERR => ⟨0x22C0C, 0x20, 0, 10, 0x0, 1, .sp, [⟨31, 0, .rc, []⟩]⟩
  | .CFL_FP_SMD_ERR => ⟨0x22C10, 0x20, 0, 10, 0x0, 1, .sp, [⟨31, 0, .rc, []⟩]⟩
  | .CFL_FP_ASSY_OK => ⟨0x22C14, 0x20, 0, 10, 0x0, 1, .sp, [⟨31, 0, .rc, []⟩]⟩
  | .CFL_FP_FRAG_RX => ⟨0x22C18, 0x20, 0, 10, 0x0, 1, .sp, [⟨31, 0, .rc, []⟩]⟩
  | .CFL_FP_FRAG_TX => ⟨0x22C1C, 0x20, 0, 10, 0x0, 1, .sp, [⟨31, 0, .rc, []⟩]⟩
  | .CFL_ICNT => ⟨0x23000, 0x40, 0, 17, 0x4, 10, .sp, [⟨31, 0, .rc, []⟩]⟩
  | .CFL_QCNT => ⟨0x24000, 0x200, 0, 17, 0x4, 128, .sp, [⟨31, 0, .rc, []⟩]⟩
  | .CFL_GCL_ENTRY_INT => ⟨0x28000, 0x800, 0, 14, 0x8, 256, .sp, [⟨31, 0, .rw, [(64, 1000000000)]⟩]⟩
  | .CFL_GCL_ENTRY_OP => ⟨0x28004, 0x800, 0, 14, 0x8, 256, .sp, [⟨9, 8, .rw, [(0, 2)]⟩, ⟨7, 0, .rw, []⟩]⟩
  -- spec/04_multicast_cut_through_ageing.md
  | .CFL_CT_CFG => ⟨0x26800, 0x0, 0, 1, 0x0, 1, .always, [⟨29, 16, .rwl, []⟩, ⟨13, 0, .rwl, []⟩]⟩
  | .CFL_RESIDUE_TO => ⟨0x26804, 0x0, 0, 1, 0x0, 1, .always, [⟨15, 0, .rwl, [(10, 60000)]⟩]⟩
  | .CFL_RESIDUE_STS => ⟨0x26808, 0x0, 0, 1, 0x0, 1, .always, [⟨9, 0, .ro, []⟩]⟩
  | .CFL_EDDY_CFG => ⟨0x26810, 0x0, 0, 1, 0x0, 1, .always, [⟨13, 4, .rwl, [(1, 1000)]⟩, ⟨0, 0, .rwl, []⟩]⟩
  | .CFL_EDDY_STS => ⟨0x26814, 0x0, 0, 1, 0x0, 1, .always, [⟨31, 16, .ro, []⟩, ⟨15, 8, .ro, []⟩, ⟨2, 2, .ro, []⟩, ⟨1, 1, .ro, []⟩, ⟨0, 0, .ro, []⟩]⟩
  | .CFL_EDDY_CELLS => ⟨0x26818, 0x0, 0, 1, 0x0, 1, .always, [⟨31, 0, .rc, []⟩]⟩
  | .CFL_EDDY_FD => ⟨0x2681C, 0x0, 0, 1, 0x0, 1, .always, [⟨31, 0, .rc, []⟩]⟩
  | .CFL_CT_CNT => ⟨0x26840, 0x8, 0, 14, 0x0, 1, .sp, [⟨31, 0, .rc, []⟩]⟩
  | .CFL_CT_UNDERRUN => ⟨0x26844, 0x8, 0, 14, 0x0, 1, .sp, [⟨31, 0, .rc, []⟩]⟩
  | .CFL_AGE_LIM => ⟨0x26C00, 0x20, 0, 17, 0x4, 8, .sp, [⟨23, 0, .rwl, [(0, 0), (100, 10000000)]⟩]⟩
  | .CFL_TW_CFG => ⟨0x27000, 0x40, 0, 4, 0x0, 1, .always, [⟨31, 31, .rwl, []⟩, ⟨30, 30, .rwl, []⟩, ⟨29, 29, .rwl, []⟩, ⟨26, 24, .rwl, []⟩, ⟨11, 8, .rwl, [(2, 9)]⟩, ⟨3, 0, .rwl, [(2, 9)]⟩]⟩
  | .CFL_TW_ETYPE => ⟨0x27004, 0x40, 0, 4, 0x0, 1, .always, [⟨31, 16, .rwl, []⟩, ⟨15, 0, .rwl, []⟩]⟩
  | .CFL_TW_SEQ => ⟨0x27008, 0x40, 0, 4, 0x0, 1, .always, [⟨31, 31, .rwl, []⟩, ⟨20, 3, .rwl, []⟩]⟩
  | .CFL_TW_STS => ⟨0x2700C, 0x40, 0, 4, 0x0, 1, .always, [⟨2, 2, .ro, []⟩, ⟨1, 1, .ro, []⟩, ⟨0, 0, .ro, []⟩]⟩
  | .CFL_TW_CNT => ⟨0x27010, 0x40, 0, 4, 0x4, 8, .always, [⟨31, 0, .rc, []⟩]⟩
  | .CFL_TW_RULE0 => ⟨0x27400, 0x200, 0, 4, 0x10, 32, .always, [⟨31, 31, .rwl, []⟩, ⟨30, 30, .rwl, []⟩, ⟨29, 27, .rwl, [(0, 4)]⟩, ⟨26, 16, .rwl, []⟩, ⟨15, 11, .rwl, []⟩, ⟨10, 0, .rwl, []⟩]⟩
  | .CFL_TW_RULE1 => ⟨0x27404, 0x200, 0, 4, 0x10, 32, .always, [⟨31, 0, .rwl, []⟩]⟩
  | .CFL_TW_RULE2 => ⟨0x27408, 0x200, 0, 4, 0x10, 32, .always, [⟨31, 0, .rwl, []⟩]⟩
  | .CFL_TW_RULE3 => ⟨0x2740C, 0x200, 0, 4, 0x10, 32, .always, [⟨31, 24, .rwl, []⟩, ⟨20, 0, .rwl, []⟩]⟩
  -- spec/05_ethernet_ports.md
  | .MAC_CFG => ⟨0x30000, 0x400, 0, 14, 0x0, 1, .port, [⟨14, 12, .rwl, []⟩, ⟨11, 11, .rwl, []⟩, ⟨10, 8, .rwl, [(0, 6)]⟩, ⟨7, 4, .rwl, [(0, 6)]⟩, ⟨0, 0, .rwl, []⟩]⟩
  | .MAC_MAXLEN => ⟨0x30004, 0x400, 0, 14, 0x0, 1, .port, [⟨13, 0, .rwl, [(64, 9216)]⟩]⟩
  | .MAC_SA_LO => ⟨0x30008, 0x400, 0, 14, 0x0, 1, .port, [⟨31, 0, .rwl, []⟩]⟩
  | .MAC_SA_HI => ⟨0x3000C, 0x400, 0, 14, 0x0, 1, .port, [⟨15, 0, .rwl, []⟩]⟩
  | .MAC_RX_FILT => ⟨0x30010, 0x400, 0, 14, 0x0, 1, .port, [⟨1, 1, .rwl, []⟩, ⟨0, 0, .rwl, []⟩]⟩
  | .MAC_PAUSE => ⟨0x30014, 0x400, 0, 10, 0x0, 1, .port, [⟨31, 16, .rwl, [(1, 65535)]⟩, ⟨1, 1, .rwl, []⟩, ⟨0, 0, .rwl, []⟩]⟩
  | .MAC_STS => ⟨0x30018, 0x400, 0, 14, 0x0, 1, .port, [⟨11, 11, .ro, []⟩, ⟨10, 10, .ro, []⟩, ⟨9, 9, .ro, []⟩, ⟨8, 8, .ro, []⟩, ⟨6, 6, .ro, []⟩, ⟨5, 5, .ro, []⟩, ⟨4, 4, .ro, []⟩, ⟨3, 1, .ro, [(0, 6)]⟩, ⟨0, 0, .ro, []⟩]⟩
  | .MAC_CMD => ⟨0x3001C, 0x400, 0, 14, 0x0, 1, .port, [⟨3, 3, .wo, []⟩, ⟨2, 2, .wo, []⟩, ⟨1, 1, .wo, []⟩, ⟨0, 0, .wo, []⟩]⟩
  | .MAC_PLCA_CFG => ⟨0x30020, 0x400, 10, 14, 0x0, 1, .port, [⟨31, 24, .rwl, [(1, 255)]⟩, ⟨21, 16, .rwl, [(1, 32)]⟩, ⟨12, 8, .rwl, []⟩, ⟨0, 0, .rwl, []⟩]⟩
  | .MAC_PLCA_BURST => ⟨0x30024, 0x400, 10, 14, 0x0, 1, .port, [⟨15, 8, .rwl, []⟩, ⟨7, 0, .rwl, []⟩]⟩
  | .MAC_PLCA_STS => ⟨0x30028, 0x400, 10, 14, 0x0, 1, .port, [⟨31, 16, .ro, []⟩, ⟨1, 1, .ro, []⟩, ⟨0, 0, .ro, []⟩]⟩
  | .MAC_EEE_CFG => ⟨0x30030, 0x400, 0, 10, 0x0, 1, .port, [⟨15, 8, .rwl, [(1, 255)]⟩, ⟨0, 0, .rwl, []⟩]⟩
  | .MAC_EEE_TW => ⟨0x30034, 0x400, 0, 10, 0x0, 1, .port, [⟨15, 0, .wo, [(1, 1000)]⟩]⟩
  | .MAC_EEE_STS => ⟨0x30038, 0x400, 0, 10, 0x0, 1, .port, [⟨31, 16, .ro, []⟩, ⟨7, 0, .ro, []⟩]⟩
  | .MAC_LINK_CFG => ⟨0x30040, 0x400, 0, 10, 0x0, 1, .port, [⟨8, 8, .rwl, []⟩, ⟨7, 0, .rwl, [(1, 255)]⟩]⟩
  | .MAC_LINK_CNT => ⟨0x30044, 0x400, 0, 10, 0x0, 1, .port, [⟨31, 16, .rc, []⟩, ⟨15, 0, .rc, []⟩]⟩
  | .MAC_MDIO => ⟨0x30048, 0x400, 2, 10, 0x0, 1, .port, [⟨31, 30, .wo, [(1, 2)]⟩, ⟨29, 25, .wo, []⟩, ⟨24, 20, .wo, []⟩, ⟨15, 0, .wo, []⟩]⟩
  | .MAC_MDIO_STS => ⟨0x3004C, 0x400, 2, 10, 0x0, 1, .port, [⟨31, 31, .ro, []⟩, ⟨15, 0, .ro, []⟩]⟩
  | .MAC_UC_LO => ⟨0x30100, 0x400, 0, 14, 0x8, 32, .port, [⟨31, 0, .rwl, []⟩]⟩
  | .MAC_UC_HI => ⟨0x30104, 0x400, 0, 14, 0x8, 32, .port, [⟨31, 31, .rwl, []⟩, ⟨15, 0, .rwl, []⟩]⟩
  | .MAC_HASH => ⟨0x30200, 0x400, 0, 14, 0x4, 16, .port, [⟨31, 0, .rwl, []⟩]⟩
  | .MAC_CNT_LO => ⟨0x30280, 0x400, 0, 14, 0x8, 35, .port, [⟨31, 0, .ro, []⟩]⟩
  | .MAC_CNT_HI => ⟨0x30284, 0x400, 0, 14, 0x8, 35, .port, [⟨31, 0, .ro, []⟩]⟩
  -- spec/06_time_bases.md
  | .TB_CFG => ⟨0x40000, 0x100, 0, 8, 0x0, 1, .always, [⟨29, 20, .rwl, [(1, 1000)]⟩, ⟨19, 10, .rwl, [(1, 1000)]⟩, ⟨7, 7, .rwl, []⟩, ⟨6, 4, .rwl, []⟩, ⟨3, 3, .rwl, []⟩, ⟨0, 0, .rwl, []⟩]⟩
  | .TB_STS => ⟨0x40004, 0x100, 0, 8, 0x0, 1, .always, [⟨31, 31, .w1c, []⟩, ⟨30, 30, .w1c, []⟩, ⟨29, 29, .w1c, []⟩, ⟨10, 8, .ro, []⟩, ⟨4, 4, .ro, []⟩, ⟨3, 3, .ro, []⟩, ⟨2, 2, .ro, []⟩, ⟨1, 1, .ro, []⟩, ⟨0, 0, .ro, []⟩]⟩
  | .TB_CMD => ⟨0x40008, 0x100, 0, 8, 0x0, 1, .always, [⟨3, 0, .wo, [(1, 8)]⟩]⟩
  | .TB_RATE => ⟨0x4000C, 0x100, 0, 8, 0x0, 1, .always, [⟨31, 0, .rw, [(0, 2147483), (4292819813, 4294967295)]⟩]⟩
  | .TB_NOW_NS => ⟨0x40010, 0x100, 0, 8, 0x0, 1, .always, [⟨29, 0, .ro, []⟩]⟩
  | .TB_NOW_FRAC => ⟨0x40014, 0x100, 0, 8, 0x0, 1, .always, [⟨15, 0, .ro, []⟩]⟩
  | .TB_NOW_SEC_LO => ⟨0x40018, 0x100, 0, 8, 0x0, 1, .always, [⟨31, 0, .ro, []⟩]⟩
  | .TB_NOW_SEC_HI => ⟨0x4001C, 0x100, 0, 8, 0x0, 1, .always, [⟨15, 0, .ro, []⟩]⟩
  | .TB_ADJ_NS => ⟨0x40020, 0x100, 0, 8, 0x0, 1, .always, [⟨31, 0, .rw, []⟩]⟩
  | .TB_ADJ_FRAC => ⟨0x40024, 0x100, 0, 8, 0x0, 1, .always, [⟨15, 0, .rw, []⟩]⟩
  | .TB_ADJ_SEC_LO => ⟨0x40028, 0x100, 0, 8, 0x0, 1, .always, [⟨31, 0, .rw, []⟩]⟩
  | .TB_ADJ_SEC_HI => ⟨0x4002C, 0x100, 0, 8, 0x0, 1, .always, [⟨15, 0, .rw, []⟩]⟩
  | .TB_GUARD => ⟨0x40030, 0x100, 0, 8, 0x0, 1, .always, [⟨19, 0, .rwl, [(10, 1000000)]⟩]⟩
  | .TB_LAUNCH_CFG => ⟨0x40034, 0x100, 0, 8, 0x0, 1, .always, [⟨31, 16, .rwl, []⟩, ⟨13, 0, .rwl, [(10, 10000)]⟩]⟩
  | .TB_SLEW_REM_NS => ⟨0x40038, 0x100, 0, 8, 0x0, 1, .always, [⟨31, 0, .ro, []⟩]⟩
  | .TB_SERVE_OFS_NS => ⟨0x4003C, 0x100, 0, 8, 0x0, 1, .always, [⟨31, 0, .ro, []⟩]⟩
  | .TB_SNAP_NS => ⟨0x40040, 0x100, 0, 8, 0x0, 1, .always, [⟨29, 0, .ro, []⟩]⟩
  | .TB_SNAP_FRAC => ⟨0x40044, 0x100, 0, 8, 0x0, 1, .always, [⟨15, 0, .ro, []⟩]⟩
  | .TB_SNAP_SEC_LO => ⟨0x40048, 0x100, 0, 8, 0x0, 1, .always, [⟨31, 0, .ro, []⟩]⟩
  | .TB_SNAP_SEC_HI => ⟨0x4004C, 0x100, 0, 8, 0x0, 1, .always, [⟨15, 0, .ro, []⟩]⟩
  | .TB_SNAP_OFS_NS => ⟨0x40050, 0x100, 0, 8, 0x0, 1, .always, [⟨31, 0, .ro, []⟩]⟩
  | .TB_SNAP_OFS_FRAC => ⟨0x40054, 0x100, 0, 8, 0x0, 1, .always, [⟨18, 16, .ro, []⟩, ⟨15, 0, .ro, []⟩]⟩
  | .TB_CNT => ⟨0x40058, 0x100, 0, 8, 0x0, 1, .always, [⟨31, 16, .rc, []⟩, ⟨15, 0, .rc, []⟩]⟩
  | .TB_LATE_CNT => ⟨0x4005C, 0x100, 0, 8, 0x0, 1, .always, [⟨31, 0, .rc, []⟩]⟩
  | .TB_MISS_CNT => ⟨0x40060, 0x100, 0, 8, 0x0, 1, .always, [⟨31, 16, .rc, []⟩, ⟨15, 0, .rc, []⟩]⟩
  | .TB_CAP_CFG => ⟨0x40080, 0x20, 0, 4, 0x0, 1, .always, [⟨31, 31, .rwl, []⟩, ⟨30, 29, .rwl, []⟩, ⟨26, 24, .rwl, []⟩, ⟨5, 0, .rwl, []⟩]⟩
  | .TB_CAP_NS => ⟨0x40084, 0x20, 0, 4, 0x0, 1, .always, [⟨31, 0, .ro, []⟩]⟩
  | .TB_CAP_FRAC => ⟨0x40088, 0x20, 0, 4, 0x0, 1, .always, [⟨15, 0, .ro, []⟩]⟩
  | .TB_CAP_SEC_LO => ⟨0x4008C, 0x20, 0, 4, 0x0, 1, .always, [⟨31, 0, .ro, []⟩]⟩
  | .TB_CAP_SEC_HI => ⟨0x40090, 0x20, 0, 4, 0x0, 1, .always, [⟨15, 0, .ro, []⟩]⟩
  | .TB_CAP_STS => ⟨0x40094, 0x20, 0, 4, 0x0, 1, .always, [⟨31, 16, .rc, []⟩, ⟨2, 0, .ro, []⟩]⟩
  | .TB_PLS_CFG => ⟨0x40180, 0x20, 0, 4, 0x0, 1, .always, [⟨31, 31, .rw, []⟩, ⟨30, 30, .rw, []⟩, ⟨26, 24, .rw, []⟩, ⟨5, 0, .rw, []⟩]⟩
  | .TB_PLS_START_NS => ⟨0x40184, 0x20, 0, 4, 0x0, 1, .always, [⟨29, 0, .rw, [(0, 999999999)]⟩]⟩
  | .TB_PLS_START_SEC_LO => ⟨0x40188, 0x20, 0, 4, 0x0, 1, .always, [⟨31, 0, .rw, []⟩]⟩
  | .TB_PLS_START_SEC_HI => ⟨0x4018C, 0x20, 0, 4, 0x0, 1, .always, [⟨15, 0, .rw, []⟩]⟩
  | .TB_PLS_PERIOD => ⟨0x40190, 0x20, 0, 4, 0x0, 1, .always, [⟨31, 0, .rw, [(100, 1000000000)]⟩]⟩
  | .TB_PLS_WIDTH => ⟨0x40194, 0x20, 0, 4, 0x0, 1, .always, [⟨31, 0, .rw, []⟩]⟩
  | .TB_PLS_STS => ⟨0x40198, 0x20, 0, 4, 0x0, 1, .always, [⟨1, 1, .ro, []⟩, ⟨0, 0, .ro, []⟩]⟩
  | .TB_CAL_RX => ⟨0x40280, 0x8, 0, 14, 0x0, 1, .port, [⟨23, 0, .rwl, []⟩]⟩
  | .TB_CAL_TX => ⟨0x40284, 0x8, 0, 14, 0x0, 1, .port, [⟨23, 0, .rwl, []⟩]⟩
  | .TB_CAL_CAN => ⟨0x402F0, 0x4, 0, 4, 0x0, 1, .always, [⟨23, 0, .rwl, []⟩]⟩
  | .TB_CAL_GYS_RX => ⟨0x40380, 0x8, 0, 2, 0x0, 1, .gch, [⟨23, 0, .rwl, []⟩]⟩
  | .TB_CAL_GYS_TX => ⟨0x40384, 0x8, 0, 2, 0x0, 1, .gch, [⟨23, 0, .rwl, []⟩]⟩
  -- spec/07_geyser_bus.md
  | .GYS_CFG => ⟨0x50000, 0x0, 0, 1, 0x0, 1, .always, [⟨31, 16, .rwl, []⟩, ⟨15, 15, .rwl, []⟩, ⟨14, 12, .rwl, []⟩, ⟨10, 8, .rwl, []⟩, ⟨4, 4, .rwl, []⟩, ⟨3, 0, .rwl, []⟩]⟩
  | .GYS_CYCLE => ⟨0x50004, 0x0, 0, 1, 0x0, 1, .always, [⟨22, 0, .rwl, [(31250, 8000000)]⟩]⟩
  | .GYS_TIMING => ⟨0x50008, 0x0, 0, 1, 0x0, 1, .always, [⟨25, 16, .rwl, [(1, 1000)]⟩, ⟨8, 0, .rwl, [(20, 500)]⟩]⟩
  | .GYS_DLY_INIT => ⟨0x5000C, 0x0, 0, 1, 0x0, 1, .always, [⟨15, 0, .rwl, [(0, 51200)]⟩]⟩
  | .GYS_STS => ⟨0x50010, 0x0, 0, 1, 0x0, 1, .always, [⟨2, 2, .ro, []⟩, ⟨1, 1, .ro, []⟩, ⟨0, 0, .ro, []⟩]⟩
  | .GYS_NOW_CYC => ⟨0x50014, 0x0, 0, 1, 0x0, 1, .always, [⟨31, 0, .ro, []⟩]⟩
  | .GYS_NOW_OFS => ⟨0x50018, 0x0, 0, 1, 0x0, 1, .always, [⟨22, 0, .ro, []⟩]⟩
  | .GYS_RATE => ⟨0x5001C, 0x0, 0, 1, 0x0, 1, .always, [⟨31, 0, .ro, []⟩]⟩
  | .GYS_OFFSET => ⟨0x50020, 0x0, 0, 1, 0x0, 1, .always, [⟨31, 0, .ro, []⟩]⟩
  | .GYS_CS_NS => ⟨0x50024, 0x0, 0, 1, 0x0, 1, .always, [⟨31, 0, .ro, []⟩]⟩
  | .GYS_CNT => ⟨0x50028, 0x0, 0, 1, 0x0, 1, .always, [⟨31, 24, .rc, []⟩, ⟨23, 16, .rc, []⟩, ⟨15, 8, .rc, []⟩, ⟨7, 0, .rc, []⟩]⟩
  | .GYS_GW_CNT => ⟨0x50040, 0x4, 0, 5, 0x0, 1, .always, [⟨31, 0, .rc, []⟩]⟩
  | .GYS_CH_CFG => ⟨0x51000, 0x1000, 0, 2, 0x0, 1, .gch, [⟨15, 15, .rwl, []⟩, ⟨13, 8, .rwl, []⟩, ⟨0, 0, .rwl, []⟩]⟩
  | .GYS_CH_CMD => ⟨0x51004, 0x1000, 0, 2, 0x0, 1, .gch, [⟨1, 1, .wo, []⟩, ⟨0, 0, .wo, []⟩]⟩
  | .GYS_CH_STS => ⟨0x51008, 0x1000, 0, 2, 0x0, 1, .gch, [⟨8, 8, .w1c, []⟩, ⟨7, 7, .ro, []⟩, ⟨2, 0, .ro, [(0, 6)]⟩]⟩
  | .GYS_CH_DLY => ⟨0x5100C, 0x1000, 0, 2, 0x0, 1, .gch, [⟨23, 16, .ro, []⟩, ⟨15, 0, .ro, []⟩]⟩
  | .GYS_CH_CNT => ⟨0x51020, 0x1000, 0, 2, 0x4, 13, .gch, [⟨31, 0, .rc, []⟩]⟩
  | .GYS_SLOT_T => ⟨0x51400, 0x1000, 0, 2, 0x8, 64, .gch, [⟨31, 31, .rwl, []⟩, ⟨30, 28, .rwl, []⟩, ⟨27, 24, .rwl, []⟩, ⟨22, 0, .rwl, []⟩]⟩
  | .GYS_SLOT_D => ⟨0x51404, 0x1000, 0, 2, 0x8, 64, .gch, [⟨29, 12, .rwl, []⟩, ⟨11, 0, .rwl, [(0, 2048)]⟩]⟩
  | .GYS_EMPTY => ⟨0x51800, 0x1000, 0, 2, 0x4, 64, .gch, [⟨15, 0, .rc, []⟩]⟩
  -- spec/08_redundant_pair.md
  | .PAIR_CFG => ⟨0x58000, 0x0, 0, 1, 0x0, 1, .pair, [⟨31, 24, .rwl, []⟩, ⟨15, 12, .rwl, []⟩, ⟨9, 8, .rwl, [(1, 2)]⟩, ⟨1, 1, .rwl, []⟩, ⟨0, 0, .rwl, []⟩]⟩
  | .PAIR_HOLDOFF => ⟨0x58004, 0x0, 0, 1, 0x0, 1, .pair, [⟨16, 0, .rwl, [(1, 86400)]⟩]⟩
  | .PAIR_CMD => ⟨0x58008, 0x0, 0, 1, 0x0, 1, .pair, [⟨2, 2, .wo, []⟩, ⟨1, 1, .wo, []⟩, ⟨0, 0, .wo, []⟩]⟩
  | .PAIR_STS => ⟨0x5800C, 0x0, 0, 1, 0x0, 1, .pair, [⟨31, 31, .w1c, []⟩, ⟨30, 30, .ro, []⟩, ⟨29, 29, .ro, []⟩, ⟨28, 28, .w1c, []⟩, ⟨11, 11, .ro, []⟩, ⟨10, 10, .ro, []⟩, ⟨9, 9, .ro, []⟩, ⟨8, 8, .ro, []⟩, ⟨7, 7, .ro, []⟩, ⟨6, 4, .ro, [(0, 4), (7, 7)]⟩, ⟨3, 3, .ro, []⟩, ⟨2, 0, .ro, [(0, 4)]⟩]⟩
  | .PAIR_EPOCH => ⟨0x58010, 0x0, 0, 1, 0x0, 1, .pair, [⟨31, 0, .ro, []⟩]⟩
  | .PAIR_SNAP => ⟨0x58014, 0x0, 0, 1, 0x0, 1, .pair, [⟨31, 16, .ro, []⟩, ⟨15, 0, .ro, []⟩]⟩
  | .PAIR_PORT_GATE => ⟨0x58018, 0x0, 0, 1, 0x0, 1, .pair, [⟨13, 0, .rwl, []⟩]⟩
  | .PAIR_OUT_GATE => ⟨0x5801C, 0x0, 0, 1, 0x0, 1, .pair, [⟨27, 16, .rwl, []⟩, ⟨3, 0, .rwl, []⟩]⟩
  | .PAIR_TB_CFG => ⟨0x58020, 0x0, 0, 1, 0x0, 1, .pair, [⟨8, 8, .rwl, []⟩, ⟨7, 1, .rwl, []⟩]⟩
  | .PAIR_STAGE => ⟨0x58024, 0x0, 0, 1, 0x0, 1, .pair, [⟨20, 12, .rwl, []⟩]⟩
  | .PAIR_HB_STS => ⟨0x58028, 0x0, 0, 1, 0x0, 1, .pair, [⟨31, 16, .ro, []⟩, ⟨7, 0, .ro, []⟩]⟩
  | .PAIR_PARTNER_EPOCH => ⟨0x5802C, 0x0, 0, 1, 0x0, 1, .pair, [⟨31, 0, .ro, []⟩]⟩
  | .PAIR_TB_DIFF => ⟨0x58040, 0x4, 1, 8, 0x0, 1, .pair, [⟨31, 0, .ro, []⟩]⟩
  | .PAIR_CNT => ⟨0x58080, 0x4, 0, 13, 0x0, 1, .pair, [⟨31, 0, .rc, []⟩]⟩
  | .PAIR_MREG_BASE => ⟨0x58100, 0x8, 0, 32, 0x0, 1, .pair, [⟨31, 31, .rwl, []⟩, ⟨20, 3, .rwl, []⟩]⟩
  | .PAIR_MREG_LEN => ⟨0x58104, 0x8, 0, 32, 0x0, 1, .pair, [⟨12, 0, .rwl, []⟩]⟩
  -- spec/10_engine_runtime.md
  | .ENG_CFG => ⟨0xB0000, 0x1000, 0, 16, 0x0, 1, .core, [⟨1, 1, .rwl, []⟩, ⟨0, 0, .rwl, []⟩]⟩
  | .ENG_BIND => ⟨0xB0004, 0x1000, 0, 16, 0x0, 1, .core, [⟨23, 0, .rwl, []⟩]⟩
  | .ENG_BIND_AUX => ⟨0xB0008, 0x1000, 0, 16, 0x0, 1, .core, [⟨5, 0, .rwl, []⟩]⟩
  | .ENG_TB_PERM => ⟨0xB000C, 0x1000, 0, 16, 0x0, 1, .core, [⟨7, 1, .rwl, []⟩]⟩
  | .ENG_CMD => ⟨0xB0010, 0x1000, 0, 16, 0x0, 1, .core, [⟨12, 8, .wo, [(0, 16)]⟩, ⟨3, 0, .wo, [(1, 5)]⟩]⟩
  | .ENG_STS => ⟨0xB0014, 0x1000, 0, 16, 0x0, 1, .core, [⟨12, 12, .ro, []⟩, ⟨11, 8, .ro, []⟩, ⟨4, 4, .ro, []⟩, ⟨3, 3, .ro, []⟩, ⟨2, 0, .ro, [(0, 4)]⟩]⟩
  | .ENG_HALT_CAUSE => ⟨0xB0018, 0x1000, 0, 16, 0x0, 1, .core, [⟨31, 0, .ro, []⟩]⟩
  | .ENG_HALT_PC => ⟨0xB001C, 0x1000, 0, 16, 0x0, 1, .core, [⟨31, 0, .ro, []⟩]⟩
  | .ENG_HALT_ADDR => ⟨0xB0020, 0x1000, 0, 16, 0x0, 1, .core, [⟨31, 0, .ro, []⟩]⟩
  | .ENG_CNT => ⟨0xB0024, 0x1000, 0, 16, 0x0, 1, .core, [⟨31, 16, .rc, []⟩, ⟨15, 8, .rc, []⟩, ⟨7, 0, .rc, []⟩]⟩
  | .ENG_RESTART_WIN => ⟨0xB0028, 0x1000, 0, 16, 0x0, 1, .core, [⟨13, 0, .rwl, [(1, 10000)]⟩]⟩
  | .ENG_FQ_RXBASE => ⟨0xB0030, 0x1000, 0, 16, 0x0, 1, .core, [⟨31, 3, .rwl, []⟩]⟩
  | .ENG_FQ_RXGEO => ⟨0xB0034, 0x1000, 0, 16, 0x0, 1, .core, [⟨22, 16, .rwl, [(0, 64)]⟩, ⟨7, 0, .rwl, []⟩]⟩
  | .ENG_FQ_CNT => ⟨0xB0038, 0x1000, 0, 16, 0x0, 1, .core, [⟨31, 16, .rc, []⟩, ⟨15, 8, .rc, []⟩, ⟨7, 0, .rc, []⟩]⟩
  | .ENG_FQ_TXCNT => ⟨0xB003C, 0x1000, 0, 16, 0x0, 1, .core, [⟨31, 16, .rc, []⟩, ⟨15, 0, .rc, []⟩]⟩
  | .ENG_CORE_CMD => ⟨0xB0400, 0x1000, 0, 16, 0x0, 1, .core, [⟨1, 0, .wo, [(1, 2)]⟩]⟩
  | .ENG_CORE_STS => ⟨0xB0404, 0x1000, 0, 16, 0x0, 1, .core, [⟨10, 10, .ro, []⟩, ⟨9, 9, .ro, []⟩, ⟨8, 8, .ro, []⟩, ⟨3, 0, .ro, []⟩]⟩
  | .ENG_FQ_ETYPE => ⟨0xB0800, 0x4, 0, 16, 0x0, 1, .always, [⟨31, 31, .rwl, []⟩, ⟨19, 16, .rwl, []⟩, ⟨15, 0, .rwl, []⟩]⟩
  | .ENG_FQ_STEER => ⟨0xB0900, 0x4, 0, 136, 0x0, 1, .steer, [⟨7, 7, .rwl, []⟩, ⟨3, 0, .rwl, []⟩]⟩
  | .ENG_FQ_NOSTEER => ⟨0xB0C00, 0x0, 0, 1, 0x0, 1, .always, [⟨31, 0, .rc, []⟩]⟩
  | .ENG_MIG_STS => ⟨0xB0C04, 0x0, 0, 1, 0x0, 1, .always, [⟨31, 28, .ro, [(0, 6)]⟩, ⟨23, 20, .ro, []⟩, ⟨19, 16, .ro, []⟩, ⟨15, 12, .ro, []⟩, ⟨11, 0, .ro, []⟩]⟩
  | .ENG_LOCK_FORCE => ⟨0xB0C08, 0x0, 0, 1, 0x0, 1, .always, [⟨5, 0, .wo, []⟩]⟩
  | .ENG_LOCK_CNT => ⟨0xB0C0C, 0x0, 0, 1, 0x0, 1, .always, [⟨31, 16, .rc, []⟩, ⟨15, 0, .rc, []⟩]⟩
  | .MBX_CFG => ⟨0x90000, 0x4, 0, 64, 0x0, 1, .always, [⟨31, 31, .rwl, []⟩, ⟨30, 30, .rwl, []⟩, ⟨12, 8, .rwl, [(0, 16)]⟩, ⟨4, 0, .rwl, [(0, 16)]⟩]⟩
  | .MBX_HOST_PTR => ⟨0x90100, 0x0, 0, 1, 0x0, 1, .always, [⟨31, 0, .rw, []⟩]⟩
  | .MBX_HOST_RX_LO => ⟨0x90110, 0x0, 0, 1, 0x0, 1, .always, [⟨31, 0, .ro, []⟩]⟩
  | .MBX_HOST_RX_HI => ⟨0x90114, 0x0, 0, 1, 0x0, 1, .always, [⟨31, 0, .ro, []⟩]⟩
  | .MBX_HOST_ACK_LO => ⟨0x90118, 0x0, 0, 1, 0x0, 1, .always, [⟨31, 0, .ro, []⟩]⟩
  | .MBX_HOST_ACK_HI => ⟨0x9011C, 0x0, 0, 1, 0x0, 1, .always, [⟨31, 0, .ro, []⟩]⟩
  | .MBX_STS => ⟨0x91000, 0x10, 0, 64, 0x0, 1, .always, [⟨31, 31, .ro, []⟩, ⟨30, 30, .ro, []⟩, ⟨29, 29, .ro, []⟩, ⟨28, 28, .ro, []⟩, ⟨23, 0, .ro, []⟩]⟩
  | .MBX_PTR => ⟨0x91004, 0x10, 0, 64, 0x0, 1, .always, [⟨31, 0, .ro, []⟩]⟩
  | .MBX_INFO => ⟨0x91008, 0x10, 0, 64, 0x0, 1, .always, [⟨31, 16, .ro, []⟩, ⟨15, 0, .ro, []⟩]⟩
  | .MBX_CMD => ⟨0x9100C, 0x10, 0, 64, 0x0, 1, .always, [⟨31, 16, .wo, []⟩, ⟨2, 0, .wo, [(1, 4)]⟩]⟩
  -- spec/11_rill_engines.md
  | .RIL_SYNC_LO => ⟨0x70000, 0x0, 0, 1, 0x0, 1, .always, [⟨31, 0, .wo, []⟩]⟩
  | .RIL_SYNC_CMD => ⟨0x70004, 0x0, 0, 1, 0x0, 1, .always, [⟨31, 30, .wo, [(1, 2)]⟩, ⟨15, 0, .wo, []⟩]⟩
  | .RIL_GRP_CMD => ⟨0x70010, 0x0, 0, 1, 0x0, 1, .always, [⟨31, 30, .wo, [(1, 2)]⟩, ⟨3, 0, .wo, [(0, 11)]⟩]⟩
  | .RIL_GRP_STS => ⟨0x70014, 0x0, 0, 1, 0x0, 1, .always, [⟨11, 0, .ro, []⟩]⟩
  | .RIL_PIN => ⟨0x70100, 0x4, 0, 64, 0x0, 1, .always, [⟨9, 8, .rwl, [(0, 2)]⟩, ⟨7, 0, .rwl, []⟩]⟩
  | .RIL_ECFG => ⟨0x71000, 0x40, 0, 48, 0x0, 1, .eng, [⟨31, 31, .rwl, []⟩, ⟨30, 30, .rwl, []⟩, ⟨29, 29, .rwl, []⟩, ⟨27, 25, .rwl, []⟩, ⟨24, 20, .rwl, []⟩, ⟨19, 17, .rwl, [(0, 4)]⟩, ⟨16, 14, .rwl, [(0, 4)]⟩, ⟨13, 4, .rwl, []⟩]⟩
  | .RIL_DIV => ⟨0x71004, 0x40, 0, 48, 0x0, 1, .eng, [⟨23, 8, .rwl, [(4, 65535)]⟩, ⟨7, 0, .rwl, []⟩]⟩
  | .RIL_CMP_VAL => ⟨0x71008, 0x40, 0, 48, 0x0, 1, .eng, [⟨31, 0, .rwl, []⟩]⟩
  | .RIL_CMP_MASK => ⟨0x7100C, 0x40, 0, 48, 0x0, 1, .eng, [⟨31, 0, .rwl, []⟩]⟩
  | .RIL_CTL => ⟨0x71010, 0x40, 0, 48, 0x0, 1, .eng, [⟨3, 3, .wo, []⟩, ⟨2, 2, .wo, []⟩, ⟨1, 1, .wo, []⟩, ⟨0, 0, .wo, []⟩]⟩
  | .RIL_STS => ⟨0x71014, 0x40, 0, 48, 0x0, 1, .eng, [⟨31, 31, .w1c, []⟩, ⟨30, 30, .w1c, []⟩, ⟨29, 29, .w1c, []⟩, ⟨28, 28, .w1c, []⟩, ⟨27, 27, .w1c, []⟩, ⟨20, 16, .ro, []⟩, ⟨15, 13, .ro, []⟩, ⟨12, 10, .ro, []⟩, ⟨9, 9, .ro, []⟩, ⟨8, 8, .ro, []⟩, ⟨7, 2, .ro, []⟩, ⟨1, 0, .ro, []⟩]⟩
  | .RIL_SR => ⟨0x71018, 0x40, 0, 48, 0x0, 1, .eng, [⟨31, 0, .ro, []⟩]⟩
  | .RIL_CTR => ⟨0x7101C, 0x40, 0, 48, 0x0, 1, .eng, [⟨15, 0, .ro, []⟩]⟩
  | .RIL_TS_NS => ⟨0x71020, 0x40, 0, 48, 0x0, 1, .eng, [⟨31, 0, .ro, []⟩]⟩
  | .RIL_TS_FRAC => ⟨0x71024, 0x40, 0, 48, 0x0, 1, .eng, [⟨31, 31, .ro, []⟩, ⟨15, 0, .ro, []⟩]⟩
  | .RIL_CNT => ⟨0x71028, 0x40, 0, 48, 0x0, 1, .eng, [⟨31, 24, .rc, []⟩, ⟨23, 16, .rc, []⟩, ⟨15, 8, .rc, []⟩, ⟨7, 0, .rc, []⟩]⟩
  | .RIL_LAST => ⟨0x7102C, 0x40, 0, 48, 0x0, 1, .eng, [⟨31, 0, .ro, []⟩]⟩
  | .RIL_SLOT => ⟨0x71030, 0x40, 0, 48, 0x4, 4, .eng, [⟨31, 31, .rwl, []⟩, ⟨30, 30, .rwl, []⟩, ⟨29, 29, .rwl, []⟩, ⟨28, 28, .rwl, []⟩, ⟨27, 27, .rwl, []⟩, ⟨5, 0, .rwl, []⟩]⟩
  | .RIL_PROG => ⟨0x74000, 0x80, 0, 48, 0x4, 32, .eng, [⟨31, 0, .rwl, []⟩]⟩
  -- spec/12_can_fd.md
  | .CAN_CFG => ⟨0x60000, 0x1000, 0, 4, 0x0, 1, .always, [⟨10, 8, .rwl, []⟩, ⟨6, 6, .rwl, []⟩, ⟨5, 5, .rwl, []⟩, ⟨4, 4, .rwl, []⟩, ⟨3, 3, .rwl, []⟩, ⟨2, 2, .rwl, []⟩, ⟨1, 1, .rwl, []⟩, ⟨0, 0, .rwl, []⟩]⟩
  | .CAN_NBT => ⟨0x60004, 0x1000, 0, 4, 0x0, 1, .always, [⟨31, 23, .rwl, []⟩, ⟨22, 15, .rwl, [(1, 255)]⟩, ⟨14, 8, .rwl, []⟩, ⟨6, 0, .rwl, []⟩]⟩
  | .CAN_DBT => ⟨0x60008, 0x1000, 0, 4, 0x0, 1, .always, [⟨28, 24, .rwl, []⟩, ⟨23, 23, .rwl, []⟩, ⟨20, 16, .rwl, []⟩, ⟨11, 8, .rwl, []⟩, ⟨3, 0, .rwl, []⟩]⟩
  | .CAN_TDC => ⟨0x6000C, 0x1000, 0, 4, 0x0, 1, .always, [⟨22, 16, .rwl, []⟩, ⟨6, 0, .rwl, []⟩]⟩
  | .CAN_ACC => ⟨0x60010, 0x1000, 0, 4, 0x0, 1, .always, [⟨27, 26, .rwl, [(0, 2)]⟩, ⟨25, 24, .rwl, [(0, 2)]⟩, ⟨17, 17, .rwl, []⟩, ⟨16, 16, .rwl, []⟩, ⟨13, 8, .rwl, [(0, 32)]⟩, ⟨6, 0, .rwl, [(0, 64)]⟩]⟩
  | .CAN_BOFF => ⟨0x60014, 0x1000, 0, 4, 0x0, 1, .always, [⟨13, 0, .rwl, [(0, 10000)]⟩]⟩
  | .CAN_XCH_CFG => ⟨0x60018, 0x1000, 0, 4, 0x0, 1, .always, [⟨31, 31, .rwl, []⟩, ⟨27, 26, .rwl, []⟩, ⟨23, 16, .rwl, []⟩, ⟨9, 0, .rwl, [(0, 1000)]⟩]⟩
  | .CAN_XCH_BASE => ⟨0x6001C, 0x1000, 0, 4, 0x0, 1, .always, [⟨20, 6, .rwl, []⟩]⟩
  | .CAN_CMD => ⟨0x60020, 0x1000, 0, 4, 0x0, 1, .always, [⟨2, 2, .wo, []⟩, ⟨1, 1, .wo, []⟩, ⟨0, 0, .wo, []⟩]⟩
  | .CAN_STS => ⟨0x60024, 0x1000, 0, 4, 0x0, 1, .always, [⟨5, 5, .ro, []⟩, ⟨4, 4, .ro, []⟩, ⟨3, 3, .ro, []⟩, ⟨2, 0, .ro, [(0, 6)]⟩]⟩
  | .CAN_ECNT => ⟨0x60028, 0x1000, 0, 4, 0x0, 1, .always, [⟨23, 16, .ro, []⟩, ⟨8, 0, .ro, []⟩]⟩
  | .CAN_TDC_STS => ⟨0x6002C, 0x1000, 0, 4, 0x0, 1, .always, [⟨6, 0, .ro, []⟩]⟩
  | .CAN_TXREQ => ⟨0x60030, 0x1000, 0, 4, 0x0, 1, .always, [⟨31, 0, .wo, []⟩]⟩
  | .CAN_TXCAN => ⟨0x60034, 0x1000, 0, 4, 0x0, 1, .always, [⟨31, 0, .wo, []⟩]⟩
  | .CAN_TXPEND => ⟨0x60038, 0x1000, 0, 4, 0x0, 1, .always, [⟨31, 0, .ro, []⟩]⟩
  | .CAN_RXF_STS => ⟨0x60040, 0x1000, 0, 4, 0x8, 2, .always, [⟨22, 16, .ro, []⟩, ⟨13, 8, .ro, []⟩]⟩
  | .CAN_RXF_ACK => ⟨0x60044, 0x1000, 0, 4, 0x8, 2, .always, [⟨5, 0, .wo, []⟩]⟩
  | .CAN_EVF_STS => ⟨0x60050, 0x1000, 0, 4, 0x0, 1, .always, [⟨21, 16, .ro, []⟩, ⟨12, 8, .ro, []⟩]⟩
  | .CAN_EVF_ACK => ⟨0x60054, 0x1000, 0, 4, 0x0, 1, .always, [⟨4, 0, .wo, []⟩]⟩
  | .CAN_HP_STS => ⟨0x60058, 0x1000, 0, 4, 0x0, 1, .always, [⟨1, 1, .ro, []⟩, ⟨0, 0, .ro, []⟩]⟩
  | .CAN_HP_ACK => ⟨0x6005C, 0x1000, 0, 4, 0x0, 1, .always, [⟨0, 0, .wo, []⟩]⟩
  | .CAN_RAM_PAGE => ⟨0x60060, 0x1000, 0, 4, 0x0, 1, .always, [⟨2, 0, .rw, []⟩]⟩
  | .CAN_CNT => ⟨0x60080, 0x1000, 0, 4, 0x4, 17, .always, [⟨31, 0, .rc, []⟩]⟩
  | .CAN_RAM_WIN => ⟨0x60800, 0x1000, 0, 4, 0x4, 512, .always, [⟨31, 0, .rw, []⟩]⟩
  -- spec/13_loop_engine.md
  | .LOOP_SCFG => ⟨0x80000, 0x80, 0, 64, 0x0, 1, .lslot, [⟨31, 31, .rwl, []⟩, ⟨30, 30, .rwl, []⟩, ⟨27, 24, .rwl, [(0, 8)]⟩, ⟨23, 16, .rwl, []⟩]⟩
  | .LOOP_IN => ⟨0x80004, 0x80, 0, 64, 0x0, 1, .lslot, [⟨20, 3, .rwl, []⟩]⟩
  | .LOOP_OUT => ⟨0x80008, 0x80, 0, 64, 0x0, 1, .lslot, [⟨20, 3, .rwl, []⟩]⟩
  | .LOOP_AGE => ⟨0x8000C, 0x80, 0, 64, 0x0, 1, .lslot, [⟨31, 24, .rwl, [(0, 254)]⟩, ⟨20, 2, .rwl, []⟩]⟩
  | .LOOP_OPT => ⟨0x80010, 0x80, 0, 64, 0x0, 1, .lslot, [⟨28, 24, .rw, [(0, 27)]⟩, ⟨20, 16, .rw, [(0, 25)]⟩, ⟨15, 15, .rw, []⟩, ⟨12, 8, .rw, [(0, 23)]⟩, ⟨7, 4, .rw, []⟩, ⟨3, 3, .rw, []⟩, ⟨2, 2, .rw, []⟩, ⟨1, 1, .rw, []⟩, ⟨0, 0, .rw, []⟩]⟩
  | .LOOP_MODE => ⟨0x80014, 0x80, 0, 64, 0x0, 1, .lslot, [⟨1, 0, .rw, []⟩]⟩
  | .LOOP_MAN => ⟨0x80018, 0x80, 0, 64, 0x0, 1, .lslot, [⟨31, 0, .rw, []⟩]⟩
  | .LOOP_KI => ⟨0x8001C, 0x80, 0, 64, 0x0, 1, .lslot, [⟨31, 0, .rw, []⟩]⟩
  | .LOOP_KD => ⟨0x80020, 0x80, 0, 64, 0x0, 1, .lslot, [⟨31, 0, .rw, []⟩]⟩
  | .LOOP_KF => ⟨0x80024, 0x80, 0, 64, 0x0, 1, .lslot, [⟨31, 0, .rw, [(0, 65536)]⟩]⟩
  | .LOOP_IMIN => ⟨0x80028, 0x80, 0, 64, 0x0, 1, .lslot, [⟨31, 0, .rw, []⟩]⟩
  | .LOOP_IMAX => ⟨0x8002C, 0x80, 0, 64, 0x0, 1, .lslot, [⟨31, 0, .rw, []⟩]⟩
  | .LOOP_UMIN => ⟨0x80030, 0x80, 0, 64, 0x0, 1, .lslot, [⟨31, 0, .rw, []⟩]⟩
  | .LOOP_UMAX => ⟨0x80034, 0x80, 0, 64, 0x0, 1, .lslot, [⟨31, 0, .rw, []⟩]⟩
  | .LOOP_RMAX => ⟨0x80038, 0x80, 0, 64, 0x0, 1, .lslot, [⟨31, 0, .rw, [(0, 2147483647)]⟩]⟩
  | .LOOP_FR_X0 => ⟨0x8003C, 0x80, 0, 64, 0x0, 1, .lslot, [⟨31, 0, .rw, []⟩]⟩
  | .LOOP_VDB => ⟨0x80040, 0x80, 0, 64, 0x0, 1, .lslot, [⟨31, 0, .rw, [(0, 2147483647)]⟩]⟩
  | .LOOP_CG_X0 => ⟨0x80044, 0x80, 0, 64, 0x0, 1, .lslot, [⟨31, 0, .rw, []⟩]⟩
  | .LOOP_SSTS => ⟨0x80050, 0x80, 0, 64, 0x0, 1, .lslot, [⟨31, 31, .w1c, []⟩, ⟨30, 30, .w1c, []⟩, ⟨29, 29, .ro, []⟩, ⟨28, 28, .ro, []⟩, ⟨27, 27, .ro, []⟩, ⟨26, 26, .ro, []⟩, ⟨25, 24, .ro, []⟩, ⟨1, 0, .ro, []⟩]⟩
  | .LOOP_I_ST => ⟨0x80054, 0x80, 0, 64, 0x0, 1, .lslot, [⟨31, 0, .ro, []⟩]⟩
  | .LOOP_D_ST => ⟨0x80058, 0x80, 0, 64, 0x0, 1, .lslot, [⟨31, 0, .ro, []⟩]⟩
  | .LOOP_U_ST => ⟨0x8005C, 0x80, 0, 64, 0x0, 1, .lslot, [⟨31, 0, .ro, []⟩]⟩
  | .LOOP_SAMPLE_SEQ => ⟨0x80060, 0x80, 0, 64, 0x0, 1, .lslot, [⟨31, 0, .ro, []⟩]⟩
  | .LOOP_SCNT => ⟨0x80064, 0x80, 0, 64, 0x0, 1, .lslot, [⟨31, 16, .rc, []⟩, ⟨15, 8, .rc, []⟩]⟩
  | .LOOP_GAIN => ⟨0x82000, 0x80, 0, 64, 0x4, 17, .lslot, [⟨31, 0, .rw, []⟩]⟩
  | .LOOP_FRIC => ⟨0x84000, 0x100, 0, 64, 0x4, 64, .lslot, [⟨31, 0, .rw, []⟩]⟩
  | .LOOP_COG => ⟨0x88000, 0x400, 0, 16, 0x4, 256, .loop, [⟨31, 0, .rw, []⟩]⟩
  | .LOOP_CFG => ⟨0x8C000, 0x0, 0, 1, 0x0, 1, .loop, [⟨0, 0, .rwl, []⟩]⟩
  | .LOOP_COEF_SEQ => ⟨0x8C004, 0x0, 0, 1, 0x0, 1, .loop, [⟨31, 0, .ro, []⟩]⟩
  | .LOOP_PCMD => ⟨0x8C008, 0x0, 0, 1, 0x0, 1, .loop, [⟨31, 31, .rwl, []⟩, ⟨20, 3, .rwl, []⟩]⟩
  | .LOOP_PCMD_STS => ⟨0x8C00C, 0x0, 0, 1, 0x0, 1, .loop, [⟨31, 24, .ro, []⟩]⟩
  | .LOOP_STS => ⟨0x8C010, 0x0, 0, 1, 0x0, 1, .loop, [⟨31, 16, .ro, []⟩, ⟨15, 15, .ro, []⟩, ⟨13, 0, .ro, []⟩]⟩
  | .LOOP_CNT => ⟨0x8C014, 0x0, 0, 1, 0x0, 1, .loop, [⟨31, 16, .rc, []⟩, ⟨15, 0, .rc, []⟩]⟩
  -- spec/14_profile_images.md
  | .BOOT_IMG_CMD => ⟨0x2100, 0x0, 0, 1, 0x0, 1, .always, [⟨31, 30, .wo, [(1, 1)]⟩, ⟨27, 24, .wo, []⟩, ⟨20, 12, .wo, []⟩]⟩
  | .BOOT_IMG_STS => ⟨0x2104, 0x0, 0, 1, 0x0, 1, .always, [⟨31, 31, .ro, []⟩, ⟨27, 24, .ro, []⟩, ⟨7, 0, .ro, [(0, 7)]⟩]⟩
  | .BOOT_IMG_VER => ⟨0x2140, 0x4, 0, 16, 0x0, 1, .core, [⟨31, 0, .ro, []⟩]⟩
  -- spec/15_memory_clocks_power.md
  | .CLK_STS => ⟨0x1000, 0x0, 0, 1, 0x0, 1, .always, [⟨17, 17, .ro, []⟩, ⟨16, 16, .ro, []⟩, ⟨15, 8, .ro, []⟩, ⟨7, 0, .ro, []⟩]⟩
  | .CLK_CFG => ⟨0x1004, 0x0, 0, 1, 0x0, 1, .always, [⟨7, 4, .rwl, []⟩]⟩
  | .CLK_CNT => ⟨0x1008, 0x0, 0, 1, 0x0, 1, .always, [⟨31, 16, .rc, []⟩, ⟨15, 0, .rc, []⟩]⟩
  | .PWR_CMD => ⟨0x1100, 0x0, 0, 1, 0x0, 1, .always, [⟨2, 0, .wo, [(1, 4)]⟩]⟩
  | .PWR_STS => ⟨0x1104, 0x0, 0, 1, 0x0, 1, .always, [⟨31, 31, .w1c, []⟩, ⟨22, 16, .ro, []⟩, ⟨10, 8, .ro, [(0, 0), (2, 4)]⟩, ⟨2, 0, .ro, [(0, 2)]⟩]⟩
  | .PWR_WAKE_EN => ⟨0x1108, 0x0, 0, 1, 0x0, 1, .always, [⟨6, 6, .rwl, []⟩, ⟨5, 5, .rwl, []⟩, ⟨4, 4, .rwl, []⟩, ⟨3, 3, .rwl, []⟩, ⟨2, 2, .rwl, []⟩, ⟨1, 1, .rwl, []⟩]⟩
  | .PWR_WAKE_PIN => ⟨0x110C, 0x0, 0, 1, 0x0, 1, .always, [⟨31, 31, .rwl, []⟩, ⟨30, 30, .rwl, []⟩, ⟨21, 16, .rwl, []⟩, ⟨15, 15, .rwl, []⟩, ⟨14, 14, .rwl, []⟩, ⟨5, 0, .rwl, []⟩]⟩
  | .PWR_SEC => ⟨0x1110, 0x0, 0, 1, 0x0, 1, .always, [⟨31, 0, .ro, []⟩]⟩
  | .PWR_ALARM => ⟨0x1114, 0x0, 0, 1, 0x0, 1, .always, [⟨31, 0, .rw, []⟩]⟩
  | .PWR_CNT => ⟨0x1118, 0x0, 0, 1, 0x0, 1, .always, [⟨31, 16, .rc, []⟩, ⟨15, 0, .rc, []⟩]⟩
  | .MEM_TOKEN_STS => ⟨0xA0000, 0x0, 0, 1, 0x0, 1, .always, [⟨31, 28, .ro, [(0, 6)]⟩, ⟨23, 20, .ro, []⟩]⟩
  | .MEM_TOKEN_CNT => ⟨0xA0004, 0x0, 0, 1, 0x0, 1, .always, [⟨31, 16, .rc, []⟩, ⟨15, 0, .rc, []⟩]⟩
  | .MEM_BANK_CMD => ⟨0xA0010, 0x0, 0, 1, 0x0, 1, .always, [⟨31, 28, .wo, [(1, 4)]⟩, ⟨5, 0, .wo, []⟩]⟩
  | .MEM_BANK_RES => ⟨0xA0014, 0x0, 0, 1, 0x0, 1, .always, [⟨31, 31, .ro, []⟩, ⟨30, 28, .ro, [(0, 3)]⟩, ⟨5, 0, .ro, []⟩]⟩
  | .MEM_BT_CFG => ⟨0xA0020, 0x0, 0, 1, 0x0, 1, .always, [⟨31, 31, .rwl, []⟩, ⟨25, 16, .rwl, [(10, 1000)]⟩, ⟨15, 0, .rwl, [(10, 10000)]⟩]⟩
  | .MEM_BT_STS => ⟨0xA0024, 0x0, 0, 1, 0x0, 1, .always, [⟨31, 16, .ro, []⟩, ⟨15, 15, .ro, []⟩, ⟨14, 14, .ro, []⟩, ⟨13, 8, .ro, []⟩, ⟨7, 0, .ro, []⟩]⟩
  | .MEM_BT_CMD => ⟨0xA0028, 0x0, 0, 1, 0x0, 1, .always, [⟨31, 30, .wo, [(1, 2)]⟩, ⟨13, 8, .wo, []⟩, ⟨7, 0, .wo, []⟩]⟩
  | .MEM_BT_CNT => ⟨0xA002C, 0x0, 0, 1, 0x0, 1, .always, [⟨31, 24, .rc, []⟩, ⟨23, 16, .rc, []⟩, ⟨15, 8, .rc, []⟩, ⟨7, 0, .rc, []⟩]⟩
  | .MEM_REP_CFG => ⟨0xA0030, 0x0, 0, 1, 0x0, 1, .always, [⟨15, 8, .rwl, [(1, 255)]⟩, ⟨7, 0, .rwl, [(2, 255)]⟩]⟩
  | .MEM_ATOM_ADDR => ⟨0xA0040, 0x0, 0, 1, 0x0, 1, .always, [⟨20, 2, .rw, []⟩]⟩
  | .MEM_ATOM_DATA => ⟨0xA0044, 0x0, 0, 1, 0x0, 1, .always, [⟨31, 0, .rw, []⟩]⟩
  | .MEM_ATOM_CMD => ⟨0xA0048, 0x0, 0, 1, 0x0, 1, .always, [⟨1, 0, .wo, [(1, 2)]⟩]⟩
  | .MEM_ATOM_RES => ⟨0xA004C, 0x0, 0, 1, 0x0, 1, .always, [⟨31, 0, .ro, []⟩]⟩
  | .MEM_MIRROR_WREJ => ⟨0xA0050, 0x0, 0, 1, 0x0, 1, .always, [⟨31, 0, .rc, []⟩]⟩
  | .MEM_ECC_CNT => ⟨0xA0054, 0x0, 0, 1, 0x0, 1, .always, [⟨31, 16, .rc, []⟩, ⟨15, 8, .rc, []⟩, ⟨7, 0, .rc, []⟩]⟩
  | .MEM_UNCORR_CNT => ⟨0xA0058, 0x0, 0, 1, 0x0, 1, .always, [⟨31, 16, .rc, []⟩, ⟨15, 0, .rc, []⟩]⟩
  | .MEM_OFF_ACC => ⟨0xA005C, 0x0, 0, 1, 0x0, 1, .always, [⟨31, 0, .rc, []⟩]⟩
  | .MEM_BANK_STS => ⟨0xA0100, 0x4, 0, 64, 0x0, 1, .mem, [⟨31, 31, .ro, []⟩, ⟨30, 28, .ro, [(0, 4)]⟩, ⟨27, 24, .ro, []⟩, ⟨8, 0, .ro, []⟩]⟩
  | .MEM_SPARE => ⟨0xA0400, 0x20, 0, 64, 0x4, 8, .mem, [⟨31, 31, .rwl, []⟩, ⟨7, 0, .rwl, []⟩]⟩
  | .MEM_LOCK => ⟨0xA0F00, 0x4, 0, 64, 0x0, 1, .always, [⟨31, 0, .rw, []⟩]⟩
  -- spec/16_faults_and_tephra.md
  | .TPH_STS => ⟨0x3000, 0x0, 0, 1, 0x0, 1, .always, [⟨31, 31, .ro, []⟩, ⟨30, 30, .ro, []⟩, ⟨29, 29, .w1c, []⟩, ⟨15, 0, .ro, []⟩]⟩
  | .TPH_TOTAL => ⟨0x3004, 0x0, 0, 1, 0x0, 1, .always, [⟨31, 0, .ro, []⟩]⟩
  | .TPH_FREEZE_SEQ => ⟨0x3008, 0x0, 0, 1, 0x0, 1, .always, [⟨31, 0, .ro, []⟩]⟩
  | .TPH_CMD => ⟨0x300C, 0x0, 0, 1, 0x0, 1, .always, [⟨2, 2, .wo, []⟩, ⟨1, 1, .wo, []⟩, ⟨0, 0, .wo, []⟩]⟩
  | .TPH_PAGE => ⟨0x3010, 0x0, 0, 1, 0x0, 1, .always, [⟨4, 0, .rw, []⟩]⟩
  | .TPH_WDG_CFG => ⟨0x3020, 0x0, 0, 1, 0x0, 1, .always, [⟨31, 31, .rwl, []⟩, ⟨30, 30, .rwl, []⟩, ⟨29, 29, .rwl, []⟩, ⟨13, 0, .rwl, [(10, 10000)]⟩]⟩
  | .TPH_WDG_CLU => ⟨0x3024, 0x0, 0, 1, 0x0, 1, .always, [⟨15, 0, .rwl, []⟩]⟩
  | .TPH_WDG_KICK => ⟨0x3028, 0x0, 0, 1, 0x0, 1, .always, [⟨7, 0, .wo, [(90, 90)]⟩]⟩
  | .TPH_WDG_STS => ⟨0x302C, 0x0, 0, 1, 0x0, 1, .always, [⟨31, 31, .ro, []⟩, ⟨30, 30, .ro, []⟩, ⟨16, 16, .ro, []⟩, ⟨15, 0, .ro, []⟩]⟩
  | .TPH_WIN => ⟨0x3800, 0x4, 0, 512, 0x0, 1, .always, [⟨31, 0, .ro, []⟩]⟩
  -- spec/17_start_up_and_signing.md
  | .GLB_RESET => ⟨0x40, 0x0, 0, 1, 0x0, 1, .always, [⟨7, 0, .wo, [(165, 165)]⟩]⟩
  | .BOOT_STS => ⟨0x2000, 0x0, 0, 1, 0x0, 1, .always, [⟨31, 31, .ro, []⟩, ⟨30, 30, .ro, []⟩, ⟨29, 29, .ro, []⟩, ⟨28, 28, .ro, []⟩, ⟨2, 0, .ro, [(0, 3)]⟩]⟩
  | .BOOT_STRAP => ⟨0x2004, 0x0, 0, 1, 0x0, 1, .always, [⟨3, 3, .ro, []⟩, ⟨2, 2, .ro, []⟩, ⟨1, 0, .ro, []⟩]⟩
  | .BOOT_CMD => ⟨0x2008, 0x0, 0, 1, 0x0, 1, .always, [⟨31, 28, .wo, [(1, 3)]⟩, ⟨20, 8, .wo, []⟩]⟩
  | .BOOT_ERR => ⟨0x200C, 0x0, 0, 1, 0x0, 1, .always, [⟨31, 31, .ro, []⟩, ⟨30, 28, .ro, [(0, 3)]⟩, ⟨23, 12, .ro, []⟩, ⟨7, 0, .ro, [(0, 7)]⟩]⟩
  | .BOOT_SET_VER => ⟨0x2010, 0x0, 0, 1, 0x0, 1, .always, [⟨31, 0, .ro, []⟩]⟩
  | .BOOT_TIME => ⟨0x2014, 0x0, 0, 1, 0x0, 1, .always, [⟨31, 0, .ro, []⟩]⟩
  | .BOOT_KEY_STS => ⟨0x2020, 0x0, 0, 1, 0x0, 1, .always, [⟨3, 0, .ro, []⟩]⟩
  | .BOOT_FUSE_HASH => ⟨0x2200, 0x20, 0, 4, 0x4, 8, .always, [⟨31, 0, .ro, []⟩]⟩
  | .BOOT_FUSE_STS => ⟨0x2280, 0x0, 0, 1, 0x0, 1, .always, [⟨31, 31, .ro, []⟩, ⟨7, 4, .ro, []⟩, ⟨3, 0, .ro, []⟩]⟩
  | .BOOT_FUSE_CMD => ⟨0x2284, 0x0, 0, 1, 0x0, 1, .always, [⟨31, 28, .wo, [(1, 2)]⟩, ⟨9, 8, .wo, []⟩, ⟨7, 0, .wo, []⟩]⟩
  | .BOOT_FUSE_DATA => ⟨0x22A0, 0x4, 0, 8, 0x0, 1, .always, [⟨31, 0, .rwl, []⟩]⟩

/-- The value a held register has at reset; the part of a register that is computed from the state behind it is 0 here. -/
def RegId.resetValue (r : RegId) (i : Nat) : Word :=
  match r with
  | .GLB_CYC_CFG => 0x10010#32
  | .GLB_CYC_PERIOD => 0x3D090#32
  | .GLB_CYC_OFS => BitVec.ofNat 32 (if i = 0 then 0 else if i = 1 then 0x4E20 else 0x1F4)
  | .HST_POLL => 0x7D0#32
  | .HST_POLL_IDLE => 0x186A0#32
  | .HST_IDLE_POLLS => 0x3E8#32
  | .HST_EV_EN => 0x1#32
  | .HST_IRQ_MAP => 0xBF#32
  | .HST_TXR_CFG => 0x8#32
  | .HST_RXR_CFG => 0x8#32
  | .HST_EVR_CFG => BitVec.ofNat 32 (0x1008 + 0x40 * i)
  | .HST_RX_STEER => 0x80#32
  | .CFL_TRAP => 0xFFFF#32
  | .CFL_ADM_CFG => 0x60400#32
  | .CFL_PORT_CFG => 0x3B0#32
  | .CFL_PORT_VLAN => 0x2001#32
  | .CFL_PCP_MAP => 0xFAC681#32
  | .CFL_PORT_MAX => 0x5F2#32
  | .CFL_FDB_AGE => 0x12C#32
  | .CFL_RED_CFG => 0x2080190#32
  | .CFL_OQ_CFG => 0x800#32
  | .CFL_OQ_CRED => 0x5F205F2#32
  | .CFL_GCL_ADMIN_CFG => 0x1100#32
  | .CFL_GCL_ADMIN_CYCLE => 0xF4240#32
  | .CFL_FP_CFG => 0xA#32
  | .CFL_CT_CFG => 0x3FFF3FFF#32
  | .CFL_RESIDUE_TO => 0x3E8#32
  | .CFL_EDDY_CFG => 0xA1#32
  | .CFL_AGE_LIM => 0x7A120#32
  | .CFL_TW_CFG => 0x302#32
  | .MAC_CFG => BitVec.ofNat 32 (if i < 2 then 0x10 else if i < 10 then 0 else 0x860)
  | .MAC_MAXLEN => 0x5EE#32
  | .MAC_RX_FILT => 0x2#32
  | .MAC_PAUSE => 0xFFFF0001#32
  | .MAC_PLCA_CFG => 0x20080000#32
  | .MAC_PLCA_BURST => 0x80#32
  | .MAC_EEE_CFG => 0x1400#32
  | .MAC_LINK_CFG => 0x10A#32
  | .TB_CFG => 0x6419000#32
  | .TB_GUARD => 0x3E8#32
  | .TB_LAUNCH_CFG => 0x64#32
  | .TB_PLS_PERIOD => 0x3B9ACA00#32
  | .TB_PLS_WIDTH => 0x5F5E100#32
  | .GYS_CFG => 0x110#32
  | .GYS_CYCLE => 0x7A12#32
  | .GYS_TIMING => 0x140064#32
  | .GYS_DLY_INIT => 0xA00#32
  | .PAIR_CFG => 0x102#32
  | .PAIR_HOLDOFF => 0xA#32
  | .ENG_CFG => 0x2#32
  | .ENG_RESTART_WIN => 0x64#32
  | .ENG_FQ_STEER => 0x80#32
  | .RIL_PIN => 0x101#32
  | .RIL_DIV => 0x400#32
  | .CAN_NBT => 0x3F1F1F#32
  | .CAN_DBT => 0x8E0303#32
  | .CAN_TDC => 0x100004#32
  | .CAN_BOFF => 0x64#32
  | .CAN_XCH_CFG => 0x10000#32
  | .LOOP_OPT => 0x10101000#32
  | .LOOP_KF => 0x10000#32
  | .LOOP_IMIN => 0x80000000#32
  | .LOOP_IMAX => 0x7FFFFFFF#32
  | .LOOP_UMIN => 0x80000000#32
  | .LOOP_UMAX => 0x7FFFFFFF#32
  | .CLK_CFG => 0xF0#32
  | .PWR_WAKE_EN => 0x60#32
  | .MEM_BT_CFG => 0x80640064#32
  | .MEM_REP_CFG => 0x3C02#32
  | .TPH_WDG_CFG => 0x64#32
  | _ => 0#32

/-- The registers, part 0. -/
def regList0 : List RegId :=
  [.FEAT_DEV, .FEAT_UNITS, .FEAT_COUNTS, .FEAT_CORE_MAP, .FEAT_PORT_MAP, .GLB_SETUP_LOCK, .GLB_REJ_CNT, .GLB_REJ_ADDR, .GLB_REJ_DATA, .GLB_CYC_CFG, .GLB_CYC_PERIOD, .GLB_CYC_OFS, .GLB_CYC_STS, .GLB_CYC_LATE_CNT, .HST_CTL, .HST_CMD, .HST_STS, .HST_DB_BASE_LO, .HST_DB_BASE_HI, .HST_SH_BASE_LO, .HST_SH_BASE_HI, .HST_POLL, .HST_POLL_IDLE, .HST_IDLE_POLLS, .HST_EV_ROUTE, .HST_EV_EN, .HST_IRQ_MAP, .HST_DMA_CNT, .HST_RX_NOSTEER, .HST_TXR_BASE_LO, .HST_TXR_BASE_HI, .HST_TXR_CFG, .HST_TXR_CTL, .HST_TXR_STS, .HST_TXR_CNT, .HST_RXR_BASE_LO, .HST_RXR_BASE_HI, .HST_RXR_CFG, .HST_RXR_CTL, .HST_RXR_STS]

/-- The registers, part 1. -/
def regList1 : List RegId :=
  [.HST_RXR_CNT, .HST_EVR_BASE_LO, .HST_EVR_BASE_HI, .HST_EVR_CFG, .HST_EVR_CTL, .HST_EVR_STS, .HST_EVR_CNT, .HST_EVR_MOD, .HST_RX_STEER, .CFL_CTL, .CFL_BUF_STS, .CFL_BUF_QE, .CFL_TRAP, .CFL_ADM_CFG, .CFL_PORT_CFG, .CFL_PORT_VLAN, .CFL_PCP_MAP, .CFL_PORT_FC, .CFL_PORT_MAX, .CFL_FDB_KEY_LO, .CFL_FDB_KEY_HI, .CFL_FDB_VAL, .CFL_FDB_CMD, .CFL_FDB_STS, .CFL_FDB_RES0, .CFL_FDB_RES1, .CFL_FDB_RES2, .CFL_FDB_AGE, .CFL_VT_DATA0, .CFL_VT_DATA1, .CFL_VT_DATA2, .CFL_VT_CMD, .CFL_RED_CFG, .CFL_RED_SEQ, .CFL_RED_DUP_DROP, .CFL_RED_NO_TAG, .CFL_RED_WRONG_LAN, .CFL_RED_OWN_DROP, .CFL_RED_DD_EVICT, .CFL_RED_NO_RCT_TX]

/-- The registers, part 2. -/
def regList2 : List RegId :=
  [.CFL_OQ_CFG, .CFL_OQ_SLOPE, .CFL_OQ_CRED, .CFL_OQ_STS, .CFL_GCL_ADMIN_CFG, .CFL_GCL_ADMIN_CYCLE, .CFL_GCL_ADMIN_EXT, .CFL_GCL_ADMIN_BASE_NS, .CFL_GCL_ADMIN_BASE_SEC_LO, .CFL_GCL_ADMIN_BASE_SEC_HI, .CFL_GCL_CMD, .CFL_GCL_STS, .CFL_GCL_OPER_CYCLE, .CFL_GCL_CHG_NS, .CFL_GCL_CHG_SEC_LO, .CFL_GCL_CHG_SEC_HI, .CFL_FP_CFG, .CFL_FP_HOLD, .CFL_FP_STS, .CFL_FP_ASSY_ERR, .CFL_FP_SMD_ERR, .CFL_FP_ASSY_OK, .CFL_FP_FRAG_RX, .CFL_FP_FRAG_TX, .CFL_ICNT, .CFL_QCNT, .CFL_GCL_ENTRY_INT, .CFL_GCL_ENTRY_OP, .CFL_CT_CFG, .CFL_RESIDUE_TO, .CFL_RESIDUE_STS, .CFL_EDDY_CFG, .CFL_EDDY_STS, .CFL_EDDY_CELLS, .CFL_EDDY_FD, .CFL_CT_CNT, .CFL_CT_UNDERRUN, .CFL_AGE_LIM, .CFL_TW_CFG, .CFL_TW_ETYPE]

/-- The registers, part 3. -/
def regList3 : List RegId :=
  [.CFL_TW_SEQ, .CFL_TW_STS, .CFL_TW_CNT, .CFL_TW_RULE0, .CFL_TW_RULE1, .CFL_TW_RULE2, .CFL_TW_RULE3, .MAC_CFG, .MAC_MAXLEN, .MAC_SA_LO, .MAC_SA_HI, .MAC_RX_FILT, .MAC_PAUSE, .MAC_STS, .MAC_CMD, .MAC_PLCA_CFG, .MAC_PLCA_BURST, .MAC_PLCA_STS, .MAC_EEE_CFG, .MAC_EEE_TW, .MAC_EEE_STS, .MAC_LINK_CFG, .MAC_LINK_CNT, .MAC_MDIO, .MAC_MDIO_STS, .MAC_UC_LO, .MAC_UC_HI, .MAC_HASH, .MAC_CNT_LO, .MAC_CNT_HI, .TB_CFG, .TB_STS, .TB_CMD, .TB_RATE, .TB_NOW_NS, .TB_NOW_FRAC, .TB_NOW_SEC_LO, .TB_NOW_SEC_HI, .TB_ADJ_NS, .TB_ADJ_FRAC]

/-- The registers, part 4. -/
def regList4 : List RegId :=
  [.TB_ADJ_SEC_LO, .TB_ADJ_SEC_HI, .TB_GUARD, .TB_LAUNCH_CFG, .TB_SLEW_REM_NS, .TB_SERVE_OFS_NS, .TB_SNAP_NS, .TB_SNAP_FRAC, .TB_SNAP_SEC_LO, .TB_SNAP_SEC_HI, .TB_SNAP_OFS_NS, .TB_SNAP_OFS_FRAC, .TB_CNT, .TB_LATE_CNT, .TB_MISS_CNT, .TB_CAP_CFG, .TB_CAP_NS, .TB_CAP_FRAC, .TB_CAP_SEC_LO, .TB_CAP_SEC_HI, .TB_CAP_STS, .TB_PLS_CFG, .TB_PLS_START_NS, .TB_PLS_START_SEC_LO, .TB_PLS_START_SEC_HI, .TB_PLS_PERIOD, .TB_PLS_WIDTH, .TB_PLS_STS, .TB_CAL_RX, .TB_CAL_TX, .TB_CAL_CAN, .TB_CAL_GYS_RX, .TB_CAL_GYS_TX, .GYS_CFG, .GYS_CYCLE, .GYS_TIMING, .GYS_DLY_INIT, .GYS_STS, .GYS_NOW_CYC, .GYS_NOW_OFS]

/-- The registers, part 5. -/
def regList5 : List RegId :=
  [.GYS_RATE, .GYS_OFFSET, .GYS_CS_NS, .GYS_CNT, .GYS_GW_CNT, .GYS_CH_CFG, .GYS_CH_CMD, .GYS_CH_STS, .GYS_CH_DLY, .GYS_CH_CNT, .GYS_SLOT_T, .GYS_SLOT_D, .GYS_EMPTY, .PAIR_CFG, .PAIR_HOLDOFF, .PAIR_CMD, .PAIR_STS, .PAIR_EPOCH, .PAIR_SNAP, .PAIR_PORT_GATE, .PAIR_OUT_GATE, .PAIR_TB_CFG, .PAIR_STAGE, .PAIR_HB_STS, .PAIR_PARTNER_EPOCH, .PAIR_TB_DIFF, .PAIR_CNT, .PAIR_MREG_BASE, .PAIR_MREG_LEN, .ENG_CFG, .ENG_BIND, .ENG_BIND_AUX, .ENG_TB_PERM, .ENG_CMD, .ENG_STS, .ENG_HALT_CAUSE, .ENG_HALT_PC, .ENG_HALT_ADDR, .ENG_CNT, .ENG_RESTART_WIN]

/-- The registers, part 6. -/
def regList6 : List RegId :=
  [.ENG_FQ_RXBASE, .ENG_FQ_RXGEO, .ENG_FQ_CNT, .ENG_FQ_TXCNT, .ENG_CORE_CMD, .ENG_CORE_STS, .ENG_FQ_ETYPE, .ENG_FQ_STEER, .ENG_FQ_NOSTEER, .ENG_MIG_STS, .ENG_LOCK_FORCE, .ENG_LOCK_CNT, .MBX_CFG, .MBX_HOST_PTR, .MBX_HOST_RX_LO, .MBX_HOST_RX_HI, .MBX_HOST_ACK_LO, .MBX_HOST_ACK_HI, .MBX_STS, .MBX_PTR, .MBX_INFO, .MBX_CMD, .RIL_SYNC_LO, .RIL_SYNC_CMD, .RIL_GRP_CMD, .RIL_GRP_STS, .RIL_PIN, .RIL_ECFG, .RIL_DIV, .RIL_CMP_VAL, .RIL_CMP_MASK, .RIL_CTL, .RIL_STS, .RIL_SR, .RIL_CTR, .RIL_TS_NS, .RIL_TS_FRAC, .RIL_CNT, .RIL_LAST, .RIL_SLOT]

/-- The registers, part 7. -/
def regList7 : List RegId :=
  [.RIL_PROG, .CAN_CFG, .CAN_NBT, .CAN_DBT, .CAN_TDC, .CAN_ACC, .CAN_BOFF, .CAN_XCH_CFG, .CAN_XCH_BASE, .CAN_CMD, .CAN_STS, .CAN_ECNT, .CAN_TDC_STS, .CAN_TXREQ, .CAN_TXCAN, .CAN_TXPEND, .CAN_RXF_STS, .CAN_RXF_ACK, .CAN_EVF_STS, .CAN_EVF_ACK, .CAN_HP_STS, .CAN_HP_ACK, .CAN_RAM_PAGE, .CAN_CNT, .CAN_RAM_WIN, .LOOP_SCFG, .LOOP_IN, .LOOP_OUT, .LOOP_AGE, .LOOP_OPT, .LOOP_MODE, .LOOP_MAN, .LOOP_KI, .LOOP_KD, .LOOP_KF, .LOOP_IMIN, .LOOP_IMAX, .LOOP_UMIN, .LOOP_UMAX, .LOOP_RMAX]

/-- The registers, part 8. -/
def regList8 : List RegId :=
  [.LOOP_FR_X0, .LOOP_VDB, .LOOP_CG_X0, .LOOP_SSTS, .LOOP_I_ST, .LOOP_D_ST, .LOOP_U_ST, .LOOP_SAMPLE_SEQ, .LOOP_SCNT, .LOOP_GAIN, .LOOP_FRIC, .LOOP_COG, .LOOP_CFG, .LOOP_COEF_SEQ, .LOOP_PCMD, .LOOP_PCMD_STS, .LOOP_STS, .LOOP_CNT, .BOOT_IMG_CMD, .BOOT_IMG_STS, .BOOT_IMG_VER, .CLK_STS, .CLK_CFG, .CLK_CNT, .PWR_CMD, .PWR_STS, .PWR_WAKE_EN, .PWR_WAKE_PIN, .PWR_SEC, .PWR_ALARM, .PWR_CNT, .MEM_TOKEN_STS, .MEM_TOKEN_CNT, .MEM_BANK_CMD, .MEM_BANK_RES, .MEM_BT_CFG, .MEM_BT_STS, .MEM_BT_CMD, .MEM_BT_CNT, .MEM_REP_CFG]

/-- The registers, part 9. -/
def regList9 : List RegId :=
  [.MEM_ATOM_ADDR, .MEM_ATOM_DATA, .MEM_ATOM_CMD, .MEM_ATOM_RES, .MEM_MIRROR_WREJ, .MEM_ECC_CNT, .MEM_UNCORR_CNT, .MEM_OFF_ACC, .MEM_BANK_STS, .MEM_SPARE, .MEM_LOCK, .TPH_STS, .TPH_TOTAL, .TPH_FREEZE_SEQ, .TPH_CMD, .TPH_PAGE, .TPH_WDG_CFG, .TPH_WDG_CLU, .TPH_WDG_KICK, .TPH_WDG_STS, .TPH_WIN, .GLB_RESET, .BOOT_STS, .BOOT_STRAP, .BOOT_CMD, .BOOT_ERR, .BOOT_SET_VER, .BOOT_TIME, .BOOT_KEY_STS, .BOOT_FUSE_HASH, .BOOT_FUSE_STS, .BOOT_FUSE_CMD, .BOOT_FUSE_DATA]

/-- Every register. -/
def allRegs : List RegId :=
  regList0 ++ regList1 ++ regList2 ++ regList3 ++ regList4 ++ regList5 ++ regList6 ++ regList7 ++ regList8 ++ regList9

/-- A named field of a register. -/
structure FRef where
  id : RegId
  hi : Nat
  lo : Nat
  deriving DecidableEq, Repr

end Sys2Proof.Machine

/-! The fields under the names of the spec's field tables. -/
namespace Sys2Proof.Machine.Fx

def FEAT_DEV_DEVICE : FRef := ⟨.FEAT_DEV, 31, 16⟩
def FEAT_DEV_STEP_MAJOR : FRef := ⟨.FEAT_DEV, 15, 12⟩
def FEAT_DEV_STEP_MINOR : FRef := ⟨.FEAT_DEV, 11, 8⟩
def FEAT_UNITS_P01_MAX : FRef := ⟨.FEAT_UNITS, 6, 5⟩
def FEAT_UNITS_GYS_B : FRef := ⟨.FEAT_UNITS, 4, 4⟩
def FEAT_UNITS_GYS_A : FRef := ⟨.FEAT_UNITS, 3, 3⟩
def FEAT_UNITS_PAIR_LINK : FRef := ⟨.FEAT_UNITS, 2, 2⟩
def FEAT_UNITS_PAIR : FRef := ⟨.FEAT_UNITS, 1, 1⟩
def FEAT_UNITS_LOOP : FRef := ⟨.FEAT_UNITS, 0, 0⟩
def FEAT_COUNTS_LOOP_SLOTS : FRef := ⟨.FEAT_COUNTS, 31, 24⟩
def FEAT_COUNTS_RILL_ENG : FRef := ⟨.FEAT_COUNTS, 23, 16⟩
def FEAT_COUNTS_RILL_GRP : FRef := ⟨.FEAT_COUNTS, 15, 8⟩
def FEAT_COUNTS_CORES : FRef := ⟨.FEAT_COUNTS, 4, 0⟩
def FEAT_CORE_MAP_CORES : FRef := ⟨.FEAT_CORE_MAP, 15, 0⟩
def FEAT_PORT_MAP_PORTS : FRef := ⟨.FEAT_PORT_MAP, 23, 0⟩
def GLB_SETUP_LOCK_LOCK : FRef := ⟨.GLB_SETUP_LOCK, 0, 0⟩
def GLB_REJ_CNT_COUNT : FRef := ⟨.GLB_REJ_CNT, 31, 0⟩
def GLB_REJ_ADDR_VALID : FRef := ⟨.GLB_REJ_ADDR, 31, 31⟩
def GLB_REJ_ADDR_CAUSE : FRef := ⟨.GLB_REJ_ADDR, 30, 27⟩
def GLB_REJ_ADDR_SRC : FRef := ⟨.GLB_REJ_ADDR, 26, 26⟩
def GLB_REJ_ADDR_OFFSET : FRef := ⟨.GLB_REJ_ADDR, 25, 0⟩
def GLB_REJ_DATA_DATA : FRef := ⟨.GLB_REJ_DATA, 31, 0⟩
def GLB_CYC_CFG_DIV : FRef := ⟨.GLB_CYC_CFG, 26, 16⟩
def GLB_CYC_CFG_TB : FRef := ⟨.GLB_CYC_CFG, 6, 4⟩
def GLB_CYC_CFG_SRC : FRef := ⟨.GLB_CYC_CFG, 1, 0⟩
def GLB_CYC_PERIOD_PERIOD : FRef := ⟨.GLB_CYC_PERIOD, 26, 0⟩
def GLB_CYC_OFS_OFS : FRef := ⟨.GLB_CYC_OFS, 26, 0⟩
def GLB_CYC_STS_CYCLE : FRef := ⟨.GLB_CYC_STS, 31, 16⟩
def GLB_CYC_STS_NOGUARD : FRef := ⟨.GLB_CYC_STS, 4, 4⟩
def GLB_CYC_STS_GYS_FREE : FRef := ⟨.GLB_CYC_STS, 3, 3⟩
def GLB_CYC_STS_SNAP_SKIP : FRef := ⟨.GLB_CYC_STS, 2, 2⟩
def GLB_CYC_STS_CORE_OVR : FRef := ⟨.GLB_CYC_STS, 1, 1⟩
def GLB_CYC_STS_TICK_RUN : FRef := ⟨.GLB_CYC_STS, 0, 0⟩
def GLB_CYC_LATE_CNT_CORE_OVR : FRef := ⟨.GLB_CYC_LATE_CNT, 31, 16⟩
def GLB_CYC_LATE_CNT_SNAP_SKIP : FRef := ⟨.GLB_CYC_LATE_CNT, 15, 8⟩
def GLB_CYC_LATE_CNT_GYS_FREE : FRef := ⟨.GLB_CYC_LATE_CNT, 7, 0⟩
def HST_CTL_EN : FRef := ⟨.HST_CTL, 0, 0⟩
def HST_CMD_POLL_NOW : FRef := ⟨.HST_CMD, 2, 2⟩
def HST_CMD_RESUME : FRef := ⟨.HST_CMD, 1, 1⟩
def HST_CMD_QUIESCE : FRef := ⟨.HST_CMD, 0, 0⟩
def HST_STS_EMPTY : FRef := ⟨.HST_STS, 31, 16⟩
def HST_STS_NOMASTER : FRef := ⟨.HST_STS, 3, 3⟩
def HST_STS_QUIESCED : FRef := ⟨.HST_STS, 2, 2⟩
def HST_STS_IDLE : FRef := ⟨.HST_STS, 1, 1⟩
def HST_STS_RUNNING : FRef := ⟨.HST_STS, 0, 0⟩
def HST_DB_BASE_LO_ADDR : FRef := ⟨.HST_DB_BASE_LO, 31, 12⟩
def HST_DB_BASE_HI_ADDR : FRef := ⟨.HST_DB_BASE_HI, 31, 0⟩
def HST_SH_BASE_LO_ADDR : FRef := ⟨.HST_SH_BASE_LO, 31, 12⟩
def HST_SH_BASE_HI_ADDR : FRef := ⟨.HST_SH_BASE_HI, 31, 0⟩
def HST_POLL_NS : FRef := ⟨.HST_POLL, 19, 0⟩
def HST_POLL_IDLE_NS : FRef := ⟨.HST_POLL_IDLE, 23, 0⟩
def HST_IDLE_POLLS_COUNT : FRef := ⟨.HST_IDLE_POLLS, 15, 0⟩
def HST_EV_ROUTE_CLS7 : FRef := ⟨.HST_EV_ROUTE, 31, 28⟩
def HST_EV_ROUTE_CLS6 : FRef := ⟨.HST_EV_ROUTE, 27, 24⟩
def HST_EV_ROUTE_CLS5 : FRef := ⟨.HST_EV_ROUTE, 23, 20⟩
def HST_EV_ROUTE_CLS4 : FRef := ⟨.HST_EV_ROUTE, 19, 16⟩
def HST_EV_ROUTE_CLS3 : FRef := ⟨.HST_EV_ROUTE, 15, 12⟩
def HST_EV_ROUTE_CLS2 : FRef := ⟨.HST_EV_ROUTE, 11, 8⟩
def HST_EV_ROUTE_CLS1 : FRef := ⟨.HST_EV_ROUTE, 7, 4⟩
def HST_EV_ROUTE_CLS0 : FRef := ⟨.HST_EV_ROUTE, 3, 0⟩
def HST_EV_EN_EN : FRef := ⟨.HST_EV_EN, 7, 0⟩
def HST_IRQ_MAP_FATAL_EN : FRef := ⟨.HST_IRQ_MAP, 7, 7⟩
def HST_IRQ_MAP_FATAL_VEC : FRef := ⟨.HST_IRQ_MAP, 5, 0⟩
def HST_DMA_CNT_FAIL : FRef := ⟨.HST_DMA_CNT, 31, 16⟩
def HST_DMA_CNT_RETRY_OK : FRef := ⟨.HST_DMA_CNT, 15, 0⟩
def HST_RX_NOSTEER_COUNT : FRef := ⟨.HST_RX_NOSTEER, 31, 0⟩
def HST_TXR_BASE_LO_ADDR : FRef := ⟨.HST_TXR_BASE_LO, 31, 12⟩
def HST_TXR_BASE_HI_ADDR : FRef := ⟨.HST_TXR_BASE_HI, 31, 0⟩
def HST_TXR_CFG_TS_TB : FRef := ⟨.HST_TXR_CFG, 13, 11⟩
def HST_TXR_CFG_EV_ALL : FRef := ⟨.HST_TXR_CFG, 10, 10⟩
def HST_TXR_CFG_EV_RING : FRef := ⟨.HST_TXR_CFG, 9, 6⟩
def HST_TXR_CFG_SIZE : FRef := ⟨.HST_TXR_CFG, 5, 1⟩
def HST_TXR_CFG_EN : FRef := ⟨.HST_TXR_CFG, 0, 0⟩
def HST_TXR_CTL_HALT : FRef := ⟨.HST_TXR_CTL, 2, 2⟩
def HST_TXR_CTL_RESET : FRef := ⟨.HST_TXR_CTL, 1, 1⟩
def HST_TXR_CTL_RESUME : FRef := ⟨.HST_TXR_CTL, 0, 0⟩
def HST_TXR_STS_INDEX : FRef := ⟨.HST_TXR_STS, 31, 16⟩
def HST_TXR_STS_CAUSE : FRef := ⟨.HST_TXR_STS, 7, 4⟩
def HST_TXR_STS_HALT : FRef := ⟨.HST_TXR_STS, 1, 1⟩
def HST_TXR_STS_ACTIVE : FRef := ⟨.HST_TXR_STS, 0, 0⟩
def HST_TXR_CNT_INVALID : FRef := ⟨.HST_TXR_CNT, 31, 16⟩
def HST_TXR_CNT_OTHER : FRef := ⟨.HST_TXR_CNT, 15, 0⟩
def HST_RXR_BASE_LO_ADDR : FRef := ⟨.HST_RXR_BASE_LO, 31, 12⟩
def HST_RXR_BASE_HI_ADDR : FRef := ⟨.HST_RXR_BASE_HI, 31, 0⟩
def HST_RXR_CFG_TS_TB : FRef := ⟨.HST_RXR_CFG, 13, 11⟩
def HST_RXR_CFG_EV_ALL : FRef := ⟨.HST_RXR_CFG, 10, 10⟩
def HST_RXR_CFG_EV_RING : FRef := ⟨.HST_RXR_CFG, 9, 6⟩
def HST_RXR_CFG_SIZE : FRef := ⟨.HST_RXR_CFG, 5, 1⟩
def HST_RXR_CFG_EN : FRef := ⟨.HST_RXR_CFG, 0, 0⟩
def HST_RXR_CTL_HALT : FRef := ⟨.HST_RXR_CTL, 2, 2⟩
def HST_RXR_CTL_RESET : FRef := ⟨.HST_RXR_CTL, 1, 1⟩
def HST_RXR_CTL_RESUME : FRef := ⟨.HST_RXR_CTL, 0, 0⟩
def HST_RXR_STS_INDEX : FRef := ⟨.HST_RXR_STS, 31, 16⟩
def HST_RXR_STS_CAUSE : FRef := ⟨.HST_RXR_STS, 7, 4⟩
def HST_RXR_STS_HALT : FRef := ⟨.HST_RXR_STS, 1, 1⟩
def HST_RXR_STS_ACTIVE : FRef := ⟨.HST_RXR_STS, 0, 0⟩
def HST_RXR_CNT_TOOBIG : FRef := ⟨.HST_RXR_CNT, 31, 16⟩
def HST_RXR_CNT_NODESC : FRef := ⟨.HST_RXR_CNT, 15, 0⟩
def HST_EVR_BASE_LO_ADDR : FRef := ⟨.HST_EVR_BASE_LO, 31, 12⟩
def HST_EVR_BASE_HI_ADDR : FRef := ⟨.HST_EVR_BASE_HI, 31, 0⟩
def HST_EVR_CFG_MOD_CNT : FRef := ⟨.HST_EVR_CFG, 19, 12⟩
def HST_EVR_CFG_VEC : FRef := ⟨.HST_EVR_CFG, 11, 6⟩
def HST_EVR_CFG_SIZE : FRef := ⟨.HST_EVR_CFG, 5, 1⟩
def HST_EVR_CFG_EN : FRef := ⟨.HST_EVR_CFG, 0, 0⟩
def HST_EVR_CTL_HALT : FRef := ⟨.HST_EVR_CTL, 2, 2⟩
def HST_EVR_CTL_RESET : FRef := ⟨.HST_EVR_CTL, 1, 1⟩
def HST_EVR_CTL_RESUME : FRef := ⟨.HST_EVR_CTL, 0, 0⟩
def HST_EVR_STS_INDEX : FRef := ⟨.HST_EVR_STS, 31, 16⟩
def HST_EVR_STS_CAUSE : FRef := ⟨.HST_EVR_STS, 7, 4⟩
def HST_EVR_STS_HALT : FRef := ⟨.HST_EVR_STS, 1, 1⟩
def HST_EVR_STS_ACTIVE : FRef := ⟨.HST_EVR_STS, 0, 0⟩
def HST_EVR_CNT_LOST : FRef := ⟨.HST_EVR_CNT, 31, 0⟩
def HST_EVR_MOD_US : FRef := ⟨.HST_EVR_MOD, 9, 0⟩
def HST_RX_STEER_EN : FRef := ⟨.HST_RX_STEER, 7, 7⟩
def HST_RX_STEER_RING : FRef := ⟨.HST_RX_STEER, 4, 0⟩
def CFL_CTL_COMPAT : FRef := ⟨.CFL_CTL, 1, 1⟩
def CFL_CTL_EN : FRef := ⟨.CFL_CTL, 0, 0⟩
def CFL_BUF_STS_FREE_CELLS : FRef := ⟨.CFL_BUF_STS, 31, 16⟩
def CFL_BUF_STS_FREE_FD : FRef := ⟨.CFL_BUF_STS, 14, 0⟩
def CFL_BUF_QE_FREE_QE : FRef := ⟨.CFL_BUF_QE, 15, 0⟩
def CFL_TRAP_DEST : FRef := ⟨.CFL_TRAP, 16, 16⟩
def CFL_TRAP_MASK : FRef := ⟨.CFL_TRAP, 15, 0⟩
def CFL_ADM_CFG_PRIO_CLS : FRef := ⟨.CFL_ADM_CFG, 18, 16⟩
def CFL_ADM_CFG_RESERVE : FRef := ⟨.CFL_ADM_CFG, 15, 0⟩
def CFL_PORT_CFG_MFLOOD : FRef := ⟨.CFL_PORT_CFG, 9, 9⟩
def CFL_PORT_CFG_UFLOOD : FRef := ⟨.CFL_PORT_CFG, 8, 8⟩
def CFL_PORT_CFG_STATE : FRef := ⟨.CFL_PORT_CFG, 7, 6⟩
def CFL_PORT_CFG_LEARN : FRef := ⟨.CFL_PORT_CFG, 5, 5⟩
def CFL_PORT_CFG_TRUST : FRef := ⟨.CFL_PORT_CFG, 4, 4⟩
def CFL_PORT_CFG_DEF_PCP : FRef := ⟨.CFL_PORT_CFG, 3, 1⟩
def CFL_PORT_VLAN_ACCEPT : FRef := ⟨.CFL_PORT_VLAN, 15, 14⟩
def CFL_PORT_VLAN_IN_FILT : FRef := ⟨.CFL_PORT_VLAN, 13, 13⟩
def CFL_PORT_VLAN_PVID : FRef := ⟨.CFL_PORT_VLAN, 11, 0⟩
def CFL_PCP_MAP_MAP : FRef := ⟨.CFL_PCP_MAP, 23, 0⟩
def CFL_PORT_FC_XOFF : FRef := ⟨.CFL_PORT_FC, 31, 16⟩
def CFL_PORT_FC_XON : FRef := ⟨.CFL_PORT_FC, 15, 0⟩
def CFL_PORT_MAX_MAXLEN : FRef := ⟨.CFL_PORT_MAX, 13, 0⟩
def CFL_FDB_KEY_LO_MAC_LO : FRef := ⟨.CFL_FDB_KEY_LO, 31, 0⟩
def CFL_FDB_KEY_HI_FID : FRef := ⟨.CFL_FDB_KEY_HI, 27, 16⟩
def CFL_FDB_KEY_HI_MAC_HI : FRef := ⟨.CFL_FDB_KEY_HI, 15, 0⟩
def CFL_FDB_VAL_PORTS : FRef := ⟨.CFL_FDB_VAL, 16, 0⟩
def CFL_FDB_CMD_INDEX : FRef := ⟨.CFL_FDB_CMD, 29, 16⟩
def CFL_FDB_CMD_BY_FID : FRef := ⟨.CFL_FDB_CMD, 14, 14⟩
def CFL_FDB_CMD_BY_PORT : FRef := ⟨.CFL_FDB_CMD, 13, 13⟩
def CFL_FDB_CMD_PORT : FRef := ⟨.CFL_FDB_CMD, 12, 8⟩
def CFL_FDB_CMD_OP : FRef := ⟨.CFL_FDB_CMD, 3, 0⟩
def CFL_FDB_STS_BUSY : FRef := ⟨.CFL_FDB_STS, 31, 31⟩
def CFL_FDB_STS_RESULT : FRef := ⟨.CFL_FDB_STS, 30, 28⟩
def CFL_FDB_STS_INDEX : FRef := ⟨.CFL_FDB_STS, 13, 0⟩
def CFL_FDB_RES0_MAC_LO : FRef := ⟨.CFL_FDB_RES0, 31, 0⟩
def CFL_FDB_RES1_FID : FRef := ⟨.CFL_FDB_RES1, 27, 16⟩
def CFL_FDB_RES1_MAC_HI : FRef := ⟨.CFL_FDB_RES1, 15, 0⟩
def CFL_FDB_RES2_VALID : FRef := ⟨.CFL_FDB_RES2, 31, 31⟩
def CFL_FDB_RES2_STATIC : FRef := ⟨.CFL_FDB_RES2, 30, 30⟩
def CFL_FDB_RES2_AGE : FRef := ⟨.CFL_FDB_RES2, 29, 27⟩
def CFL_FDB_RES2_PORTS : FRef := ⟨.CFL_FDB_RES2, 16, 0⟩
def CFL_FDB_AGE_SEC : FRef := ⟨.CFL_FDB_AGE, 19, 0⟩
def CFL_VT_DATA0_MEMBER : FRef := ⟨.CFL_VT_DATA0, 16, 0⟩
def CFL_VT_DATA1_UNTAG : FRef := ⟨.CFL_VT_DATA1, 16, 0⟩
def CFL_VT_DATA2_VALID : FRef := ⟨.CFL_VT_DATA2, 31, 31⟩
def CFL_VT_DATA2_LEARN_DIS : FRef := ⟨.CFL_VT_DATA2, 30, 30⟩
def CFL_VT_DATA2_FID : FRef := ⟨.CFL_VT_DATA2, 11, 0⟩
def CFL_VT_CMD_OP : FRef := ⟨.CFL_VT_CMD, 13, 12⟩
def CFL_VT_CMD_VID : FRef := ⟨.CFL_VT_CMD, 11, 0⟩
def CFL_RED_CFG_MODE : FRef := ⟨.CFL_RED_CFG, 31, 30⟩
def CFL_RED_CFG_PORT_B : FRef := ⟨.CFL_RED_CFG, 29, 25⟩
def CFL_RED_CFG_PORT_A : FRef := ⟨.CFL_RED_CFG, 24, 20⟩
def CFL_RED_CFG_REMOVE : FRef := ⟨.CFL_RED_CFG, 19, 19⟩
def CFL_RED_CFG_FORGET_MS : FRef := ⟨.CFL_RED_CFG, 9, 0⟩
def CFL_RED_SEQ_SEQ : FRef := ⟨.CFL_RED_SEQ, 15, 0⟩
def CFL_RED_DUP_DROP_COUNT : FRef := ⟨.CFL_RED_DUP_DROP, 31, 0⟩
def CFL_RED_NO_TAG_COUNT : FRef := ⟨.CFL_RED_NO_TAG, 31, 0⟩
def CFL_RED_WRONG_LAN_COUNT : FRef := ⟨.CFL_RED_WRONG_LAN, 31, 0⟩
def CFL_RED_OWN_DROP_COUNT : FRef := ⟨.CFL_RED_OWN_DROP, 31, 0⟩
def CFL_RED_DD_EVICT_COUNT : FRef := ⟨.CFL_RED_DD_EVICT, 31, 0⟩
def CFL_RED_NO_RCT_TX_COUNT : FRef := ⟨.CFL_RED_NO_RCT_TX, 31, 0⟩
def CFL_OQ_CFG_CBS_EN : FRef := ⟨.CFL_OQ_CFG, 16, 16⟩
def CFL_OQ_CFG_LIMIT : FRef := ⟨.CFL_OQ_CFG, 15, 0⟩
def CFL_OQ_SLOPE_IDLE : FRef := ⟨.CFL_OQ_SLOPE, 23, 0⟩
def CFL_OQ_CRED_LO : FRef := ⟨.CFL_OQ_CRED, 31, 16⟩
def CFL_OQ_CRED_HI : FRef := ⟨.CFL_OQ_CRED, 15, 0⟩
def CFL_OQ_STS_CRED_NEG : FRef := ⟨.CFL_OQ_STS, 31, 31⟩
def CFL_OQ_STS_GATE_OPEN : FRef := ⟨.CFL_OQ_STS, 30, 30⟩
def CFL_OQ_STS_OCC : FRef := ⟨.CFL_OQ_STS, 15, 0⟩
def CFL_GCL_ADMIN_CFG_LEN : FRef := ⟨.CFL_GCL_ADMIN_CFG, 20, 12⟩
def CFL_GCL_ADMIN_CFG_TB : FRef := ⟨.CFL_GCL_ADMIN_CFG, 10, 8⟩
def CFL_GCL_ADMIN_CFG_EN : FRef := ⟨.CFL_GCL_ADMIN_CFG, 0, 0⟩
def CFL_GCL_ADMIN_CYCLE_NS : FRef := ⟨.CFL_GCL_ADMIN_CYCLE, 31, 0⟩
def CFL_GCL_ADMIN_EXT_NS : FRef := ⟨.CFL_GCL_ADMIN_EXT, 31, 0⟩
def CFL_GCL_ADMIN_BASE_NS_NS : FRef := ⟨.CFL_GCL_ADMIN_BASE_NS, 29, 0⟩
def CFL_GCL_ADMIN_BASE_SEC_LO_SEC : FRef := ⟨.CFL_GCL_ADMIN_BASE_SEC_LO, 31, 0⟩
def CFL_GCL_ADMIN_BASE_SEC_HI_SEC : FRef := ⟨.CFL_GCL_ADMIN_BASE_SEC_HI, 15, 0⟩
def CFL_GCL_CMD_CANCEL : FRef := ⟨.CFL_GCL_CMD, 1, 1⟩
def CFL_GCL_CMD_CHANGE : FRef := ⟨.CFL_GCL_CMD, 0, 0⟩
def CFL_GCL_STS_PENDING : FRef := ⟨.CFL_GCL_STS, 31, 31⟩
def CFL_GCL_STS_OPER_EN : FRef := ⟨.CFL_GCL_STS, 30, 30⟩
def CFL_GCL_STS_TB_OFF : FRef := ⟨.CFL_GCL_STS, 29, 29⟩
def CFL_GCL_STS_ENTRY : FRef := ⟨.CFL_GCL_STS, 20, 12⟩
def CFL_GCL_STS_GATES : FRef := ⟨.CFL_GCL_STS, 7, 0⟩
def CFL_GCL_OPER_CYCLE_NS : FRef := ⟨.CFL_GCL_OPER_CYCLE, 31, 0⟩
def CFL_GCL_CHG_NS_NS : FRef := ⟨.CFL_GCL_CHG_NS, 29, 0⟩
def CFL_GCL_CHG_SEC_LO_SEC : FRef := ⟨.CFL_GCL_CHG_SEC_LO, 31, 0⟩
def CFL_GCL_CHG_SEC_HI_SEC : FRef := ⟨.CFL_GCL_CHG_SEC_HI, 15, 0⟩
def CFL_FP_CFG_PREEMPTABLE : FRef := ⟨.CFL_FP_CFG, 23, 16⟩
def CFL_FP_CFG_ADD_FRAG : FRef := ⟨.CFL_FP_CFG, 11, 10⟩
def CFL_FP_CFG_VERIFY_DIS : FRef := ⟨.CFL_FP_CFG, 9, 9⟩
def CFL_FP_CFG_EN : FRef := ⟨.CFL_FP_CFG, 8, 8⟩
def CFL_FP_CFG_VERIFY_MS : FRef := ⟨.CFL_FP_CFG, 7, 0⟩
def CFL_FP_HOLD_ADV : FRef := ⟨.CFL_FP_HOLD, 15, 0⟩
def CFL_FP_STS_HOLD : FRef := ⟨.CFL_FP_STS, 4, 4⟩
def CFL_FP_STS_ACTIVE : FRef := ⟨.CFL_FP_STS, 3, 3⟩
def CFL_FP_STS_VERIFY : FRef := ⟨.CFL_FP_STS, 2, 0⟩
def CFL_FP_ASSY_ERR_COUNT : FRef := ⟨.CFL_FP_ASSY_ERR, 31, 0⟩
def CFL_FP_SMD_ERR_COUNT : FRef := ⟨.CFL_FP_SMD_ERR, 31, 0⟩
def CFL_FP_ASSY_OK_COUNT : FRef := ⟨.CFL_FP_ASSY_OK, 31, 0⟩
def CFL_FP_FRAG_RX_COUNT : FRef := ⟨.CFL_FP_FRAG_RX, 31, 0⟩
def CFL_FP_FRAG_TX_COUNT : FRef := ⟨.CFL_FP_FRAG_TX, 31, 0⟩
def CFL_ICNT_COUNT : FRef := ⟨.CFL_ICNT, 31, 0⟩
def CFL_QCNT_COUNT : FRef := ⟨.CFL_QCNT, 31, 0⟩
def CFL_GCL_ENTRY_INT_INTERVAL : FRef := ⟨.CFL_GCL_ENTRY_INT, 31, 0⟩
def CFL_GCL_ENTRY_OP_OP : FRef := ⟨.CFL_GCL_ENTRY_OP, 9, 8⟩
def CFL_GCL_ENTRY_OP_GATES : FRef := ⟨.CFL_GCL_ENTRY_OP, 7, 0⟩
def CFL_CT_CFG_OUT_EN : FRef := ⟨.CFL_CT_CFG, 29, 16⟩
def CFL_CT_CFG_IN_EN : FRef := ⟨.CFL_CT_CFG, 13, 0⟩
def CFL_RESIDUE_TO_US : FRef := ⟨.CFL_RESIDUE_TO, 15, 0⟩
def CFL_RESIDUE_STS_USED : FRef := ⟨.CFL_RESIDUE_STS, 9, 0⟩
def CFL_EDDY_CFG_PERIOD_MS : FRef := ⟨.CFL_EDDY_CFG, 13, 4⟩
def CFL_EDDY_CFG_EN : FRef := ⟨.CFL_EDDY_CFG, 0, 0⟩
def CFL_EDDY_STS_SWEEPS : FRef := ⟨.CFL_EDDY_STS, 31, 16⟩
def CFL_EDDY_STS_SKIP : FRef := ⟨.CFL_EDDY_STS, 15, 8⟩
def CFL_EDDY_STS_ARMED : FRef := ⟨.CFL_EDDY_STS, 2, 2⟩
def CFL_EDDY_STS_WAITING : FRef := ⟨.CFL_EDDY_STS, 1, 1⟩
def CFL_EDDY_STS_RUNNING : FRef := ⟨.CFL_EDDY_STS, 0, 0⟩
def CFL_EDDY_CELLS_COUNT : FRef := ⟨.CFL_EDDY_CELLS, 31, 0⟩
def CFL_EDDY_FD_COUNT : FRef := ⟨.CFL_EDDY_FD, 31, 0⟩
def CFL_CT_CNT_COUNT : FRef := ⟨.CFL_CT_CNT, 31, 0⟩
def CFL_CT_UNDERRUN_COUNT : FRef := ⟨.CFL_CT_UNDERRUN, 31, 0⟩
def CFL_AGE_LIM_US : FRef := ⟨.CFL_AGE_LIM, 23, 0⟩
def CFL_TW_CFG_EN : FRef := ⟨.CFL_TW_CFG, 31, 31⟩
def CFL_TW_CFG_AUTO_LOOP : FRef := ⟨.CFL_TW_CFG, 30, 30⟩
def CFL_TW_CFG_COPY_EN : FRef := ⟨.CFL_TW_CFG, 29, 29⟩
def CFL_TW_CFG_COPY_CLS : FRef := ⟨.CFL_TW_CFG, 26, 24⟩
def CFL_TW_CFG_PORT_B : FRef := ⟨.CFL_TW_CFG, 11, 8⟩
def CFL_TW_CFG_PORT_A : FRef := ⟨.CFL_TW_CFG, 3, 0⟩
def CFL_TW_ETYPE_COPY_ETYPE : FRef := ⟨.CFL_TW_ETYPE, 31, 16⟩
def CFL_TW_ETYPE_ETYPE : FRef := ⟨.CFL_TW_ETYPE, 15, 0⟩
def CFL_TW_SEQ_EN : FRef := ⟨.CFL_TW_SEQ, 31, 31⟩
def CFL_TW_SEQ_ADDR : FRef := ⟨.CFL_TW_SEQ, 20, 3⟩
def CFL_TW_STS_SUSPENDED : FRef := ⟨.CFL_TW_STS, 2, 2⟩
def CFL_TW_STS_LOOP_FWD : FRef := ⟨.CFL_TW_STS, 1, 1⟩
def CFL_TW_STS_ACTIVE : FRef := ⟨.CFL_TW_STS, 0, 0⟩
def CFL_TW_CNT_COUNT : FRef := ⟨.CFL_TW_CNT, 31, 0⟩
def CFL_TW_RULE0_EN : FRef := ⟨.CFL_TW_RULE0, 31, 31⟩
def CFL_TW_RULE0_DIR : FRef := ⟨.CFL_TW_RULE0, 30, 30⟩
def CFL_TW_RULE0_OP : FRef := ⟨.CFL_TW_RULE0, 29, 27⟩
def CFL_TW_RULE0_OFS : FRef := ⟨.CFL_TW_RULE0, 26, 16⟩
def CFL_TW_RULE0_LEN : FRef := ⟨.CFL_TW_RULE0, 15, 11⟩
def CFL_TW_RULE0_MOFS : FRef := ⟨.CFL_TW_RULE0, 10, 0⟩
def CFL_TW_RULE1_MATCH : FRef := ⟨.CFL_TW_RULE1, 31, 0⟩
def CFL_TW_RULE2_MASK : FRef := ⟨.CFL_TW_RULE2, 31, 0⟩
def CFL_TW_RULE3_ADDEND : FRef := ⟨.CFL_TW_RULE3, 31, 24⟩
def CFL_TW_RULE3_POOL : FRef := ⟨.CFL_TW_RULE3, 20, 0⟩
def MAC_CFG_TS_TB : FRef := ⟨.MAC_CFG, 14, 12⟩
def MAC_CFG_DUPLEX : FRef := ⟨.MAC_CFG, 11, 11⟩
def MAC_CFG_SPEED : FRef := ⟨.MAC_CFG, 10, 8⟩
def MAC_CFG_MODE : FRef := ⟨.MAC_CFG, 7, 4⟩
def MAC_CFG_EN : FRef := ⟨.MAC_CFG, 0, 0⟩
def MAC_MAXLEN_LEN : FRef := ⟨.MAC_MAXLEN, 13, 0⟩
def MAC_SA_LO_ADDR : FRef := ⟨.MAC_SA_LO, 31, 0⟩
def MAC_SA_HI_ADDR : FRef := ⟨.MAC_SA_HI, 15, 0⟩
def MAC_RX_FILT_BC : FRef := ⟨.MAC_RX_FILT, 1, 1⟩
def MAC_RX_FILT_EN : FRef := ⟨.MAC_RX_FILT, 0, 0⟩
def MAC_PAUSE_QUANTA : FRef := ⟨.MAC_PAUSE, 31, 16⟩
def MAC_PAUSE_TX_EN : FRef := ⟨.MAC_PAUSE, 1, 1⟩
def MAC_PAUSE_RX_EN : FRef := ⟨.MAC_PAUSE, 0, 0⟩
def MAC_STS_WAKING : FRef := ⟨.MAC_STS, 11, 11⟩
def MAC_STS_RX_LPI : FRef := ⟨.MAC_STS, 10, 10⟩
def MAC_STS_TX_LPI : FRef := ⟨.MAC_STS, 9, 9⟩
def MAC_STS_PAUSE_HELD : FRef := ⟨.MAC_STS, 8, 8⟩
def MAC_STS_RETRAINING : FRef := ⟨.MAC_STS, 6, 6⟩
def MAC_STS_LOOP : FRef := ⟨.MAC_STS, 5, 5⟩
def MAC_STS_HALF : FRef := ⟨.MAC_STS, 4, 4⟩
def MAC_STS_RATE : FRef := ⟨.MAC_STS, 3, 1⟩
def MAC_STS_LINK : FRef := ⟨.MAC_STS, 0, 0⟩
def MAC_CMD_RETRAIN : FRef := ⟨.MAC_CMD, 3, 3⟩
def MAC_CMD_LOOP_OFF : FRef := ⟨.MAC_CMD, 2, 2⟩
def MAC_CMD_LOOP_ON : FRef := ⟨.MAC_CMD, 1, 1⟩
def MAC_CMD_CNT_CLR : FRef := ⟨.MAC_CMD, 0, 0⟩
def MAC_PLCA_CFG_TO_TMR : FRef := ⟨.MAC_PLCA_CFG, 31, 24⟩
def MAC_PLCA_CFG_NODE_CNT : FRef := ⟨.MAC_PLCA_CFG, 21, 16⟩
def MAC_PLCA_CFG_NODE_ID : FRef := ⟨.MAC_PLCA_CFG, 12, 8⟩
def MAC_PLCA_CFG_EN : FRef := ⟨.MAC_PLCA_CFG, 0, 0⟩
def MAC_PLCA_BURST_MAX_BC : FRef := ⟨.MAC_PLCA_BURST, 15, 8⟩
def MAC_PLCA_BURST_BURST_TMR : FRef := ⟨.MAC_PLCA_BURST, 7, 0⟩
def MAC_PLCA_STS_LOSS : FRef := ⟨.MAC_PLCA_STS, 31, 16⟩
def MAC_PLCA_STS_COORD : FRef := ⟨.MAC_PLCA_STS, 1, 1⟩
def MAC_PLCA_STS_ACTIVE : FRef := ⟨.MAC_PLCA_STS, 0, 0⟩
def MAC_EEE_CFG_IDLE_US : FRef := ⟨.MAC_EEE_CFG, 15, 8⟩
def MAC_EEE_CFG_EN : FRef := ⟨.MAC_EEE_CFG, 0, 0⟩
def MAC_EEE_TW_TW_TX : FRef := ⟨.MAC_EEE_TW, 15, 0⟩
def MAC_EEE_STS_TW_TX : FRef := ⟨.MAC_EEE_STS, 31, 16⟩
def MAC_EEE_STS_RX_TW : FRef := ⟨.MAC_EEE_STS, 7, 0⟩
def MAC_LINK_CFG_FLUSH_DOWN : FRef := ⟨.MAC_LINK_CFG, 8, 8⟩
def MAC_LINK_CFG_RETRAIN_MS : FRef := ⟨.MAC_LINK_CFG, 7, 0⟩
def MAC_LINK_CNT_DOWN : FRef := ⟨.MAC_LINK_CNT, 31, 16⟩
def MAC_LINK_CNT_RETRAIN_OK : FRef := ⟨.MAC_LINK_CNT, 15, 0⟩
def MAC_MDIO_OP : FRef := ⟨.MAC_MDIO, 31, 30⟩
def MAC_MDIO_PHYAD : FRef := ⟨.MAC_MDIO, 29, 25⟩
def MAC_MDIO_REGAD : FRef := ⟨.MAC_MDIO, 24, 20⟩
def MAC_MDIO_DATA : FRef := ⟨.MAC_MDIO, 15, 0⟩
def MAC_MDIO_STS_BUSY : FRef := ⟨.MAC_MDIO_STS, 31, 31⟩
def MAC_MDIO_STS_DATA : FRef := ⟨.MAC_MDIO_STS, 15, 0⟩
def MAC_UC_LO_ADDR : FRef := ⟨.MAC_UC_LO, 31, 0⟩
def MAC_UC_HI_EN : FRef := ⟨.MAC_UC_HI, 31, 31⟩
def MAC_UC_HI_ADDR : FRef := ⟨.MAC_UC_HI, 15, 0⟩
def MAC_HASH_BINS : FRef := ⟨.MAC_HASH, 31, 0⟩
def MAC_CNT_LO_COUNT_LO : FRef := ⟨.MAC_CNT_LO, 31, 0⟩
def MAC_CNT_HI_COUNT_HI : FRef := ⟨.MAC_CNT_HI, 31, 0⟩
def TB_CFG_SERVE_SLEW : FRef := ⟨.TB_CFG, 29, 20⟩
def TB_CFG_SLEW_MAX : FRef := ⟨.TB_CFG, 19, 10⟩
def TB_CFG_AUTO : FRef := ⟨.TB_CFG, 7, 7⟩
def TB_CFG_SHADOW : FRef := ⟨.TB_CFG, 6, 4⟩
def TB_CFG_SHADOW_EN : FRef := ⟨.TB_CFG, 3, 3⟩
def TB_CFG_GUARDED : FRef := ⟨.TB_CFG, 0, 0⟩
def TB_STS_REFUSED : FRef := ⟨.TB_STS, 31, 31⟩
def TB_STS_SW_REFUSED : FRef := ⟨.TB_STS, 30, 30⟩
def TB_STS_STOPPED : FRef := ⟨.TB_STS, 29, 29⟩
def TB_STS_PRIMARY : FRef := ⟨.TB_STS, 10, 8⟩
def TB_STS_OOS_CMD : FRef := ⟨.TB_STS, 4, 4⟩
def TB_STS_SERVE_SLEWING : FRef := ⟨.TB_STS, 3, 3⟩
def TB_STS_SLEWING : FRef := ⟨.TB_STS, 2, 2⟩
def TB_STS_OOS : FRef := ⟨.TB_STS, 1, 1⟩
def TB_STS_SERVED : FRef := ⟨.TB_STS, 0, 0⟩
def TB_CMD_OP : FRef := ⟨.TB_CMD, 3, 0⟩
def TB_RATE_ADJ : FRef := ⟨.TB_RATE, 31, 0⟩
def TB_NOW_NS_NS : FRef := ⟨.TB_NOW_NS, 29, 0⟩
def TB_NOW_FRAC_FRAC : FRef := ⟨.TB_NOW_FRAC, 15, 0⟩
def TB_NOW_SEC_LO_SEC : FRef := ⟨.TB_NOW_SEC_LO, 31, 0⟩
def TB_NOW_SEC_HI_SEC : FRef := ⟨.TB_NOW_SEC_HI, 15, 0⟩
def TB_ADJ_NS_NS : FRef := ⟨.TB_ADJ_NS, 31, 0⟩
def TB_ADJ_FRAC_FRAC : FRef := ⟨.TB_ADJ_FRAC, 15, 0⟩
def TB_ADJ_SEC_LO_SEC : FRef := ⟨.TB_ADJ_SEC_LO, 31, 0⟩
def TB_ADJ_SEC_HI_SEC : FRef := ⟨.TB_ADJ_SEC_HI, 15, 0⟩
def TB_GUARD_NS : FRef := ⟨.TB_GUARD, 19, 0⟩
def TB_LAUNCH_CFG_MAX_LATE : FRef := ⟨.TB_LAUNCH_CFG, 31, 16⟩
def TB_LAUNCH_CFG_TOL : FRef := ⟨.TB_LAUNCH_CFG, 13, 0⟩
def TB_SLEW_REM_NS_REM : FRef := ⟨.TB_SLEW_REM_NS, 31, 0⟩
def TB_SERVE_OFS_NS_OFS : FRef := ⟨.TB_SERVE_OFS_NS, 31, 0⟩
def TB_SNAP_NS_NS : FRef := ⟨.TB_SNAP_NS, 29, 0⟩
def TB_SNAP_FRAC_FRAC : FRef := ⟨.TB_SNAP_FRAC, 15, 0⟩
def TB_SNAP_SEC_LO_SEC : FRef := ⟨.TB_SNAP_SEC_LO, 31, 0⟩
def TB_SNAP_SEC_HI_SEC : FRef := ⟨.TB_SNAP_SEC_HI, 15, 0⟩
def TB_SNAP_OFS_NS_OFS : FRef := ⟨.TB_SNAP_OFS_NS, 31, 0⟩
def TB_SNAP_OFS_FRAC_PRIMARY : FRef := ⟨.TB_SNAP_OFS_FRAC, 18, 16⟩
def TB_SNAP_OFS_FRAC_FRAC : FRef := ⟨.TB_SNAP_OFS_FRAC, 15, 0⟩
def TB_CNT_STEPS : FRef := ⟨.TB_CNT, 31, 16⟩
def TB_CNT_REFUSED : FRef := ⟨.TB_CNT, 15, 0⟩
def TB_LATE_CNT_COUNT : FRef := ⟨.TB_LATE_CNT, 31, 0⟩
def TB_MISS_CNT_HORIZON : FRef := ⟨.TB_MISS_CNT, 31, 16⟩
def TB_MISS_CNT_MISSED : FRef := ⟨.TB_MISS_CNT, 15, 0⟩
def TB_CAP_CFG_EN : FRef := ⟨.TB_CAP_CFG, 31, 31⟩
def TB_CAP_CFG_EDGE : FRef := ⟨.TB_CAP_CFG, 30, 29⟩
def TB_CAP_CFG_TB : FRef := ⟨.TB_CAP_CFG, 26, 24⟩
def TB_CAP_CFG_PIN : FRef := ⟨.TB_CAP_CFG, 5, 0⟩
def TB_CAP_NS_NS : FRef := ⟨.TB_CAP_NS, 31, 0⟩
def TB_CAP_FRAC_FRAC : FRef := ⟨.TB_CAP_FRAC, 15, 0⟩
def TB_CAP_SEC_LO_SEC : FRef := ⟨.TB_CAP_SEC_LO, 31, 0⟩
def TB_CAP_SEC_HI_SEC : FRef := ⟨.TB_CAP_SEC_HI, 15, 0⟩
def TB_CAP_STS_LOST : FRef := ⟨.TB_CAP_STS, 31, 16⟩
def TB_CAP_STS_LEVEL : FRef := ⟨.TB_CAP_STS, 2, 0⟩
def TB_PLS_CFG_EN : FRef := ⟨.TB_PLS_CFG, 31, 31⟩
def TB_PLS_CFG_POL : FRef := ⟨.TB_PLS_CFG, 30, 30⟩
def TB_PLS_CFG_TB : FRef := ⟨.TB_PLS_CFG, 26, 24⟩
def TB_PLS_CFG_PIN : FRef := ⟨.TB_PLS_CFG, 5, 0⟩
def TB_PLS_START_NS_NS : FRef := ⟨.TB_PLS_START_NS, 29, 0⟩
def TB_PLS_START_SEC_LO_SEC : FRef := ⟨.TB_PLS_START_SEC_LO, 31, 0⟩
def TB_PLS_START_SEC_HI_SEC : FRef := ⟨.TB_PLS_START_SEC_HI, 15, 0⟩
def TB_PLS_PERIOD_NS : FRef := ⟨.TB_PLS_PERIOD, 31, 0⟩
def TB_PLS_WIDTH_NS : FRef := ⟨.TB_PLS_WIDTH, 31, 0⟩
def TB_PLS_STS_RUNNING : FRef := ⟨.TB_PLS_STS, 1, 1⟩
def TB_PLS_STS_LEVEL : FRef := ⟨.TB_PLS_STS, 0, 0⟩
def TB_CAL_RX_DELAY : FRef := ⟨.TB_CAL_RX, 23, 0⟩
def TB_CAL_TX_DELAY : FRef := ⟨.TB_CAL_TX, 23, 0⟩
def TB_CAL_CAN_DELAY : FRef := ⟨.TB_CAL_CAN, 23, 0⟩
def TB_CAL_GYS_RX_DELAY : FRef := ⟨.TB_CAL_GYS_RX, 23, 0⟩
def TB_CAL_GYS_TX_DELAY : FRef := ⟨.TB_CAL_GYS_TX, 23, 0⟩
def GYS_CFG_SCHED_ID : FRef := ⟨.GYS_CFG, 31, 16⟩
def GYS_CFG_LEAD_EN : FRef := ⟨.GYS_CFG, 15, 15⟩
def GYS_CFG_LEAD_TB : FRef := ⟨.GYS_CFG, 14, 12⟩
def GYS_CFG_TS_TB : FRef := ⟨.GYS_CFG, 10, 8⟩
def GYS_CFG_CS_EN : FRef := ⟨.GYS_CFG, 4, 4⟩
def GYS_CFG_NODE : FRef := ⟨.GYS_CFG, 3, 0⟩
def GYS_CYCLE_NS : FRef := ⟨.GYS_CYCLE, 22, 0⟩
def GYS_TIMING_CORR_MAX : FRef := ⟨.GYS_TIMING, 25, 16⟩
def GYS_TIMING_GUARD : FRef := ⟨.GYS_TIMING, 8, 0⟩
def GYS_DLY_INIT_DLY : FRef := ⟨.GYS_DLY_INIT, 15, 0⟩
def GYS_STS_LEAD_NOGUARD : FRef := ⟨.GYS_STS, 2, 2⟩
def GYS_STS_FIRST : FRef := ⟨.GYS_STS, 1, 1⟩
def GYS_STS_TIMER : FRef := ⟨.GYS_STS, 0, 0⟩
def GYS_NOW_CYC_CYC : FRef := ⟨.GYS_NOW_CYC, 31, 0⟩
def GYS_NOW_OFS_OFS : FRef := ⟨.GYS_NOW_OFS, 22, 0⟩
def GYS_RATE_RATE : FRef := ⟨.GYS_RATE, 31, 0⟩
def GYS_OFFSET_E : FRef := ⟨.GYS_OFFSET, 31, 0⟩
def GYS_CS_NS_NS : FRef := ⟨.GYS_CS_NS, 31, 0⟩
def GYS_CNT_SILENCE : FRef := ⟨.GYS_CNT, 31, 24⟩
def GYS_CNT_RELABEL : FRef := ⟨.GYS_CNT, 23, 16⟩
def GYS_CNT_INTEG_RETRY_OK : FRef := ⟨.GYS_CNT, 15, 8⟩
def GYS_CNT_COLDSTART : FRef := ⟨.GYS_CNT, 7, 0⟩
def GYS_GW_CNT_COUNT : FRef := ⟨.GYS_GW_CNT, 31, 0⟩
def GYS_CH_CFG_DLY_EN : FRef := ⟨.GYS_CH_CFG, 15, 15⟩
def GYS_CH_CFG_DLY_SLOT : FRef := ⟨.GYS_CH_CFG, 13, 8⟩
def GYS_CH_CFG_EN : FRef := ⟨.GYS_CH_CFG, 0, 0⟩
def GYS_CH_CMD_JOIN : FRef := ⟨.GYS_CH_CMD, 1, 1⟩
def GYS_CH_CMD_ISOLATE : FRef := ⟨.GYS_CH_CMD, 0, 0⟩
def GYS_CH_STS_INTEG_FAIL : FRef := ⟨.GYS_CH_STS, 8, 8⟩
def GYS_CH_STS_REF : FRef := ⟨.GYS_CH_STS, 7, 7⟩
def GYS_CH_STS_STATE : FRef := ⟨.GYS_CH_STS, 2, 0⟩
def GYS_CH_DLY_GOOD : FRef := ⟨.GYS_CH_DLY, 23, 16⟩
def GYS_CH_DLY_D : FRef := ⟨.GYS_CH_DLY, 15, 0⟩
def GYS_CH_CNT_COUNT : FRef := ⟨.GYS_CH_CNT, 31, 0⟩
def GYS_SLOT_T_EN : FRef := ⟨.GYS_SLOT_T, 31, 31⟩
def GYS_SLOT_T_KIND : FRef := ⟨.GYS_SLOT_T, 30, 28⟩
def GYS_SLOT_T_OWNER : FRef := ⟨.GYS_SLOT_T, 27, 24⟩
def GYS_SLOT_T_START : FRef := ⟨.GYS_SLOT_T, 22, 0⟩
def GYS_SLOT_D_POOL : FRef := ⟨.GYS_SLOT_D, 29, 12⟩
def GYS_SLOT_D_LEN : FRef := ⟨.GYS_SLOT_D, 11, 0⟩
def GYS_EMPTY_COUNT : FRef := ⟨.GYS_EMPTY, 15, 0⟩
def PAIR_CFG_PAIR_ID : FRef := ⟨.PAIR_CFG, 31, 24⟩
def PAIR_CFG_PARTNER : FRef := ⟨.PAIR_CFG, 15, 12⟩
def PAIR_CFG_XPORT : FRef := ⟨.PAIR_CFG, 9, 8⟩
def PAIR_CFG_REVERT : FRef := ⟨.PAIR_CFG, 1, 1⟩
def PAIR_CFG_EN : FRef := ⟨.PAIR_CFG, 0, 0⟩
def PAIR_HOLDOFF_SEC : FRef := ⟨.PAIR_HOLDOFF, 16, 0⟩
def PAIR_CMD_HANDOVER : FRef := ⟨.PAIR_CMD, 2, 2⟩
def PAIR_CMD_JOIN : FRef := ⟨.PAIR_CMD, 1, 1⟩
def PAIR_CMD_ISOLATE : FRef := ⟨.PAIR_CMD, 0, 0⟩
def PAIR_STS_SPLIT : FRef := ⟨.PAIR_STS, 31, 31⟩
def PAIR_STS_SPLIT_SUSPECT : FRef := ⟨.PAIR_STS, 30, 30⟩
def PAIR_STS_ROLE_CLASH : FRef := ⟨.PAIR_STS, 29, 29⟩
def PAIR_STS_HO_FAIL : FRef := ⟨.PAIR_STS, 28, 28⟩
def PAIR_STS_HB_LOST : FRef := ⟨.PAIR_STS, 11, 11⟩
def PAIR_STS_GYS_LOST : FRef := ⟨.PAIR_STS, 10, 10⟩
def PAIR_STS_DEGRADED : FRef := ⟨.PAIR_STS, 9, 9⟩
def PAIR_STS_HELD : FRef := ⟨.PAIR_STS, 8, 8⟩
def PAIR_STS_SNAP_VALID : FRef := ⟨.PAIR_STS, 7, 7⟩
def PAIR_STS_PARTNER_STATE : FRef := ⟨.PAIR_STS, 6, 4⟩
def PAIR_STS_ROLE : FRef := ⟨.PAIR_STS, 3, 3⟩
def PAIR_STS_STATE : FRef := ⟨.PAIR_STS, 2, 0⟩
def PAIR_EPOCH_EPOCH : FRef := ⟨.PAIR_EPOCH, 31, 0⟩
def PAIR_SNAP_Z : FRef := ⟨.PAIR_SNAP, 31, 16⟩
def PAIR_SNAP_SEQ : FRef := ⟨.PAIR_SNAP, 15, 0⟩
def PAIR_PORT_GATE_GATE : FRef := ⟨.PAIR_PORT_GATE, 13, 0⟩
def PAIR_OUT_GATE_RIL : FRef := ⟨.PAIR_OUT_GATE, 27, 16⟩
def PAIR_OUT_GATE_CAN : FRef := ⟨.PAIR_OUT_GATE, 3, 0⟩
def PAIR_TB_CFG_ALIGN : FRef := ⟨.PAIR_TB_CFG, 8, 8⟩
def PAIR_TB_CFG_TBS : FRef := ⟨.PAIR_TB_CFG, 7, 1⟩
def PAIR_STAGE_BASE : FRef := ⟨.PAIR_STAGE, 20, 12⟩
def PAIR_HB_STS_SNAP_SEQ : FRef := ⟨.PAIR_HB_STS, 31, 16⟩
def PAIR_HB_STS_BYTE0 : FRef := ⟨.PAIR_HB_STS, 7, 0⟩
def PAIR_PARTNER_EPOCH_EPOCH : FRef := ⟨.PAIR_PARTNER_EPOCH, 31, 0⟩
def PAIR_TB_DIFF_NS : FRef := ⟨.PAIR_TB_DIFF, 31, 0⟩
def PAIR_CNT_COUNT : FRef := ⟨.PAIR_CNT, 31, 0⟩
def PAIR_MREG_BASE_EN : FRef := ⟨.PAIR_MREG_BASE, 31, 31⟩
def PAIR_MREG_BASE_BASE : FRef := ⟨.PAIR_MREG_BASE, 20, 3⟩
def PAIR_MREG_LEN_LEN : FRef := ⟨.PAIR_MREG_LEN, 12, 0⟩
def ENG_CFG_AUTO_RESTART : FRef := ⟨.ENG_CFG, 1, 1⟩
def ENG_CFG_CYC_BIND : FRef := ⟨.ENG_CFG, 0, 0⟩
def ENG_BIND_PORTS : FRef := ⟨.ENG_BIND, 23, 0⟩
def ENG_BIND_AUX_GROUPS : FRef := ⟨.ENG_BIND_AUX, 5, 0⟩
def ENG_TB_PERM_TBS : FRef := ⟨.ENG_TB_PERM, 7, 1⟩
def ENG_CMD_TARGET : FRef := ⟨.ENG_CMD, 12, 8⟩
def ENG_CMD_OP : FRef := ⟨.ENG_CMD, 3, 0⟩
def ENG_STS_WAITING : FRef := ⟨.ENG_STS, 12, 12⟩
def ENG_STS_PHYS : FRef := ⟨.ENG_STS, 11, 8⟩
def ENG_STS_MIG_PENDING : FRef := ⟨.ENG_STS, 4, 4⟩
def ENG_STS_FAILED : FRef := ⟨.ENG_STS, 3, 3⟩
def ENG_STS_STATE : FRef := ⟨.ENG_STS, 2, 0⟩
def ENG_HALT_CAUSE_CAUSE : FRef := ⟨.ENG_HALT_CAUSE, 31, 0⟩
def ENG_HALT_PC_PC : FRef := ⟨.ENG_HALT_PC, 31, 0⟩
def ENG_HALT_ADDR_ADDR : FRef := ⟨.ENG_HALT_ADDR, 31, 0⟩
def ENG_CNT_CYC_OVR : FRef := ⟨.ENG_CNT, 31, 16⟩
def ENG_CNT_HALTS : FRef := ⟨.ENG_CNT, 15, 8⟩
def ENG_CNT_RESTART_OK : FRef := ⟨.ENG_CNT, 7, 0⟩
def ENG_RESTART_WIN_MS : FRef := ⟨.ENG_RESTART_WIN, 13, 0⟩
def ENG_FQ_RXBASE_BASE : FRef := ⟨.ENG_FQ_RXBASE, 31, 3⟩
def ENG_FQ_RXGEO_COUNT : FRef := ⟨.ENG_FQ_RXGEO, 22, 16⟩
def ENG_FQ_RXGEO_BUFSZ : FRef := ⟨.ENG_FQ_RXGEO, 7, 0⟩
def ENG_FQ_CNT_NOBUF : FRef := ⟨.ENG_FQ_CNT, 31, 16⟩
def ENG_FQ_CNT_TOOBIG : FRef := ⟨.ENG_FQ_CNT, 15, 8⟩
def ENG_FQ_CNT_BADFREE : FRef := ⟨.ENG_FQ_CNT, 7, 0⟩
def ENG_FQ_TXCNT_REFUSED : FRef := ⟨.ENG_FQ_TXCNT, 31, 16⟩
def ENG_FQ_TXCNT_INVALID : FRef := ⟨.ENG_FQ_TXCNT, 15, 0⟩
def ENG_CORE_CMD_OP : FRef := ⟨.ENG_CORE_CMD, 1, 0⟩
def ENG_CORE_STS_INIT : FRef := ⟨.ENG_CORE_STS, 10, 10⟩
def ENG_CORE_STS_FREE : FRef := ⟨.ENG_CORE_STS, 9, 9⟩
def ENG_CORE_STS_OOS : FRef := ⟨.ENG_CORE_STS, 8, 8⟩
def ENG_CORE_STS_CLUSTER : FRef := ⟨.ENG_CORE_STS, 3, 0⟩
def ENG_FQ_ETYPE_EN : FRef := ⟨.ENG_FQ_ETYPE, 31, 31⟩
def ENG_FQ_ETYPE_CLUSTER : FRef := ⟨.ENG_FQ_ETYPE, 19, 16⟩
def ENG_FQ_ETYPE_ETYPE : FRef := ⟨.ENG_FQ_ETYPE, 15, 0⟩
def ENG_FQ_STEER_EN : FRef := ⟨.ENG_FQ_STEER, 7, 7⟩
def ENG_FQ_STEER_CLUSTER : FRef := ⟨.ENG_FQ_STEER, 3, 0⟩
def ENG_FQ_NOSTEER_COUNT : FRef := ⟨.ENG_FQ_NOSTEER, 31, 0⟩
def ENG_MIG_STS_RESULT : FRef := ⟨.ENG_MIG_STS, 31, 28⟩
def ENG_MIG_STS_CLUSTER : FRef := ⟨.ENG_MIG_STS, 23, 20⟩
def ENG_MIG_STS_FROM : FRef := ⟨.ENG_MIG_STS, 19, 16⟩
def ENG_MIG_STS_TO : FRef := ⟨.ENG_MIG_STS, 15, 12⟩
def ENG_MIG_STS_TIME : FRef := ⟨.ENG_MIG_STS, 11, 0⟩
def ENG_LOCK_FORCE_LOCK : FRef := ⟨.ENG_LOCK_FORCE, 5, 0⟩
def ENG_LOCK_CNT_BAD : FRef := ⟨.ENG_LOCK_CNT, 31, 16⟩
def ENG_LOCK_CNT_FREED : FRef := ⟨.ENG_LOCK_CNT, 15, 0⟩
def MBX_CFG_EN : FRef := ⟨.MBX_CFG, 31, 31⟩
def MBX_CFG_SOFT : FRef := ⟨.MBX_CFG, 30, 30⟩
def MBX_CFG_RCV : FRef := ⟨.MBX_CFG, 12, 8⟩
def MBX_CFG_SND : FRef := ⟨.MBX_CFG, 4, 0⟩
def MBX_HOST_PTR_PTR : FRef := ⟨.MBX_HOST_PTR, 31, 0⟩
def MBX_HOST_RX_LO_RX : FRef := ⟨.MBX_HOST_RX_LO, 31, 0⟩
def MBX_HOST_RX_HI_RX : FRef := ⟨.MBX_HOST_RX_HI, 31, 0⟩
def MBX_HOST_ACK_LO_ACK : FRef := ⟨.MBX_HOST_ACK_LO, 31, 0⟩
def MBX_HOST_ACK_HI_ACK : FRef := ⟨.MBX_HOST_ACK_HI, 31, 0⟩
def MBX_STS_VALID : FRef := ⟨.MBX_STS, 31, 31⟩
def MBX_STS_COLL : FRef := ⟨.MBX_STS, 30, 30⟩
def MBX_STS_ACK_VALID : FRef := ⟨.MBX_STS, 29, 29⟩
def MBX_STS_ACK_COLL : FRef := ⟨.MBX_STS, 28, 28⟩
def MBX_STS_AGE : FRef := ⟨.MBX_STS, 23, 0⟩
def MBX_PTR_PTR : FRef := ⟨.MBX_PTR, 31, 0⟩
def MBX_INFO_CODE : FRef := ⟨.MBX_INFO, 31, 16⟩
def MBX_INFO_TAG : FRef := ⟨.MBX_INFO, 15, 0⟩
def MBX_CMD_DATA : FRef := ⟨.MBX_CMD, 31, 16⟩
def MBX_CMD_OP : FRef := ⟨.MBX_CMD, 2, 0⟩
def RIL_SYNC_LO_E : FRef := ⟨.RIL_SYNC_LO, 31, 0⟩
def RIL_SYNC_CMD_OP : FRef := ⟨.RIL_SYNC_CMD, 31, 30⟩
def RIL_SYNC_CMD_E : FRef := ⟨.RIL_SYNC_CMD, 15, 0⟩
def RIL_GRP_CMD_OP : FRef := ⟨.RIL_GRP_CMD, 31, 30⟩
def RIL_GRP_CMD_GRP : FRef := ⟨.RIL_GRP_CMD, 3, 0⟩
def RIL_GRP_STS_OOS : FRef := ⟨.RIL_GRP_STS, 11, 0⟩
def RIL_PIN_PULL : FRef := ⟨.RIL_PIN, 9, 8⟩
def RIL_PIN_FILT : FRef := ⟨.RIL_PIN, 7, 0⟩
def RIL_ECFG_CYC_SYNC : FRef := ⟨.RIL_ECFG, 31, 31⟩
def RIL_ECFG_IN_SHR : FRef := ⟨.RIL_ECFG, 30, 30⟩
def RIL_ECFG_OUT_SHR : FRef := ⟨.RIL_ECFG, 29, 29⟩
def RIL_ECFG_TS_TB : FRef := ⟨.RIL_ECFG, 27, 25⟩
def RIL_ECFG_ENTRY : FRef := ⟨.RIL_ECFG, 24, 20⟩
def RIL_ECFG_RXT : FRef := ⟨.RIL_ECFG, 19, 17⟩
def RIL_ECFG_TXT : FRef := ⟨.RIL_ECFG, 16, 14⟩
def RIL_ECFG_RESAMPLE : FRef := ⟨.RIL_ECFG, 13, 4⟩
def RIL_DIV_INT : FRef := ⟨.RIL_DIV, 23, 8⟩
def RIL_DIV_FRAC : FRef := ⟨.RIL_DIV, 7, 0⟩
def RIL_CMP_VAL_VAL : FRef := ⟨.RIL_CMP_VAL, 31, 0⟩
def RIL_CMP_MASK_MASK : FRef := ⟨.RIL_CMP_MASK, 31, 0⟩
def RIL_CTL_FLUSH : FRef := ⟨.RIL_CTL, 3, 3⟩
def RIL_CTL_CLR_SR : FRef := ⟨.RIL_CTL, 2, 2⟩
def RIL_CTL_STOP : FRef := ⟨.RIL_CTL, 1, 1⟩
def RIL_CTL_START : FRef := ⟨.RIL_CTL, 0, 0⟩
def RIL_STS_PROG_REJ : FRef := ⟨.RIL_STS, 31, 31⟩
def RIL_STS_FAULT : FRef := ⟨.RIL_STS, 30, 30⟩
def RIL_STS_REUSED : FRef := ⟨.RIL_STS, 29, 29⟩
def RIL_STS_CMP_EV : FRef := ⟨.RIL_STS, 28, 28⟩
def RIL_STS_DONE : FRef := ⟨.RIL_STS, 27, 27⟩
def RIL_STS_PC : FRef := ⟨.RIL_STS, 20, 16⟩
def RIL_STS_RXL : FRef := ⟨.RIL_STS, 15, 13⟩
def RIL_STS_TXL : FRef := ⟨.RIL_STS, 12, 10⟩
def RIL_STS_CMP : FRef := ⟨.RIL_STS, 9, 9⟩
def RIL_STS_WAITING : FRef := ⟨.RIL_STS, 8, 8⟩
def RIL_STS_BC : FRef := ⟨.RIL_STS, 7, 2⟩
def RIL_STS_STATE : FRef := ⟨.RIL_STS, 1, 0⟩
def RIL_SR_SR : FRef := ⟨.RIL_SR, 31, 0⟩
def RIL_CTR_CTR : FRef := ⟨.RIL_CTR, 15, 0⟩
def RIL_TS_NS_NS : FRef := ⟨.RIL_TS_NS, 31, 0⟩
def RIL_TS_FRAC_VALID : FRef := ⟨.RIL_TS_FRAC, 31, 31⟩
def RIL_TS_FRAC_FRAC : FRef := ⟨.RIL_TS_FRAC, 15, 0⟩
def RIL_CNT_FRAME_ERR : FRef := ⟨.RIL_CNT, 31, 24⟩
def RIL_CNT_RESAMPLE_OK : FRef := ⟨.RIL_CNT, 23, 16⟩
def RIL_CNT_RX_OVF : FRef := ⟨.RIL_CNT, 15, 8⟩
def RIL_CNT_SYNC_MISS : FRef := ⟨.RIL_CNT, 7, 0⟩
def RIL_LAST_LAST : FRef := ⟨.RIL_LAST, 31, 0⟩
def RIL_SLOT_EN : FRef := ⟨.RIL_SLOT, 31, 31⟩
def RIL_SLOT_OUT : FRef := ⟨.RIL_SLOT, 30, 30⟩
def RIL_SLOT_OE_INIT : FRef := ⟨.RIL_SLOT, 29, 29⟩
def RIL_SLOT_LVL_INIT : FRef := ⟨.RIL_SLOT, 28, 28⟩
def RIL_SLOT_REL_STOP : FRef := ⟨.RIL_SLOT, 27, 27⟩
def RIL_SLOT_PIN : FRef := ⟨.RIL_SLOT, 5, 0⟩
def RIL_PROG_WORD : FRef := ⟨.RIL_PROG, 31, 0⟩
def CAN_CFG_TS_TB : FRef := ⟨.CAN_CFG, 10, 8⟩
def CAN_CFG_LOOP : FRef := ⟨.CAN_CFG, 6, 6⟩
def CAN_CFG_LISTEN : FRef := ⟨.CAN_CFG, 5, 5⟩
def CAN_CFG_PXHD : FRef := ⟨.CAN_CFG, 4, 4⟩
def CAN_CFG_TXP : FRef := ⟨.CAN_CFG, 3, 3⟩
def CAN_CFG_BRSE : FRef := ⟨.CAN_CFG, 2, 2⟩
def CAN_CFG_FDOE : FRef := ⟨.CAN_CFG, 1, 1⟩
def CAN_CFG_EN : FRef := ⟨.CAN_CFG, 0, 0⟩
def CAN_NBT_BRP : FRef := ⟨.CAN_NBT, 31, 23⟩
def CAN_NBT_SEG1 : FRef := ⟨.CAN_NBT, 22, 15⟩
def CAN_NBT_SEG2 : FRef := ⟨.CAN_NBT, 14, 8⟩
def CAN_NBT_SJW : FRef := ⟨.CAN_NBT, 6, 0⟩
def CAN_DBT_BRP : FRef := ⟨.CAN_DBT, 28, 24⟩
def CAN_DBT_TDC : FRef := ⟨.CAN_DBT, 23, 23⟩
def CAN_DBT_SEG1 : FRef := ⟨.CAN_DBT, 20, 16⟩
def CAN_DBT_SEG2 : FRef := ⟨.CAN_DBT, 11, 8⟩
def CAN_DBT_SJW : FRef := ⟨.CAN_DBT, 3, 0⟩
def CAN_TDC_TDCO : FRef := ⟨.CAN_TDC, 22, 16⟩
def CAN_TDC_TDCF : FRef := ⟨.CAN_TDC, 6, 0⟩
def CAN_ACC_NM_X : FRef := ⟨.CAN_ACC, 27, 26⟩
def CAN_ACC_NM_B : FRef := ⟨.CAN_ACC, 25, 24⟩
def CAN_ACC_RMT_X : FRef := ⟨.CAN_ACC, 17, 17⟩
def CAN_ACC_RMT_B : FRef := ⟨.CAN_ACC, 16, 16⟩
def CAN_ACC_NEXT : FRef := ⟨.CAN_ACC, 13, 8⟩
def CAN_ACC_NSTD : FRef := ⟨.CAN_ACC, 6, 0⟩
def CAN_BOFF_WAIT_MS : FRef := ⟨.CAN_BOFF, 13, 0⟩
def CAN_XCH_CFG_EN : FRef := ⟨.CAN_XCH_CFG, 31, 31⟩
def CAN_XCH_CFG_RXN : FRef := ⟨.CAN_XCH_CFG, 27, 26⟩
def CAN_XCH_CFG_RX_THR : FRef := ⟨.CAN_XCH_CFG, 23, 16⟩
def CAN_XCH_CFG_RX_US : FRef := ⟨.CAN_XCH_CFG, 9, 0⟩
def CAN_XCH_BASE_BASE : FRef := ⟨.CAN_XCH_BASE, 20, 6⟩
def CAN_CMD_IN_SERVICE : FRef := ⟨.CAN_CMD, 2, 2⟩
def CAN_CMD_OUT_OF_SERVICE : FRef := ⟨.CAN_CMD, 1, 1⟩
def CAN_CMD_RECOVER : FRef := ⟨.CAN_CMD, 0, 0⟩
def CAN_STS_WARN : FRef := ⟨.CAN_STS, 5, 5⟩
def CAN_STS_FORCED : FRef := ⟨.CAN_STS, 4, 4⟩
def CAN_STS_LISTEN : FRef := ⟨.CAN_STS, 3, 3⟩
def CAN_STS_STATE : FRef := ⟨.CAN_STS, 2, 0⟩
def CAN_ECNT_REC : FRef := ⟨.CAN_ECNT, 23, 16⟩
def CAN_ECNT_TEC : FRef := ⟨.CAN_ECNT, 8, 0⟩
def CAN_TDC_STS_TDCV : FRef := ⟨.CAN_TDC_STS, 6, 0⟩
def CAN_TXREQ_B : FRef := ⟨.CAN_TXREQ, 31, 0⟩
def CAN_TXCAN_B : FRef := ⟨.CAN_TXCAN, 31, 0⟩
def CAN_TXPEND_B : FRef := ⟨.CAN_TXPEND, 31, 0⟩
def CAN_RXF_STS_FILL : FRef := ⟨.CAN_RXF_STS, 22, 16⟩
def CAN_RXF_STS_GET : FRef := ⟨.CAN_RXF_STS, 13, 8⟩
def CAN_RXF_ACK_EL : FRef := ⟨.CAN_RXF_ACK, 5, 0⟩
def CAN_EVF_STS_FILL : FRef := ⟨.CAN_EVF_STS, 21, 16⟩
def CAN_EVF_STS_GET : FRef := ⟨.CAN_EVF_STS, 12, 8⟩
def CAN_EVF_ACK_EL : FRef := ⟨.CAN_EVF_ACK, 4, 0⟩
def CAN_HP_STS_COLL : FRef := ⟨.CAN_HP_STS, 1, 1⟩
def CAN_HP_STS_FULL : FRef := ⟨.CAN_HP_STS, 0, 0⟩
def CAN_HP_ACK_ACK : FRef := ⟨.CAN_HP_ACK, 0, 0⟩
def CAN_RAM_PAGE_PAGE : FRef := ⟨.CAN_RAM_PAGE, 2, 0⟩
def CAN_CNT_COUNT : FRef := ⟨.CAN_CNT, 31, 0⟩
def CAN_RAM_WIN_W : FRef := ⟨.CAN_RAM_WIN, 31, 0⟩
def LOOP_SCFG_MIRROR : FRef := ⟨.LOOP_SCFG, 31, 31⟩
def LOOP_SCFG_AGE_EN : FRef := ⟨.LOOP_SCFG, 30, 30⟩
def LOOP_SCFG_DIVL : FRef := ⟨.LOOP_SCFG, 27, 24⟩
def LOOP_SCFG_PHASE : FRef := ⟨.LOOP_SCFG, 23, 16⟩
def LOOP_IN_ADDR : FRef := ⟨.LOOP_IN, 20, 3⟩
def LOOP_OUT_ADDR : FRef := ⟨.LOOP_OUT, 20, 3⟩
def LOOP_AGE_AGE_MAX : FRef := ⟨.LOOP_AGE, 31, 24⟩
def LOOP_AGE_ADDR : FRef := ⟨.LOOP_AGE, 20, 2⟩
def LOOP_OPT_GSH : FRef := ⟨.LOOP_OPT, 28, 24⟩
def LOOP_OPT_FSH : FRef := ⟨.LOOP_OPT, 20, 16⟩
def LOOP_OPT_REV : FRef := ⟨.LOOP_OPT, 15, 15⟩
def LOOP_OPT_CSH : FRef := ⟨.LOOP_OPT, 12, 8⟩
def LOOP_OPT_COG_SEL : FRef := ⟨.LOOP_OPT, 7, 4⟩
def LOOP_OPT_MAN_TRACK : FRef := ⟨.LOOP_OPT, 3, 3⟩
def LOOP_OPT_CG_EN : FRef := ⟨.LOOP_OPT, 2, 2⟩
def LOOP_OPT_FR_EN : FRef := ⟨.LOOP_OPT, 1, 1⟩
def LOOP_OPT_D_EN : FRef := ⟨.LOOP_OPT, 0, 0⟩
def LOOP_MODE_MODE : FRef := ⟨.LOOP_MODE, 1, 0⟩
def LOOP_MAN_MAN : FRef := ⟨.LOOP_MAN, 31, 0⟩
def LOOP_KI_KI : FRef := ⟨.LOOP_KI, 31, 0⟩
def LOOP_KD_KD : FRef := ⟨.LOOP_KD, 31, 0⟩
def LOOP_KF_KF : FRef := ⟨.LOOP_KF, 31, 0⟩
def LOOP_IMIN_IMIN : FRef := ⟨.LOOP_IMIN, 31, 0⟩
def LOOP_IMAX_IMAX : FRef := ⟨.LOOP_IMAX, 31, 0⟩
def LOOP_UMIN_UMIN : FRef := ⟨.LOOP_UMIN, 31, 0⟩
def LOOP_UMAX_UMAX : FRef := ⟨.LOOP_UMAX, 31, 0⟩
def LOOP_RMAX_RMAX : FRef := ⟨.LOOP_RMAX, 31, 0⟩
def LOOP_FR_X0_X0 : FRef := ⟨.LOOP_FR_X0, 31, 0⟩
def LOOP_VDB_VDB : FRef := ⟨.LOOP_VDB, 31, 0⟩
def LOOP_CG_X0_X0 : FRef := ⟨.LOOP_CG_X0, 31, 0⟩
def LOOP_SSTS_BUMP : FRef := ⟨.LOOP_SSTS, 31, 31⟩
def LOOP_SSTS_ECC : FRef := ⟨.LOOP_SSTS, 30, 30⟩
def LOOP_SSTS_STALE : FRef := ⟨.LOOP_SSTS, 29, 29⟩
def LOOP_SSTS_HI : FRef := ⟨.LOOP_SSTS, 28, 28⟩
def LOOP_SSTS_LO : FRef := ⟨.LOOP_SSTS, 27, 27⟩
def LOOP_SSTS_FIRST : FRef := ⟨.LOOP_SSTS, 26, 26⟩
def LOOP_SSTS_DIR : FRef := ⟨.LOOP_SSTS, 25, 24⟩
def LOOP_SSTS_MODE : FRef := ⟨.LOOP_SSTS, 1, 0⟩
def LOOP_I_ST_I : FRef := ⟨.LOOP_I_ST, 31, 0⟩
def LOOP_D_ST_D : FRef := ⟨.LOOP_D_ST, 31, 0⟩
def LOOP_U_ST_U : FRef := ⟨.LOOP_U_ST, 31, 0⟩
def LOOP_SAMPLE_SEQ_SEQ : FRef := ⟨.LOOP_SAMPLE_SEQ, 31, 0⟩
def LOOP_SCNT_STALE : FRef := ⟨.LOOP_SCNT, 31, 16⟩
def LOOP_SCNT_BUMP : FRef := ⟨.LOOP_SCNT, 15, 8⟩
def LOOP_GAIN_G : FRef := ⟨.LOOP_GAIN, 31, 0⟩
def LOOP_FRIC_F : FRef := ⟨.LOOP_FRIC, 31, 0⟩
def LOOP_COG_C : FRef := ⟨.LOOP_COG, 31, 0⟩
def LOOP_CFG_EN : FRef := ⟨.LOOP_CFG, 0, 0⟩
def LOOP_COEF_SEQ_SEQ : FRef := ⟨.LOOP_COEF_SEQ, 31, 0⟩
def LOOP_PCMD_EN : FRef := ⟨.LOOP_PCMD, 31, 31⟩
def LOOP_PCMD_ADDR : FRef := ⟨.LOOP_PCMD, 20, 3⟩
def LOOP_PCMD_STS_SEQ : FRef := ⟨.LOOP_PCMD_STS, 31, 24⟩
def LOOP_STS_PASSES : FRef := ⟨.LOOP_STS, 31, 16⟩
def LOOP_STS_RUNNING : FRef := ⟨.LOOP_STS, 15, 15⟩
def LOOP_STS_LAST_CLK : FRef := ⟨.LOOP_STS, 13, 0⟩
def LOOP_CNT_CMD_OK : FRef := ⟨.LOOP_CNT, 31, 16⟩
def LOOP_CNT_CMD_BAD : FRef := ⟨.LOOP_CNT, 15, 0⟩
def BOOT_IMG_CMD_OP : FRef := ⟨.BOOT_IMG_CMD, 31, 30⟩
def BOOT_IMG_CMD_CLUSTER : FRef := ⟨.BOOT_IMG_CMD, 27, 24⟩
def BOOT_IMG_CMD_ADDR : FRef := ⟨.BOOT_IMG_CMD, 20, 12⟩
def BOOT_IMG_STS_BUSY : FRef := ⟨.BOOT_IMG_STS, 31, 31⟩
def BOOT_IMG_STS_CLUSTER : FRef := ⟨.BOOT_IMG_STS, 27, 24⟩
def BOOT_IMG_STS_RESULT : FRef := ⟨.BOOT_IMG_STS, 7, 0⟩
def BOOT_IMG_VER_VER : FRef := ⟨.BOOT_IMG_VER, 31, 0⟩
def CLK_STS_LSE_OK : FRef := ⟨.CLK_STS, 17, 17⟩
def CLK_STS_HSE_OK : FRef := ⟨.CLK_STS, 16, 16⟩
def CLK_STS_FAIL : FRef := ⟨.CLK_STS, 15, 8⟩
def CLK_STS_LOCK : FRef := ⟨.CLK_STS, 7, 0⟩
def CLK_CFG_STOP_UNUSED : FRef := ⟨.CLK_CFG, 7, 4⟩
def CLK_CNT_RELOCK_OK : FRef := ⟨.CLK_CNT, 31, 16⟩
def CLK_CNT_LOCK_FAIL : FRef := ⟨.CLK_CNT, 15, 0⟩
def PWR_CMD_OP : FRef := ⟨.PWR_CMD, 2, 0⟩
def PWR_STS_ALARM : FRef := ⟨.PWR_STS, 31, 31⟩
def PWR_STS_WAKE_SRC : FRef := ⟨.PWR_STS, 22, 16⟩
def PWR_STS_LAST : FRef := ⟨.PWR_STS, 10, 8⟩
def PWR_STS_STATE : FRef := ⟨.PWR_STS, 2, 0⟩
def PWR_WAKE_EN_WAKE_N : FRef := ⟨.PWR_WAKE_EN, 6, 6⟩
def PWR_WAKE_EN_ALARM : FRef := ⟨.PWR_WAKE_EN, 5, 5⟩
def PWR_WAKE_EN_GYS : FRef := ⟨.PWR_WAKE_EN, 4, 4⟩
def PWR_WAKE_EN_RILL : FRef := ⟨.PWR_WAKE_EN, 3, 3⟩
def PWR_WAKE_EN_CAN : FRef := ⟨.PWR_WAKE_EN, 2, 2⟩
def PWR_WAKE_EN_LINK : FRef := ⟨.PWR_WAKE_EN, 1, 1⟩
def PWR_WAKE_PIN_EN1 : FRef := ⟨.PWR_WAKE_PIN, 31, 31⟩
def PWR_WAKE_PIN_RISE1 : FRef := ⟨.PWR_WAKE_PIN, 30, 30⟩
def PWR_WAKE_PIN_PIN1 : FRef := ⟨.PWR_WAKE_PIN, 21, 16⟩
def PWR_WAKE_PIN_EN0 : FRef := ⟨.PWR_WAKE_PIN, 15, 15⟩
def PWR_WAKE_PIN_RISE0 : FRef := ⟨.PWR_WAKE_PIN, 14, 14⟩
def PWR_WAKE_PIN_PIN0 : FRef := ⟨.PWR_WAKE_PIN, 5, 0⟩
def PWR_SEC_SEC : FRef := ⟨.PWR_SEC, 31, 0⟩
def PWR_ALARM_SEC : FRef := ⟨.PWR_ALARM, 31, 0⟩
def PWR_CNT_DOZE : FRef := ⟨.PWR_CNT, 31, 16⟩
def PWR_CNT_SLEEP : FRef := ⟨.PWR_CNT, 15, 0⟩
def MEM_TOKEN_STS_HOLDER : FRef := ⟨.MEM_TOKEN_STS, 31, 28⟩
def MEM_TOKEN_STS_FIFO : FRef := ⟨.MEM_TOKEN_STS, 23, 20⟩
def MEM_TOKEN_CNT_BUSY : FRef := ⟨.MEM_TOKEN_CNT, 31, 16⟩
def MEM_TOKEN_CNT_GRANTS : FRef := ⟨.MEM_TOKEN_CNT, 15, 0⟩
def MEM_BANK_CMD_OP : FRef := ⟨.MEM_BANK_CMD, 31, 28⟩
def MEM_BANK_CMD_M : FRef := ⟨.MEM_BANK_CMD, 5, 0⟩
def MEM_BANK_RES_PENDING : FRef := ⟨.MEM_BANK_RES, 31, 31⟩
def MEM_BANK_RES_RESULT : FRef := ⟨.MEM_BANK_RES, 30, 28⟩
def MEM_BANK_RES_M : FRef := ⟨.MEM_BANK_RES, 5, 0⟩
def MEM_BT_CFG_EN : FRef := ⟨.MEM_BT_CFG, 31, 31⟩
def MEM_BT_CFG_MAX_US : FRef := ⟨.MEM_BT_CFG, 25, 16⟩
def MEM_BT_CFG_PERIOD_US : FRef := ⟨.MEM_BT_CFG, 15, 0⟩
def MEM_BT_STS_SWEEPS : FRef := ⟨.MEM_BT_STS, 31, 16⟩
def MEM_BT_STS_WAITING : FRef := ⟨.MEM_BT_STS, 15, 15⟩
def MEM_BT_STS_RUNNING : FRef := ⟨.MEM_BT_STS, 14, 14⟩
def MEM_BT_STS_M : FRef := ⟨.MEM_BT_STS, 13, 8⟩
def MEM_BT_STS_ROW : FRef := ⟨.MEM_BT_STS, 7, 0⟩
def MEM_BT_CMD_OP : FRef := ⟨.MEM_BT_CMD, 31, 30⟩
def MEM_BT_CMD_M : FRef := ⟨.MEM_BT_CMD, 13, 8⟩
def MEM_BT_CMD_ROW : FRef := ⟨.MEM_BT_CMD, 7, 0⟩
def MEM_BT_CNT_RETRY_OK : FRef := ⟨.MEM_BT_CNT, 31, 24⟩
def MEM_BT_CNT_REPAIRED : FRef := ⟨.MEM_BT_CNT, 23, 16⟩
def MEM_BT_CNT_REPAIR_FAIL : FRef := ⟨.MEM_BT_CNT, 15, 8⟩
def MEM_BT_CNT_ABORT : FRef := ⟨.MEM_BT_CNT, 7, 0⟩
def MEM_REP_CFG_REP_WIN_S : FRef := ⟨.MEM_REP_CFG, 15, 8⟩
def MEM_REP_CFG_REP_THR : FRef := ⟨.MEM_REP_CFG, 7, 0⟩
def MEM_ATOM_ADDR_ADDR : FRef := ⟨.MEM_ATOM_ADDR, 20, 2⟩
def MEM_ATOM_DATA_DATA : FRef := ⟨.MEM_ATOM_DATA, 31, 0⟩
def MEM_ATOM_CMD_OP : FRef := ⟨.MEM_ATOM_CMD, 1, 0⟩
def MEM_ATOM_RES_RES : FRef := ⟨.MEM_ATOM_RES, 31, 0⟩
def MEM_MIRROR_WREJ_COUNT : FRef := ⟨.MEM_MIRROR_WREJ, 31, 0⟩
def MEM_ECC_CNT_TRANSIENT : FRef := ⟨.MEM_ECC_CNT, 31, 16⟩
def MEM_ECC_CNT_STORED : FRef := ⟨.MEM_ECC_CNT, 15, 8⟩
def MEM_ECC_CNT_SUSPECT_LOST : FRef := ⟨.MEM_ECC_CNT, 7, 0⟩
def MEM_UNCORR_CNT_RETRY_OK : FRef := ⟨.MEM_UNCORR_CNT, 31, 16⟩
def MEM_UNCORR_CNT_FAIL : FRef := ⟨.MEM_UNCORR_CNT, 15, 0⟩
def MEM_OFF_ACC_COUNT : FRef := ⟨.MEM_OFF_ACC, 31, 0⟩
def MEM_BANK_STS_PRESENT : FRef := ⟨.MEM_BANK_STS, 31, 31⟩
def MEM_BANK_STS_STATE : FRef := ⟨.MEM_BANK_STS, 30, 28⟩
def MEM_BANK_STS_SPARES : FRef := ⟨.MEM_BANK_STS, 27, 24⟩
def MEM_BANK_STS_ROWS : FRef := ⟨.MEM_BANK_STS, 8, 0⟩
def MEM_SPARE_VALID : FRef := ⟨.MEM_SPARE, 31, 31⟩
def MEM_SPARE_ROW : FRef := ⟨.MEM_SPARE, 7, 0⟩
def MEM_LOCK_W : FRef := ⟨.MEM_LOCK, 31, 0⟩
def TPH_STS_FROZEN : FRef := ⟨.TPH_STS, 31, 31⟩
def TPH_STS_FATAL : FRef := ⟨.TPH_STS, 30, 30⟩
def TPH_STS_ECC : FRef := ⟨.TPH_STS, 29, 29⟩
def TPH_STS_DROPPED : FRef := ⟨.TPH_STS, 15, 0⟩
def TPH_TOTAL_TOTAL : FRef := ⟨.TPH_TOTAL, 31, 0⟩
def TPH_FREEZE_SEQ_SEQ : FRef := ⟨.TPH_FREEZE_SEQ, 31, 0⟩
def TPH_CMD_FREEZE : FRef := ⟨.TPH_CMD, 2, 2⟩
def TPH_CMD_CLEAR : FRef := ⟨.TPH_CMD, 1, 1⟩
def TPH_CMD_RELEASE : FRef := ⟨.TPH_CMD, 0, 0⟩
def TPH_PAGE_PAGE : FRef := ⟨.TPH_PAGE, 4, 0⟩
def TPH_WDG_CFG_EN : FRef := ⟨.TPH_WDG_CFG, 31, 31⟩
def TPH_WDG_CFG_HOST : FRef := ⟨.TPH_WDG_CFG, 30, 30⟩
def TPH_WDG_CFG_AUTO_RESET : FRef := ⟨.TPH_WDG_CFG, 29, 29⟩
def TPH_WDG_CFG_MS : FRef := ⟨.TPH_WDG_CFG, 13, 0⟩
def TPH_WDG_CLU_CLU : FRef := ⟨.TPH_WDG_CLU, 15, 0⟩
def TPH_WDG_KICK_KEY : FRef := ⟨.TPH_WDG_KICK, 7, 0⟩
def TPH_WDG_STS_WARN : FRef := ⟨.TPH_WDG_STS, 31, 31⟩
def TPH_WDG_STS_RUNNING : FRef := ⟨.TPH_WDG_STS, 30, 30⟩
def TPH_WDG_STS_HOST_MET : FRef := ⟨.TPH_WDG_STS, 16, 16⟩
def TPH_WDG_STS_MET : FRef := ⟨.TPH_WDG_STS, 15, 0⟩
def TPH_WIN_W : FRef := ⟨.TPH_WIN, 31, 0⟩
def GLB_RESET_KEY : FRef := ⟨.GLB_RESET, 7, 0⟩
def BOOT_STS_BUSY : FRef := ⟨.BOOT_STS, 31, 31⟩
def BOOT_STS_DIR_B : FRef := ⟨.BOOT_STS, 30, 30⟩
def BOOT_STS_STRAP_BAD : FRef := ⟨.BOOT_STS, 29, 29⟩
def BOOT_STS_NO_KEY : FRef := ⟨.BOOT_STS, 28, 28⟩
def BOOT_STS_STATE : FRef := ⟨.BOOT_STS, 2, 0⟩
def BOOT_STRAP_FLASH_FAST : FRef := ⟨.BOOT_STRAP, 3, 3⟩
def BOOT_STRAP_PAIR_ROLE : FRef := ⟨.BOOT_STRAP, 2, 2⟩
def BOOT_STRAP_BOOT_MODE : FRef := ⟨.BOOT_STRAP, 1, 0⟩
def BOOT_CMD_OP : FRef := ⟨.BOOT_CMD, 31, 28⟩
def BOOT_CMD_ADDR : FRef := ⟨.BOOT_CMD, 20, 8⟩
def BOOT_ERR_VALID : FRef := ⟨.BOOT_ERR, 31, 31⟩
def BOOT_ERR_STAGE : FRef := ⟨.BOOT_ERR, 30, 28⟩
def BOOT_ERR_INDEX : FRef := ⟨.BOOT_ERR, 23, 12⟩
def BOOT_ERR_STATUS : FRef := ⟨.BOOT_ERR, 7, 0⟩
def BOOT_SET_VER_VER : FRef := ⟨.BOOT_SET_VER, 31, 0⟩
def BOOT_TIME_US : FRef := ⟨.BOOT_TIME, 31, 0⟩
def BOOT_KEY_STS_HELD : FRef := ⟨.BOOT_KEY_STS, 3, 0⟩
def BOOT_FUSE_HASH_HASH : FRef := ⟨.BOOT_FUSE_HASH, 31, 0⟩
def BOOT_FUSE_STS_BUSY : FRef := ⟨.BOOT_FUSE_STS, 31, 31⟩
def BOOT_FUSE_STS_REVOKED : FRef := ⟨.BOOT_FUSE_STS, 7, 4⟩
def BOOT_FUSE_STS_PROG : FRef := ⟨.BOOT_FUSE_STS, 3, 0⟩
def BOOT_FUSE_CMD_OP : FRef := ⟨.BOOT_FUSE_CMD, 31, 28⟩
def BOOT_FUSE_CMD_SLOT : FRef := ⟨.BOOT_FUSE_CMD, 9, 8⟩
def BOOT_FUSE_CMD_KEY : FRef := ⟨.BOOT_FUSE_CMD, 7, 0⟩
def BOOT_FUSE_DATA_HASH : FRef := ⟨.BOOT_FUSE_DATA, 31, 0⟩

end Sys2Proof.Machine.Fx
end

