-- ==== Sys2Proof/Machine/State.lean ====
section
/-!
DEFINITION. The state of the device as plain data: everything the spec gives it, unit by unit, and its
value right after reset. Registers that software reads and writes whole are held in `State.regs`, one
sparse list keyed by the BAR0 offset (an unlisted register holds its reset value); the state behind
registers that the device computes is held in the structures below.
-/
namespace Sys2Proof.Machine
open Sys2Proof

/-- Why the machine stops. No meaning of this block raises one: every rule of the spec gives an effect
(a rejected write, a counter, a status), so the type has a single constructor that nothing raises (safe). -/
inductive Fault where
  /-- Raised by nobody: the spec gives every command an effect. Safe. -/
  | never
  deriving DecidableEq, Repr

/-- Why a command has no meaning. -/
inductive Refusal where
  /-- The command of this mnemonic has no meaning yet: raised by its arm of `exec` only. Safe. -/
  | notModelled (mnemonic : String)
  deriving DecidableEq, Repr

/-- What every meaning answers. -/
abbrev Out (σ : Type) := Host.Outcome σ Fault Refusal

/-- What the device sends to the world outside it, in the order it sends it (log entry 2). -/
inductive Output where
  /-- A DMA write of these bytes to host memory (R54). -/
  | hostWrite (addr : Nat) (data : List Byte)
  /-- A DMA read request to host memory: kind 0 poll, 1 descriptor, 2 buffer (Table 02-8, DMA_ERROR). -/
  | hostRead (kind : Nat) (addr : Nat) (len : Nat)
  /-- An MSI-X message (R78, R79). -/
  | msix (vec : Nat) (addr : Nat) (data : Word)
  /-- The data answered to a BAR0 read. -/
  | readData (m : Master) (off : Nat) (width : Nat) (data : Nat)
  /-- The word answered to a read request at a pool bank, at this pool offset (R32). -/
  | poolData (place : PoolPlace) (off : Nat) (data : Nat)
  /-- The data answered to a BAR2 read. -/
  | bar2Data (off : Nat) (data : Nat)
  /-- A frame begins on the wire of a switch port: its bytes without FCS. -/
  | frameStart (sp : Nat) (data : List Byte)
  /-- A frame ends on the wire of a switch port, with a good FCS or a stomp. -/
  | frameEnd (sp : Nat) (stomp : Bool)
  /-- A frame on the wire is preempted. -/
  | preempted (sp : Nat)
  /-- A preempted frame resumes. -/
  | resumed (sp : Nat)
  /-- A verify mPacket (R124). -/
  | verify (sp : Nat)
  /-- A PAUSE frame with this many quanta (R199). -/
  | pauseFrame (sp : Nat) (quanta : Nat)
  /-- A jam after a collision (R181). -/
  | jam (sp : Nat)
  /-- A PLCA beacon (R184). -/
  | beacon (sp : Nat)
  /-- A clause 22 management operation on the MDIO pair (R180). -/
  | mdio (port : Nat) (write : Bool) (phyad : Nat) (regad : Nat) (data : Nat)
  /-- A transit frame leaves a port of P2 to P9, 640 ns after it arrived (R156). -/
  | transit (port : Nat) (data : List Byte) (stomp : Bool)
  /-- A frame on a Geyser channel: its bytes (R251). -/
  | gysFrame (ch : Nat) (data : List Byte)
  /-- A frame on the pairing link of P1 (R290). -/
  | pairFrame (data : List Byte)
  /-- A CAN frame or error frame begins on a bus: the controller and the words sent (R421). -/
  | canFrame (ctl : Nat) (words : List Word)
  /-- A CAN abort or protocol signal: the controller and its kind. -/
  | canSignal (ctl : Nat) (kind : Nat)
  deriving DecidableEq, Repr

/-! ### PCI Express and the host ring manager (spec/02) -/

/-- The PCI Express endpoint: R41, R574, R79. -/
structure Pcie where
  linkUp : Bool
  bme : Bool
  /-- Payload rate of the trained link in kb/s (Table 03-1, SP14). -/
  rateKb : Nat
  /-- The MSI-X table, 256 words, by word index; an unlisted word holds its reset value. -/
  msix : List (Nat × Word)
  pend : BitVec 64
  deriving DecidableEq, Repr

/-- What happened to a frame at one target (R63, R64). -/
inductive TxResult where
  /-- Transmitted: late or not, and its stamp in 1/256 ns when it is valid. -/
  | sent (late : Bool) (stamp : Option Nat)
  /-- Not transmitted, with the status code of Table 02-6. -/
  | unsent (status : Nat)
  deriving DecidableEq, Repr

/-- Where a fetched chain or group of a transmit ring stands. -/
inductive TxPhase where
  /-- A valid chain whose buffers are being read. -/
  | reading
  /-- Offered to the switch: this many targets have not ended yet. -/
  | inSwitch (openTargets : Nat)
  /-- Complete with this status without reaching a target. -/
  | done (status : Nat)
  deriving DecidableEq, Repr

/-- One frame or group of a transmit ring, in ring order: R60, R61. -/
structure TxEntry where
  first : Nat
  descs : List (List Byte)
  phase : TxPhase
  results : List (Nat × TxResult)
  /-- A core request: its address (R353). -/
  addr : Nat
  deriving DecidableEq, Repr

/-- A transmit or receive ring: R45, R82 to R87. -/
structure Ring where
  /-- Consumer index. -/
  cidx : Nat
  /-- Tail taken up at the latest poll. -/
  tail : Nat
  halted : Bool
  cause : Nat
  /-- The shadow word has not been written since the last change of the index. -/
  dirty : Bool
  /-- Counts resets: a frame of an older generation is never written back (R85). -/
  gen : Nat
  /-- Resumed or reset: no descriptor is fetched before the next poll (R84). -/
  await : Bool
  /-- Fetched descriptors not yet grouped into a chain. -/
  prefetch : List (List Byte)
  /-- Chains and groups in ring order, the oldest first. -/
  work : List TxEntry
  /-- Failed attempts of the descriptor fetch and the buffer read under way (R81). -/
  fetchTry : Nat
  bufTry : Nat
  deriving DecidableEq, Repr

/-- An event ring: R46, R75 to R78. -/
structure EvRing where
  pidx : Nat
  head : Nat
  phase : Bool
  halted : Bool
  cause : Nat
  dirty : Bool
  /-- Records dropped since the last EVENTS_LOST, and whether one is owed (R77). -/
  lost : Nat
  owed : Bool
  /-- Unsignalled records, and the TB0 time of the oldest in ns (R78). -/
  unsig : Nat
  oldest : Option Nat
  deriving DecidableEq, Repr

/-- The host ring manager: R41 to R87. -/
structure Hst where
  quiescing : Bool
  quiesced : Bool
  /-- A link or bus mastering has come back, and DMA resumes on the next poll (R41). -/
  dmaOff : Bool
  inFlight : Bool
  pollTry : Nat
  empty : Nat
  idle : Bool
  /-- The doorbell words read at the previous poll, by word number. -/
  db : List (Nat × Word)
  txr : Vector Ring 32
  rxr : Vector Ring 32
  evr : Vector EvRing 16
  deriving DecidableEq, Repr

/-! ### The Confluence switch (spec/03, spec/04) -/

/-- Where a frame came from, for its completion. -/
inductive Origin where
  | wire
  | host (ring : Nat) (gen : Nat) (first : Nat)
  /-- The frame queue of a cluster, its request and the core that ran it. -/
  | core (cluster : Nat) (req : Nat) (core : Nat)
  | gateway
  deriving DecidableEq, Repr

/-- A stored frame: R90, R137, R170. -/
structure Frame where
  fid : Nat
  /-- Bytes from the destination address to the last byte before the FCS, as stored. -/
  data : List Byte
  inp : Nat
  cls : Nat
  vid : Nat
  pcp : Nat
  tagged : Bool
  /-- TB0 in whole microseconds at buffer admission. -/
  admitUs : Nat
  /-- Launch time base and full launch time in ns (R234). -/
  launch : Option (Nat × Int)
  /-- Receive stamp in 1/256 ns of the input's time base, when valid. -/
  stamp : Option Nat
  stampTb : Nat
  /-- Cells written, and cells committed to it and not yet written (R91). -/
  cells : Nat
  commit : Nat
  /-- Its last cell has not been written yet. -/
  writing : Bool
  refc : Nat
  /-- Targets that are to store the frame, enqueued at its end (R147). -/
  stored : List Nat
  /-- Explicit targets (R101): the frame is sent unmodified. -/
  explicit : Bool
  origin : Origin
  /-- Redundancy: the instance whose outputs A and B add a trailer or tag, and its sequence number (R129, R131). -/
  red : Option (Nat × Nat)
  /-- Redundancy: the instance whose trailer or tag is removed at outputs off the pair (R130, R131). -/
  redIn : Option Nat
  /-- Marked by the Eddy audit (R173). -/
  suspect : Bool
  deriving DecidableEq, Repr

/-- A frame read out at SP14, SP15 or SP16, that waits for its delivery: the bytes as sent, its source, the tag control
information under which it was classified, its stamp, and whether an uncorrectable buffer word was met (R69, R73, R359). -/
structure Delivered where
  data : List Byte
  inp : Nat
  core : Nat
  cls : Nat
  tci : Nat
  stamp : Option Nat
  stampTb : Nat
  ecc : Bool
  deriving DecidableEq, Repr

/-- One entry of a class queue: the frame, whether its launch time has been reached (R114), and whether it is cut through. -/
structure QEntry where
  fid : Nat
  ripe : Bool
  cut : Bool
  deriving DecidableEq, Repr

/-- A frame on the wire of an output. -/
structure Sending where
  fid : Nat
  cls : Nat
  cut : Bool
  /-- It will end with a stomp (R151 to R154). -/
  stomp : Bool
  /-- Its class is sent preemptable (R125). -/
  preemptable : Bool
  deriving DecidableEq, Repr

/-- A gate control list of a port and its position: R116 to R123. -/
structure Gate where
  pending : Bool
  /-- ConfigChangeTime in ns on the administrative time base. -/
  cct : Nat
  operEn : Bool
  operTb : Nat
  operCycle : Nat
  operExt : Nat
  /-- Operative entries: interval, operation, gates. -/
  list : List (Nat × Nat × BitVec 8)
  entry : Nat
  /-- Start of the entry in force and of the operative cycle in ns on the operative time base. -/
  entryStart : Nat
  cycleStart : Nat
  /-- The cycle in progress is extended up to the ConfigChangeTime (R118). -/
  extended : Bool
  hold : Bool
  deriving DecidableEq, Repr

/-- One switch output: R94, R114, R124. -/
structure OutPort where
  queues : Vector (List QEntry) 8
  cur : Option Sending
  preempted : Option Sending
  /-- The inter-packet gap after the last frame has not ended. -/
  gap : Bool
  /-- The class of the last frame that started: it counts as on the wire until the gap ends (R115). -/
  lastCls : Nat
  /-- Credits in 2^-16 byte (R115). -/
  credit : Vector Int 8
  /-- Preemption verification: 0 disabled, 1 initial, 2 verifying, 3 succeeded, 4 failed (CFL_FP_STS), and verify mPackets sent. -/
  verify : Nat
  verifyTx : Nat
  deriving DecidableEq, Repr

/-- One switch input. -/
structure InPort where
  /-- The frame arriving: its descriptor when it was admitted, `none` inside when it was discarded. -/
  rx : Option (Option Nat)
  /-- Back-pressure asserted (R99). -/
  bp : Bool
  deriving DecidableEq, Repr

/-- An entry of the forwarding database: spec/03, Forwarding database. -/
structure FdbEntry where
  mac : Nat
  fid : Nat
  ports : Nat
  static : Bool
  age : Nat
  deriving DecidableEq, Repr

/-- A VLAN table entry: R103, R106. -/
structure VlanEntry where
  member : Nat
  untag : Nat
  fid : Nat
  learnDis : Bool
  valid : Bool
  deriving DecidableEq, Repr

/-- A record of the duplicate table: R130 to R132. -/
structure DupEntry where
  inst : Nat
  src : Nat
  seq : Nat
  own : Bool
  /-- Ports it has been sent to on the ring. -/
  sentTo : Nat
  deriving DecidableEq, Repr

/-- An entry of the residue list: R141. -/
structure Residue where
  fid : Nat
  port : Nat
  cls : Nat
  deriving DecidableEq, Repr

/-- A transit window in passage: R155 to R168. -/
structure Transit where
  /-- The frame in passage from A to B and from B to A: its bytes as received and as they leave. -/
  frAB : Option (List Byte × List Byte)
  frBA : Option (List Byte × List Byte)
  deriving DecidableEq, Repr

/-- The switch. -/
structure Cfl where
  frames : List Frame
  freeCells : Nat
  freeFd : Nat
  freeQe : Nat
  inp : Vector InPort 17
  out : Vector OutPort 17
  gate : Vector Gate 14
  /-- Database entries by index 4B + w (R108). -/
  fdb : List (Nat × FdbEntry)
  fdbBusy : Bool
  fdbOp : Nat
  fdbResult : Nat
  fdbIndex : Nat
  /-- Valid VLAN table entries by VID. -/
  vlan : List (Nat × VlanEntry)
  redSeq : Vector Nat 2
  dup : List DupEntry
  residue : List Residue
  /-- Frames sent at SP14 and SP15 and not yet delivered there, oldest first. -/
  sink : Vector (List Delivered) 2
  eddySweeps : Nat
  eddySkip : Nat
  eddyWaiting : Bool
  eddyRunning : Bool
  /-- Cells found owned by nothing at the previous sweep, and reclaimed in the present one. -/
  eddyLeak : Nat
  eddyReclaimed : Nat
  eddyAny : Bool
  tw : Vector Transit 4
  deriving DecidableEq, Repr

/-! ### The MACs (spec/05) -/

/-- A pending MDIO operation: write, PHY address, register, data. -/
structure MdioOp where
  write : Bool
  phyad : Nat
  regad : Nat
  data : Nat
  deriving DecidableEq, Repr

/-- One Ethernet MAC. -/
structure Mac where
  link : Bool
  rate : Nat
  half : Bool
  loop : Bool
  retraining : Bool
  pauseHeld : Bool
  /-- Quanta of the received PAUSE in force. -/
  pauseQuanta : Nat
  /-- PAUSE frames that wait for the frame in transmission: quanta (R199). -/
  pauseDue : List Nat
  collisions : Nat
  backoff : Bool
  /-- Slot times drawn for the back-off: a free value (R181). -/
  backoffSlots : Nat
  /-- The frame and class to be attempted again when the back-off ends (R183). -/
  retry : Option (Nat × Nat)
  txLpi : Bool
  rxLpi : Bool
  waking : Bool
  twForce : Nat
  twNext : Nat
  plcaActive : Bool
  plcaPos : Nat
  /-- Frames sent in the present transmit opportunity, at most MAX_BC + 1 (R184). -/
  plcaSent : Nat
  plcaLoss : Nat
  mdio : Option MdioOp
  /-- This port's operation is the one under way on the shared pair (R180). -/
  mdioActive : Bool
  mdioData : Nat
  /-- The 64-bit counters of Table 05-4 by number, and the high words latched by reads of the low words. -/
  cnt : List (Nat × Nat)
  cntLatch : List (Nat × Nat)
  deriving DecidableEq, Repr

/-! ### Time bases (spec/06) -/

/-- What TB_NOW_SEC and TB_NOW_FRAC hold for one master. -/
structure NowLatch where
  sec : Nat
  frac : Nat
  deriving DecidableEq, Repr

/-- One time base: R206 to R227. -/
structure TimeBase where
  /-- Raw time in units of 2^-32 ns, modulo 2^48 s. -/
  raw : Nat
  /-- Remaining slew in units of 2^-32 ns. -/
  slewRem : Int
  /-- Served offset O in 2^-16 ns, and the part of its next unit already run off (log entry 22). -/
  ofs : Int
  ofsAcc : Nat
  primary : Nat
  oosCmd : Bool
  latchPcie : NowLatch
  latchQspi : NowLatch
  snapRaw : Nat
  snapOfs : Int
  snapPrimary : Nat
  deriving DecidableEq, Repr

/-- A capture unit: entries (time in 2^-16 ns), oldest first, and the latches of TB_CAP. -/
structure Capture where
  fifo : List Nat
  sec : Nat
  frac : Nat
  deriving DecidableEq, Repr

/-- A pulse unit. -/
structure Pulse where
  running : Bool
  active : Bool
  /-- Number of the next active edge. -/
  nextK : Nat
  deriving DecidableEq, Repr

/-! ### Faults and the Tephra log (spec/16) -/

/-- A Tephra entry: Table 16-6. -/
structure TphEntry where
  sec : Nat
  ns : Nat
  code : Nat
  obj : Nat
  cls : Nat
  data : Nat
  deriving DecidableEq, Repr

/-- The Tephra controller and the watchdog. -/
structure Tph where
  total : Nat
  freezeSeq : Nat
  frozen : Bool
  dropped : Nat
  /-- Written entries by index; an unlisted one is 0. -/
  log : List (Nat × TphEntry)
  queue : List TphEntry
  clearing : Bool
  fatal : Bool
  wdgRun : Bool
  warn : Bool
  hostMet : Bool
  cluMet : BitVec 16
  deriving DecidableEq, Repr

/-! ### Power (spec/15) -/

/-- The always-on power state: R499 to R504, R561. -/
structure Pwr where
  sec : Nat
  wakeSrc : Nat
  last : Nat
  /-- 0 ON, 1 ENTERING, 2 DOZE, 3 SLEEP, 4 HIBERNATE. -/
  state : Nat
  /-- The state being entered while ENTERING. -/
  target : Nat
  /-- What entry into DOZE or SLEEP has stopped, to continue at the wake (R503): clusters, Rill engines, Geyser channels. -/
  clusters : List Nat
  engines : List Nat
  channels : List Nat
  /-- Memories that the device state holds in retention (R502, step 7). -/
  retained : List Nat
  /-- The AON island draws from VBAT (R561). -/
  vbat : Bool
  deriving DecidableEq, Repr

def Pwr.reset : Pwr := ⟨0, 0, 0, 0, 0, [], [], [], [], false⟩

/-! ### Clocks (spec/15) -/

/-- The clocks: R494 to R498. Masks by PLL bit of Table 15-3. -/
structure ClkU where
  /-- The 25 MHz crystal runs; 32.768 kHz edges are seen. -/
  hse : Bool
  lse : Bool
  /-- PLLs that have been started and have not failed. -/
  started : Nat
  lock : Nat
  fail : Nat
  /-- PLLs on their second attempt (R496). -/
  second : Nat
  deriving DecidableEq, Repr

/-- At reset nothing runs; step 2 of INIT starts PLL_CORE, PLL_FAB, PLL_TB and PLL_PCIE (Table 17-3). -/
def ClkU.reset : ClkU := ⟨false, false, 15, 0, 0, 0⟩

/-! ### The Geyser bus (spec/07) -/

/-- A channel of the Geyser unit. -/
structure GysCh where
  /-- 0 OFF, 1 follows the node's state, 6 ISOLATED. -/
  mode : Nat
  /-- d_c in 1/256 ns once measured, and good measurements modulo 256 (R268). -/
  meas : Option Nat
  good : Nat
  /-- Slots in which a frame was accepted in this cycle and in the previous one, by slot number. -/
  acc : List Nat
  accPrev : List Nat
  /-- The reference frame of this cycle (R261): its offset e in 1/256 ns, and whether the node was INTEGRATING or SILENT. -/
  ref : Option (Int × Bool)
  /-- The last reference frame came from this channel. -/
  refBit : Bool
  /-- Payloads read for own slots and not yet sent (R252). -/
  fetched : List (Nat × List Byte)
  /-- The delay exchange under way (R267): T1 of the request sent with its responder, T2 of the request received. -/
  t1 : Option (Nat × Nat)
  t2 : Option Nat
  deriving DecidableEq, Repr

/-- A gateway frame being reassembled (R259): FRAME_ID, TOTAL and the bytes held. -/
structure GwRx where
  id : Nat
  total : Nat
  bytes : List Byte
  deriving DecidableEq, Repr

/-- The Geyser unit. -/
structure Gys where
  ch : Vector GysCh 2
  /-- The node-wide state: 1 LISTEN, 2 COLDSTART, 3 INTEGRATING, 4 SYNC, 5 SILENT. -/
  node : Nat
  timer : Bool
  /-- Cycle number, and offset in the cycle in 2^-32 ns. -/
  cyc : Nat
  ofs : Nat
  rate : Int
  /-- The phase correction of this cycle in 2^-32 ns, and how much of it has been run (R263). -/
  corr : Int
  corrDone : Int
  /-- GYS_OFFSET. -/
  lastE : Int
  first : Bool
  goodRun : Nat
  attemptCycles : Nat
  attempts : Nat
  csNs : Nat
  nowOfs : Nat
  /-- A COLDSTART frame is being sent. -/
  csSent : Bool
  /-- A cycle start whose tick has not been issued (R21). -/
  tickDue : Bool
  /-- SP16: the number of the frame in progress, the bytes of it already sent, and the stamp of its first fragment. -/
  gwId : Nat
  gwSent : Nat
  gwStamp : Nat
  gwRx : Vector (Option GwRx) 16
  deriving DecidableEq, Repr

def GysCh.reset : GysCh := ⟨0, none, 0, [], [], none, false, [], none, none⟩
def Gys.reset : Gys :=
  ⟨Vector.replicate 2 GysCh.reset, 1, false, 0, 0, 0, 0, 0, 0, false, 0, 0, 0, 0, 0, false, false, 0, 0, 0, Vector.replicate 16 none⟩

/-! ### The redundant pair (spec/08) -/

/-- The pair unit. -/
structure PairU where
  /-- PAIR_STS.STATE: 0 ISOLATED, 1 SYNCING, 2 STANDBY, 3 ACTIVE, 4 OFF. -/
  st : Nat
  held : Bool
  /-- ALTERNATE. -/
  role : Bool
  hbOut : Bool
  /-- Own 32.768 kHz edges since the last transition of HB_IN, up to 3 (R282). -/
  edges : Nat
  hbLost : Bool
  gysLost : Bool
  /-- Consecutive empty partner heartbeat slots, and whether the heartbeat of the present slot was received (R284). -/
  empty : Nat
  got : Bool
  /-- The partner's last accepted heartbeat: byte 0, state (7 unknown), SNAP_SEQ and EPOCH. -/
  pByte : Nat
  pState : Nat
  pSeq : Nat
  pEpoch : Nat
  epoch : Nat
  /-- SEQ last taken as ACTIVE, last committed otherwise. -/
  seq : Nat
  snapValid : Bool
  clash : Bool
  suspect : Bool
  /-- The snapshot being sent and the bytes of it already sent (R287, R290). -/
  tx : Option (List Byte × Nat)
  /-- The body being received: SEQ, TOTAL and the bytes held (R292). -/
  rx : Option (Nat × Nat × List Byte)
  /-- Checked bodies whose commit has not ended: SEQ and the body (R293). -/
  commits : List (Nat × List Byte)
  /-- Consecutive committed snapshots of the resync, and the SEQ of the last (R295). -/
  resync : Nat
  resSeq : Nat
  /-- A change into ACTIVE waits for the next Geyser cycle start, with its cause (R279). -/
  due : Option Nat
  /-- Ticks since the last commit while the partner shows ACTIVE, up to 9 (Table 08-2, STALE). -/
  stale : Nat
  /-- The handover as ACTIVE: 0 none, 1 requested, 2 proposed, 3 echoed; 4 left, as STANDBY, until the partner shows ACTIVE (R300). -/
  ho : Nat
  hoCycle : Nat
  hoTicks : Nat
  /-- The handover as STANDBY: RDY, and HO_CYCLE echoed. -/
  rdy : Bool
  agreed : Bool
  /-- The hold-off of R301: the second of PWR_SEC at which it expires, and REVERT_REQ. -/
  holdAt : Option Nat
  revert : Bool
  /-- PAIR_TB_DIFF in ns, signed. -/
  tbDiff : Vector Int 8
  /-- TB0 to TB7 in 2^-32 ns at the latest ticks, by Geyser cycle number, the latest first (R294). -/
  tickTb : List (Nat × List Nat)
  deriving DecidableEq, Repr

def PairU.reset : PairU :=
  ⟨4, false, false, false, 0, false, false, 0, false, 0, 7, 0, 0, 0, 0, false, false, false, none, none, [], 0, 0, none, 0, 0, 0, 0,
   false, false, none, false, Vector.replicate 8 0, []⟩

/-- The frame queue of a cluster: R353 to R361. -/
structure FqState where
  /-- Requests in flight, the oldest first; `first` numbers them. -/
  work : List TxEntry
  nextReq : Nat
  /-- An FQTX has returned 1 and no later FQTX has been executed (R357), and line 7 is raised. -/
  refused : Bool
  line7 : Bool
  /-- Free receive buffers in the order they were freed, and buffers with a record not yet read, oldest first. -/
  free : List Nat
  ready : List Nat
  /-- Buffers handed to firmware by FQRX and not yet freed. -/
  held : List Nat
  /-- Frames set aside while the cluster migrates (R360). -/
  aside : List Delivered
  deriving DecidableEq, Repr

def FqState.reset : FqState := ⟨[], 0, false, false, [], [], [], []⟩

/-! ### Memories and the maintenance token (spec/15) -/

/-- Bytes of a memory by offset, addresses rising; an unlisted byte reads 0 (Table 17-3: every memory is initialised to 0). -/
abbrev Cells := List Host.Cell

/-- The maintenance token: R512. Codes of Table 15-6, 0 for none. -/
structure Token where
  holder : Nat
  fifo : List Nat
  deriving DecidableEq, Repr

def Token.reset : Token := ⟨0, []⟩

/-! ### Engine cores (spec/09, spec/10) -/

/-- STATUS of a core: spec/09, Control and status registers. -/
structure CStatus where
  wbot : Nat
  cwp : Nat
  ldepth : Nat
  timedOut : Bool
  exl : Bool
  ie : Bool
  deriving DecidableEq, Repr

/-- One hardware loop level: LCx, LSx and LEx. -/
structure LoopLvl where
  count : Nat
  start : Nat
  last : Nat
  cwp : Nat
  isOpen : Bool
  deriving DecidableEq, Repr

/-- What a core waits for (R327, R328, WAIT). -/
inductive CoreWait where
  | wait
  /-- TBWAIT on a time base up to this time in ns, taken at issue. -/
  | tb (n : Nat) (target : Int)
  /-- RFPUSH of a word to an engine. -/
  | push (e : Nat) (v : Word)
  /-- RFPOP from an engine into a register. -/
  | pop (e : Nat) (rd : Nat)
  deriving DecidableEq, Repr

/-- The context of a cluster: Table 09-10 and the registers of R308 and R309. -/
structure Ctx where
  g : Vector Word 16
  /-- The 16 banks of 8 windowed registers: bank b at 8b. -/
  b : Vector Word 128
  pc : Nat
  st : CStatus
  est : CStatus
  epc : Nat
  erep : Nat
  cause : Word
  badaddr : Nat
  vbase : Nat
  imask : Nat
  /-- Latched lines pending: 0, 1, 2, 10 and 11. -/
  latched : Nat
  timer : Nat
  l0 : LoopLvl
  l1 : LoopLvl
  el0 : LoopLvl
  el1 : LoopLvl
  spillBase : Nat
  spillLimit : Nat
  spillPtr : Nat
  mbtag : Word
  tbns : Word
  tbfrac : Word
  tbsecLo : Word
  tbsecHi : Word
  fifoTo : Nat
  waitTo : Nat
  /-- Core clocks in fifths (one 250 MHz edge is 3.2 of them), and the high words latched by reads of the low ones. -/
  clk5 : Nat
  clkHi : Nat
  instret : Nat
  insHi : Nat
  /-- Repetitions still to run of the instruction at `pc` (R334). -/
  rep : Option Nat
  wait : Option CoreWait
  deriving DecidableEq, Repr

def CStatus.reset : CStatus := ⟨0, 0, 0, false, false, false⟩
def LoopLvl.reset : LoopLvl := ⟨0, 0, 0, 0, false⟩

/-- Core start: R308 and Table 09-10. -/
def Ctx.reset : Ctx where
  g := Vector.replicate 16 0#32
  b := Vector.replicate 128 0#32
  pc := 0
  st := CStatus.reset
  est := CStatus.reset
  epc := 0
  erep := 0
  cause := 0#32
  badaddr := 0
  vbase := 0
  imask := 0
  latched := 0
  timer := 0
  l0 := LoopLvl.reset
  l1 := LoopLvl.reset
  el0 := LoopLvl.reset
  el1 := LoopLvl.reset
  spillBase := 0
  spillLimit := 0
  spillPtr := 0
  mbtag := 0#32
  tbns := 0#32
  tbfrac := 0#32
  tbsecLo := 0#32
  tbsecHi := 0#32
  fifoTo := 0x320
  waitTo := 0x3E8
  clk5 := 0
  clkHi := 0
  instret := 0
  insHi := 0
  rep := none
  wait := none

/-- An engine cluster: R341, R373, R374. -/
structure Clu where
  /-- ENG_STS.STATE: 0 IDLE, 1 RUNNING, 2 STOPPED, 3 HALTED, 4 MIGRATING. -/
  st : Nat
  failed : Bool
  /-- Halted with a restart owed 1 µs after the halt, and restarted within the restart window. -/
  autoDue : Bool
  inWindow : Bool
  /-- An image has been loaded. -/
  loaded : Bool
  /-- The physical core that runs it. -/
  phys : Nat
  migPending : Bool
  /-- The state it had before the migration under way. -/
  migFrom : Nat
  /-- Line 9: a bound Ethernet port has changed its link state (log entry 30). -/
  portLine : Bool
  ctx : Ctx
  deriving DecidableEq, Repr

/-- R341, R382: cluster k is run by Ck. -/
def Clu.reset (k : Nat) : Clu := ⟨0, false, false, false, false, k, false, 0, false, Ctx.reset⟩

/-- A physical core: R314, R381. -/
structure PCore where
  imem : Cells
  dmem : Cells
  oos : Bool
  init : Bool
  deriving DecidableEq, Repr

def PCore.reset : PCore := ⟨[], [], false, false⟩

/-- A migration requested and not complete: R376, R381. The core to be taken out of service after it, when it was requested so. -/
structure MigReq where
  cluster : Nat
  target : Nat
  oosCore : Option Nat
  /-- Under way: the target chosen at the tick. -/
  running : Option Nat
  deriving DecidableEq, Repr

/-- A mailbox: R362 to R364. -/
structure Mbx where
  ptr : Word
  tag : Nat
  valid : Bool
  coll : Bool
  code : Nat
  ackValid : Bool
  ackColl : Bool
  /-- TB0 time in ns of the last send while AGE runs; AGE as it stopped. -/
  ageFrom : Option Nat
  age : Nat
  deriving DecidableEq, Repr

def Mbx.reset : Mbx := ⟨0#32, 0, false, false, 0, false, false, none, 0⟩

/-! ### Rill engines (spec/11) -/

/-- A pin slot: the level and driver state of an output, or released (R398). -/
structure Slot where
  level : Bool
  drive : Bool
  released : Bool
  deriving DecidableEq, Repr

def Slot.reset : Slot := ⟨false, false, true⟩

/-- A Rill engine: R383. -/
structure Ril where
  /-- RIL_STS.STATE: 0 STOPPED, 1 RUNNING, 2 STOPPING, 3 OUT_OF_SERVICE. -/
  st : Nat
  sr : Word
  ctr : Nat
  bc : Nat
  pc : Nat
  last : Word
  slots : Vector Slot 4
  /-- Words toward the engine with the tick count at the push (R394), and toward the core. -/
  tx : List (Word × Nat)
  rx : List Word
  tsNs : Nat
  tsFrac : Nat
  tsValid : Bool
  /-- The divider's accumulator (R385). -/
  acc : Nat
  /-- In AWAIT, or waiting in FETCH or POST. -/
  waiting : Bool
  deriving DecidableEq, Repr

def Ril.reset : Ril :=
  ⟨0, 0#32, 0, 0, 0, 0#32, Vector.replicate 4 Slot.reset, [], [], 0, 0, false, 0, false⟩

/-! ### CAN FD controllers (spec/12) -/

/-- A transmit buffer that is pending: R420 to R423. -/
structure CanBuf where
  b : Nat
  /-- Words 0 to 19 as requested. -/
  words : List Word
  /-- Launch time base and full launch time. -/
  launch : Option (Nat × Int)
  /-- Eligible: without a launch time, or its launch time less the lead has been reached (R421). -/
  ripe : Bool
  /-- A cancel stands against the attempt under way (case 3 of R423), or arrived too late (case 4). -/
  cancel : Bool
  cancelLate : Bool
  deriving DecidableEq, Repr

/-- An attempt on the bus: the buffer, whether its arbitration field has been sent without loss. -/
structure CanTry where
  b : Nat
  won : Bool
  deriving DecidableEq, Repr

/-- A FIFO of the message RAM: its get index and fill level. -/
structure CanFifo where
  get : Nat
  fill : Nat
  deriving DecidableEq, Repr

/-- The core exchange of a controller: Table 12-8. -/
structure CanXch where
  rxProd : Nat
  evProd : Nat
  txqCons : Nat
  hpSeq : Nat
  stateSeq : Nat
  /-- Cluster words as read at the last poll: RX_CONS, EV_CONS, HP_ACK, STATE_ACK. -/
  rxCons : Nat
  evCons : Nat
  hpAck : Nat
  stateAck : Nat
  /-- TB0 time in ns at which each element of the receive ring was written, oldest unconsumed first. -/
  since : List Nat
  /-- Elements written to the FIFOs and not yet copied, in reception order: FIFO number. -/
  order : List Nat
  /-- High-priority element and state change not yet copied. -/
  hpDue : Bool
  deriving DecidableEq, Repr

/-- A CAN FD controller. -/
structure Can where
  /-- CAN_STS.STATE: 0 OFF, 1 INTEGRATING, 2 ERROR_ACTIVE, 3 ERROR_PASSIVE, 4 BUS_OFF, 5 RECOVERING, 6 OUT_OF_SERVICE. -/
  st : Nat
  tec : Nat
  recC : Nat
  tdcv : Nat
  /-- Listen-only forced by the pair unit, and whether it waits for the end of an own frame (R434). -/
  forced : Bool
  forceDue : Bool
  /-- Its release waits for the next start of frame (R434). -/
  relDue : Bool
  /-- OUT_OF_SERVICE waits for the end of the frame being sent (R435). -/
  oosDue : Bool
  /-- TB0 time in ns of the entry into BUS_OFF while no recovery has been started. -/
  busOffAt : Nat
  pend : List CanBuf
  attempt : Option CanTry
  f0 : CanFifo
  f1 : CanFifo
  ev : CanFifo
  hpFull : Bool
  hpColl : Bool
  /-- Message RAM words by word index; an unlisted word is 0. -/
  ram : List (Nat × Word)
  /-- CAN_STS bits 15:0 as last reported (R431). -/
  told : Nat
  x : CanXch
  deriving DecidableEq, Repr

def CanFifo.reset : CanFifo := ⟨0, 0⟩
def CanXch.reset : CanXch := ⟨0, 0, 0, 0, 0, 0, 0, 0, 0, [], [], false⟩
def Can.reset : Can :=
  ⟨0, 0, 0, 0, false, false, false, false, 0, [], none, CanFifo.reset, CanFifo.reset, CanFifo.reset, false, false, [], 0, CanXch.reset⟩

/-! ### The loop engine (spec/13) -/

/-- The state of a loop slot: R452. -/
structure LSlot where
  i : Int
  d : Int
  u : Int
  ePrev : Int
  xPrev : Int
  /-- Mode of the last sample: 0 OFF, 1 MANUAL, 2 AUTO, 3 FREEZE; and `m_prev` of R452. -/
  mode : Nat
  mPrev : Nat
  hi : Bool
  lo : Bool
  /-- Direction of motion: 0 unknown, 1 positive, 2 negative. -/
  dir : Nat
  first : Bool
  resume : Bool
  stale : Bool
  sampleSeq : Nat
  samples : Nat
  deriving DecidableEq, Repr

/-- R462. -/
def LSlot.reset : LSlot := ⟨0, 0, 0, 0, 0, 0, 0, false, false, 0, true, false, false, 0, 0⟩

/-- The loop engine. -/
structure Lp where
  slots : Vector LSlot 64
  coefSeq : Nat
  seq : Nat
  /-- The next pass records the command word's SEQ without applying it (R460). -/
  recordOnly : Bool
  passes : Nat
  lastClk : Nat
  /-- A pass is in progress, up to LOOP_DONE. -/
  running : Bool
  deriving DecidableEq, Repr

def Lp.reset : Lp := ⟨Vector.replicate 64 LSlot.reset, 0, 0, false, 0, 0, false⟩

/-! ### Memory faults, bank commands and the background test (spec/15) -/

/-- A row under test: R506 to R509. -/
structure BtRun where
  m : Nat
  row : Nat
  /-- The March run under way: 1, or 2 for its repetition. -/
  run : Nat
  suspect : Bool
  /-- Why it is tested: 0 the sweep, 1 a suspect row or MEM_BT_CMD ROW, 2 MEM_BT_CMD FULL. -/
  src : Nat
  deriving DecidableEq, Repr

/-- The memory unit: R32 to R34, R487, R490 to R493, R505 to R510. -/
structure MemU where
  /-- Suspect rows that wait for repair, oldest first: memory and row (R487). -/
  suspects : List (Nat × Nat)
  /-- Stored errors by row with the second of PWR_SEC at which each was found (R487): memory, row, second. -/
  stored : List (Nat × Nat × Nat)
  /-- Transient single-bit errors in the present second of PWR_SEC (R517). -/
  sbErr : Nat
  /-- Requests pending at the pool banks, oldest first: bank and request (R32). -/
  reqs : List (Nat × PoolReq)
  /-- The sharer of a place last served at a bank, plus 1, by 32 × bank + place (R34); 0 none. -/
  rot : List (Nat × Nat)
  /-- The bank command that is pending: OP and memory. -/
  bankOp : Option (Nat × Nat)
  bankRes : Nat
  bankMem : Nat
  /-- Background test requests that wait for the token or hold it, in order: a sweep row, or FULL of a memory. -/
  btQ : List (Option Nat)
  btRun : Option BtRun
  /-- The next row of the sweep, and the row named by MEM_BT_CMD ROW. -/
  btNext : Nat × Nat
  btRow : Option (Nat × Nat)
  /-- The next row of a FULL run. -/
  btFull : Nat
  sweeps : Nat
  deriving DecidableEq, Repr

def MemU.reset : MemU := ⟨[], [], 0, [], [], none, 0, 0, [], none, (0, 0), none, 0, 0⟩

/-! ### Profile images and start-up (spec/14, spec/17) -/

/-- A loaded image: R468 to R473. -/
structure Img where
  ver : Nat
  piBase : Nat
  inLen : Nat
  outLen : Nat
  /-- Profile code and load of each instance. -/
  insts : List (Nat × Nat)
  /-- Pool offset and length of each claim. -/
  claims : List (Nat × Nat)
  /-- The Rill engines it programs. -/
  engines : List Nat
  /-- ENG_BIND, ENG_BIND_AUX and ENG_TB_PERM of its BIND section. -/
  bind : Word
  aux : Word
  tbPerm : Word
  deriving DecidableEq, Repr

/-- A requested replacement: R475, R476. -/
structure ImgReq where
  cluster : Nat
  addr : Nat
  /-- The container once it is verified; it waits for its tick. -/
  verified : Option (List Byte)
  deriving DecidableEq, Repr

/-- The start-up unit: R532 to R552. -/
structure BootU where
  /-- BOOT_STS.STATE: 0 INIT, 1 LOADING, 2 HOST, 3 RUN. -/
  st : Nat
  busy : Bool
  /-- Reset has been released and the straps are latched (R534). -/
  released : Bool
  mode : Nat
  role : Bool
  fast : Bool
  /-- Cause of the last reset (Table 17-1). -/
  cause : Nat
  dirB : Bool
  err : Word
  setVer : Nat
  time : Nat
  /-- The key store (R537). -/
  keys : Vector (Option (List Byte)) 4
  /-- The fuses (Table 17-4): hashes as 32 bytes, PROG and REVOKE. -/
  hash : Vector (List Byte) 4
  prog : BitVec 4
  revoked : BitVec 4
  fuseBusy : Bool
  imgs : Vector (Option Img) 16
  req : Option ImgReq
  imgCluster : Nat
  imgResult : Nat
  /-- The flash load: 0 none, 1 waits for a directory, 2 loads containers, 3 applies set-up writes (R541 to R544). -/
  phase : Nat
  /-- Containers still to load: cluster, flash offset and length; the index of the next; set-up writes; AUTO_RUN. -/
  entries : List (Nat × Nat × Nat)
  next : Nat
  setup : List (Nat × Word)
  auto : Bool
  /-- The cluster to which the cycle event of the present tick is not delivered (R476). -/
  skip : Option Nat
  deriving DecidableEq, Repr

/-- The device in INIT, fuses unprogrammed. -/
def BootU.reset : BootU where
  st := 0
  busy := false
  released := false
  mode := 0
  role := false
  fast := false
  cause := 0
  dirB := false
  err := 0#32
  setVer := 0
  time := 0
  keys := Vector.replicate 4 none
  hash := Vector.replicate 4 (List.replicate 32 0#8)
  prog := 0#4
  revoked := 0#4
  fuseBusy := false
  imgs := Vector.replicate 16 none
  req := none
  imgCluster := 0
  imgResult := 0
  phase := 0
  entries := []
  next := 0
  setup := []
  auto := false
  skip := none

/-! ### Reset values of the units -/

/-- spec/01: no tick has been issued. -/
structure Cyc where
  /-- Tick count modulo 65 536 (GLB_CYC_STS.CYCLE). -/
  tick : Nat
  /-- Ticks issued since reset: the tags of R394. -/
  ticks : Nat
  /-- Which steps of Table 01-1 have acted in the present cycle (R573). -/
  rillDone : Bool
  coreDone : Bool
  loopDone : Bool
  deriving DecidableEq, Repr

def Cyc.reset : Cyc := ⟨0, 0, false, false, false⟩

/-- The link is down and Bus Master Enable is 0 until the host sets them. -/
def Pcie.reset : Pcie := ⟨false, false, 15750000, [], 0⟩

def Ring.reset : Ring := ⟨0, 0, false, 0, false, 0, false, [], [], 0, 0⟩

def EvRing.reset : EvRing := ⟨0, 0, true, false, 0, false, 0, false, 0, none⟩

def Hst.reset : Hst :=
  ⟨false, false, false, false, 0, 0, false, [], Vector.replicate 32 Ring.reset, Vector.replicate 32 Ring.reset,
   Vector.replicate 16 EvRing.reset⟩

/-- R120: the operative list at reset. -/
def Gate.reset : Gate := ⟨false, 0, false, 1, 1000000, 0, [(0, 0, 0)], 0, 0, 0, false, false⟩

def OutPort.reset : OutPort := ⟨Vector.replicate 8 [], none, none, false, 0, Vector.replicate 8 0, 0, 0⟩

/-- The switch ports present on a variant (Table 00-1), as a mask. -/
def presentSp : Variant → Nat
  | .lx1608 => 0x1FFFC
  | _ => 0x1FFFF

/-- R106, R120 and the reset values of spec/03 and spec/04. -/
def Cfl.reset (v : Variant) : Cfl where
  frames := []
  freeCells := 32768
  freeFd := 16384
  freeQe := 32768
  inp := Vector.replicate 17 ⟨none, false⟩
  out := Vector.replicate 17 OutPort.reset
  gate := Vector.replicate 14 Gate.reset
  fdb := []
  fdbBusy := false
  fdbOp := 0
  fdbResult := 0
  fdbIndex := 0
  vlan := [(1, ⟨presentSp v, presentSp v, 1, false, true⟩)]
  redSeq := Vector.replicate 2 0
  dup := []
  residue := []
  sink := Vector.replicate 2 []
  eddySweeps := 0
  eddySkip := 0
  eddyWaiting := false
  eddyRunning := false
  eddyLeak := 0
  eddyReclaimed := 0
  eddyAny := false
  tw := Vector.replicate 4 ⟨none, none⟩

/-- Table 05-5: TW_TX is 30 µs at reset. -/
def Mac.reset (_p : Nat) : Mac where
  link := false
  rate := 0
  half := false
  loop := false
  retraining := false
  pauseHeld := false
  pauseQuanta := 0
  pauseDue := []
  collisions := 0
  backoff := false
  backoffSlots := 0
  retry := none
  txLpi := false
  rxLpi := false
  waking := false
  twForce := 30
  twNext := 30
  plcaActive := false
  plcaPos := 0
  plcaSent := 0
  plcaLoss := 0
  mdio := none
  mdioActive := false
  mdioData := 0
  cnt := []
  cntLatch := []

/-- R209. -/
def TimeBase.reset (n : Nat) : TimeBase := ⟨0, 0, 0, 0, n, false, ⟨0, 0⟩, ⟨0, 0⟩, 0, 0, 0⟩

def Capture.reset : Capture := ⟨[], 0, 0⟩

def Pulse.reset : Pulse := ⟨false, false, 0⟩

/-- First VBAT (R531). -/
def Tph.reset : Tph := ⟨0, 0, false, 0, [], [], false, false, false, false, false, 0⟩

/-! ### The state -/

/-- The whole device. -/
structure State where
  /-- The variant (R1); at reset LX2416: DESIGN CHOICE, log entry 5. -/
  variant : Variant
  /-- The held registers that differ from their reset value, by BAR0 offset. -/
  regs : List (Nat × Word)
  /-- GLB_SETUP_LOCK.LOCK (R18). -/
  lock : Bool
  /-- The cycle (spec/01). -/
  cyc : Cyc
  /-- The PCI Express endpoint. -/
  pcie : Pcie
  /-- The host ring manager. -/
  hst : Hst
  /-- The switch. -/
  cfl : Cfl
  /-- The MACs of P0 to P13. -/
  mac : Vector Mac 14
  /-- The time bases. -/
  tb : Vector TimeBase 8
  /-- The capture units. -/
  cap : Vector Capture 4
  /-- The pulse units. -/
  pls : Vector Pulse 4
  /-- The Geyser unit. -/
  gys : Gys
  /-- The pair unit. -/
  pair : PairU
  /-- The frame queues of the clusters. -/
  fq : Vector FqState 16
  /-- The engine clusters. -/
  clu : Vector Clu 16
  /-- The physical cores. -/
  core : Vector PCore 16
  /-- Migrations requested, in the order of their requests. -/
  mig : List MigReq
  /-- The mailboxes. -/
  mbx : Vector Mbx 64
  /-- The locks LK0 to LK63 (R368). -/
  lck : Vector Nat 64
  /-- The Rill engines. -/
  ril : Vector Ril 48
  /-- RIL_SYNC_LO, held for the next RIL_SYNC_CMD. -/
  rilSyncLo : Nat
  /-- The CAN FD controllers. -/
  can : Vector Can 4
  /-- The loop engine. -/
  lp : Lp
  /-- The pool, 2 MiB (R32, R484). -/
  pool : Cells
  /-- State of each memory: 0 ON, 1 RET, 2 OFF, 3 OOS, 4 WAKING (R490). -/
  bank : Vector Nat 64
  /-- The memory unit. -/
  mem : MemU
  /-- The maintenance token. -/
  tok : Token
  /-- The crystals and PLLs. -/
  clk : ClkU
  /-- The power state. -/
  pwr : Pwr
  /-- The start-up unit, the fuses and the loaded images. -/
  boot : BootU
  /-- The Tephra controller and the watchdog. -/
  tph : Tph
  /-- The model's own: selects the next free value (log entry 3). -/
  freeCtr : Nat
  /-- The model's own: what the device has sent, oldest first (log entry 2). -/
  out : List Output
  /-- The queue of commands, first in, first out. -/
  pending : List Instr
  deriving DecidableEq, Repr

/-- The device at the release of reset (R534): every register at its reset value, no program or image loaded, INIT begun. -/
def State.reset : State where
  variant := .lx2416
  regs := []
  lock := false
  cyc := Cyc.reset
  pcie := Pcie.reset
  hst := Hst.reset
  cfl := Cfl.reset .lx2416
  mac := Vector.ofFn (fun p => Mac.reset p.val)
  tb := Vector.ofFn (fun n => TimeBase.reset n.val)
  cap := Vector.replicate 4 Capture.reset
  pls := Vector.replicate 4 Pulse.reset
  gys := Gys.reset
  pair := PairU.reset
  fq := Vector.replicate 16 FqState.reset
  clu := Vector.ofFn (fun k => Clu.reset k.val)
  core := Vector.replicate 16 PCore.reset
  mig := []
  mbx := Vector.replicate 64 Mbx.reset
  lck := Vector.replicate 64 0
  ril := Vector.replicate 48 Ril.reset
  rilSyncLo := 0
  can := Vector.replicate 4 Can.reset
  lp := Lp.reset
  pool := []
  bank := Vector.replicate 64 0
  mem := MemU.reset
  tok := Token.reset
  clk := ClkU.reset
  pwr := Pwr.reset
  boot := BootU.reset
  tph := Tph.reset
  freeCtr := 0
  out := []
  pending := []

end Sys2Proof.Machine
end

