-- ==== Sys2Proof/Machine/Ops.lean ====
section
/-!
DEFINITION. The named operations over registers, memories and units that the meanings share: sparse maps,
register fields, the checks of a register write (R11 to R19), times (R206 to R232), the Tephra queue
(R526 to R528), events and MSI-X (R75 to R80).
-/
namespace Sys2Proof

/-! ### Variants (Table 00-1) -/

/-- Number of cores. -/
def Variant.cores : Variant → Nat
  | .lx2416 => 16
  | .lx2412 => 12
  | .lx1608 => 8

/-- Number of loop slots. -/
def Variant.slots : Variant → Nat
  | .lx2416 => 64
  | .lx2412 => 32
  | .lx1608 => 0

/-- Number of Rill engines. -/
def Variant.engines : Variant → Nat
  | .lx1608 => 24
  | _ => 48

/-- Whether P0, P1, the pair unit, the loop engine and Geyser channel B are present. -/
def Variant.full : Variant → Bool
  | .lx1608 => false
  | _ => true

/-- A field port or switch port is present (FEAT_PORT_MAP; SP14 to SP16 always). -/
def Variant.hasPort (v : Variant) (p : Nat) : Bool := v.full || decide (2 ≤ p)

/-- A Geyser channel is present. -/
def Variant.hasCh (v : Variant) (c : Nat) : Bool := v.full || c == 0

end Sys2Proof

namespace Sys2Proof.Machine
open Sys2Proof

/-! ### Sparse maps: keys strictly rising, no entry equal to what an unlisted key reads as -/

/-- The value at key `k`; `d` is what an unlisted key reads as. -/
def sget {β : Type} (d : β) (k : Nat) : List (Nat × β) → β
  | [] => d
  | (a, v) :: t => if k < a then d else if a = k then v else sget d k t

/-- Write `v` at key `k`, keeping the canonical form. -/
def sput {β : Type} [DecidableEq β] (d : β) (k : Nat) (v : β) : List (Nat × β) → List (Nat × β)
  | [] => if v = d then [] else [(k, v)]
  | (a, w) :: t =>
    if k < a then (if v = d then (a, w) :: t else (k, v) :: (a, w) :: t)
    else if a = k then (if v = d then t else (k, v) :: t)
    else (a, w) :: sput d k v t

/-- Keys strictly rising from `lo` on, and no entry equal to the default (DESIGN CHOICE, log entry 8). -/
def scanon {β : Type} [DecidableEq β] (d : β) (lo : Nat) : List (Nat × β) → Bool
  | [] => true
  | (a, v) :: t => decide (lo ≤ a) && decide (v ≠ d) && scanon d (a + 1) t

/-- The entry of `k`, for maps whose unlisted keys hold nothing. -/
def sfind {β : Type} (k : Nat) : List (Nat × β) → Option β
  | [] => none
  | (a, v) :: t => if a = k then some v else sfind k t

/-- Insert or replace the entry of `k`, keys rising. -/
def sins {β : Type} (k : Nat) (v : β) : List (Nat × β) → List (Nat × β)
  | [] => [(k, v)]
  | (a, w) :: t => if k < a then (k, v) :: (a, w) :: t else if a = k then (k, v) :: t else (a, w) :: sins k v t

/-- Remove the entry of `k`. -/
def sdel {β : Type} (k : Nat) (l : List (Nat × β)) : List (Nat × β) := l.filter (fun e => e.1 != k)

/-! ### Vectors by a plain index -/

/-- Replace element `i` by `f` of it; nothing outside the vector. -/
def vupd {α : Type} {n : Nat} (v : Vector α n) (i : Nat) (f : α → α) : Vector α n :=
  if h : i < n then v.set i (f v[i]) h else v

/-! ### Register words and fields -/

/-- Bits `hi` to `lo` of a word as a number. -/
def bits (w : Word) (hi lo : Nat) : Nat := (w.toNat / 2 ^ lo) % 2 ^ (hi + 1 - lo)

/-- A word with bits `hi` to `lo` replaced by `v`. -/
def putBits (w : Word) (hi lo v : Nat) : Word :=
  BitVec.ofNat 32 (w.toNat - bits w hi lo * 2 ^ lo + (v % 2 ^ (hi + 1 - lo)) * 2 ^ lo)

/-- The BAR0 offset of a register's word. -/
def RegId.addr (r : RegId) (i j : Nat) : Nat := r.defn.base + r.defn.s1 * i + r.defn.s2 * j

/-- The held value of a register. -/
def State.rg (s : State) (r : RegId) (i : Nat := 0) (j : Nat := 0) : Word :=
  sget (r.resetValue i) (r.addr i j) s.regs

/-- Set the held value of a register. -/
def State.sg (s : State) (r : RegId) (i j : Nat) (v : Word) : State :=
  { s with regs := sput (r.resetValue i) (r.addr i j) v s.regs }

/-- A field of a register, as a number. -/
def State.rf (s : State) (x : FRef) (i : Nat := 0) (j : Nat := 0) : Nat := bits (s.rg x.id i j) x.hi x.lo

/-- A one-bit field of a register. -/
def State.rb (s : State) (x : FRef) (i : Nat := 0) (j : Nat := 0) : Bool := s.rf x i j == 1

/-- Set a field of a register. -/
def State.wf (s : State) (x : FRef) (v : Nat) (i : Nat := 0) (j : Nat := 0) : State :=
  s.sg x.id i j (putBits (s.rg x.id i j) x.hi x.lo v)

/-- Add to a counter field, saturating at its largest value. -/
def State.bump (s : State) (x : FRef) (n : Nat := 1) (i : Nat := 0) (j : Nat := 0) : State :=
  s.wf x (min (s.rf x i j + n) (2 ^ (x.hi + 1 - x.lo) - 1)) i j

/-- Append something the device sends (DESIGN CHOICE, log entry 2). -/
def State.emit (s : State) (o : Output) : State := { s with out := s.out ++ [o] }

/-- The next free value (log entry 3). -/
def State.freeVal (s : State) : Word := Config.freeValue s.freeCtr

/-- Advance to the next free value (DESIGN CHOICE, log entry 3). -/
def State.freeNext (s : State) : State := { s with freeCtr := s.freeCtr + 1 }

/-- R6: the register belongs to an absent unit (DEDUCED, log entries 67 and 202). -/
def absentReg (v : Variant) (r : RegId) (i : Nat) : Bool :=
  match r.defn.owner with
  | .always => false
  | .sp => !v.hasPort i
  | .port => !v.hasPort i
  | .core => decide (v.cores ≤ i)
  | .eng => decide (v.engines ≤ i)
  | .lslot => decide (v.slots ≤ i)
  | .loop => !v.full
  | .pair => !v.full
  | .gch => !v.hasCh i
  | .steer => !v.hasPort (i / 8)
  | .mem => decide (16 + v.cores ≤ i ∧ i < 32) || (i == 52 && !v.full)

/-! ### Checks of a register write (R11 to R19) -/

/-- GLB_REJ_ADDR.CAUSE. -/
inductive RejCause where
  | rsvBit | rsvEnc | locked | unmapped | width
  deriving DecidableEq, Repr

/-- The code of a cause in GLB_REJ_ADDR. -/
def RejCause.code : RejCause → Nat
  | .rsvBit => 1
  | .rsvEnc => 2
  | .locked => 3
  | .unmapped => 4
  | .width => 5

/-- R13, R17: count a rejected write, and capture it when none is captured. -/
def State.reject (s : State) (m : Master) (c : RejCause) (off : Nat) (data : Word) : State :=
  let s1 := s.bump Fx.GLB_REJ_CNT_COUNT
  if s.rb Fx.GLB_REJ_ADDR_VALID then s1
  else
    (s1.sg .GLB_REJ_ADDR 0 0
      (BitVec.ofNat 32 (2 ^ 31 + c.code * 2 ^ 27 + b2n (m == .qspi) * 2 ^ 26 + off % 2 ^ 26))).sg .GLB_REJ_DATA 0 0 data

/-- The bits of a register that its fields cover (DEDUCED, log entry 68). -/
def fieldMask : List Fld → Nat
  | [] => 0
  | f :: t => (2 ^ (f.hi + 1 - f.lo) - 1) * 2 ^ f.lo + fieldMask t

/-- Bits that are reserved in some of a register's words only: MAC_CMD.RETRAIN on P10 to P13. -/
def extraRsv (r : RegId) (i : Nat) : Word := if r = .MAC_CMD ∧ 10 ≤ i then 8#32 else 0#32

/-- R12: a reserved bit is written non-zero (DEDUCED, log entries 68 and 199). -/
def rsvBitBad (r : RegId) (i : Nat) (v : Word) : Bool :=
  v &&& (~~~(BitVec.ofNat 32 (fieldMask r.defn.flds)) ||| extraRsv r i) != 0#32

/-- A value lies in one of the ranges; no range admits every value. -/
def inRanges (rs : List (Nat × Nat)) (n : Nat) : Bool :=
  rs.isEmpty || rs.any (fun p => decide (p.1 ≤ n) && decide (n ≤ p.2))

/-- R12: a field carries a reserved encoding, a read-only field included (log entry 60) (DEDUCED, log entry 71). -/
def encBadFields (r : RegId) (v : Word) : Bool := r.defn.flds.any fun f => !inRanges f.ok (bits v f.hi f.lo)

/-- R19: the register holds an RWL field. -/
def hasRwl (r : RegId) : Bool := r.defn.flds.any fun f => f.acc == .rwl

/-- The cause for which a 32-bit aligned write of a defined register is rejected, in the order of R14;
`bad` is the reserved encoding that the register's own rules name. -/
def writeCause (s : State) (r : RegId) (i : Nat) (v : Word) (bad : Bool) : Option RejCause :=
  if s.lock && hasRwl r then some .locked
  else if rsvBitBad r i v then some .rsvBit
  else if encBadFields r v || bad then some .rsvEnc
  else none

/-- R524: the blocks whose registers stay accessible in the fatal state: GLB, FEAT, BOOT and TPH (DEDUCED, log entry 142). -/
def fatalLive (off : Nat) : Bool := off < 0x1000 || (0x2000 ≤ off && off < 0x4000)

/-- R6, R524: a register that an access does not reach: of an absent unit, or outside the live blocks of the fatal state
(DEDUCED, log entry 142). -/
def State.regDead (s : State) (r : RegId) (i j : Nat) : Bool :=
  absentReg s.variant r i || (s.tph.fatal && !fatalLive (r.addr i j))

/-- A write of a command register: R524, R6 for an absent unit, the checks of R14, then the action. -/
def State.cmdWrite (s : State) (m : Master) (r : RegId) (i j : Nat) (v : Word) (bad : Bool) (act : State → State) : State :=
  if s.regDead r i j then s
  else
    match writeCause s r i v bad with
    | some c => s.reject m c (r.addr i j) v
    | none => act s

/-- The bits a generic write changes: fields RW and RWL take the value, W1C fields clear, W1S fields set (Table 00-5). -/
def applyFields (old v : Word) : List Fld → Word
  | [] => old
  | f :: t =>
    let n := bits v f.hi f.lo
    let o := bits old f.hi f.lo
    let w := match f.acc with
      | .rw => putBits old f.hi f.lo n
      | .rwl => putBits old f.hi f.lo n
      | .w1c => putBits old f.hi f.lo (Nat.land o (2 ^ (f.hi + 1 - f.lo) - 1 - n))
      | .w1s => putBits old f.hi f.lo (Nat.lor o n)
      | _ => old
    applyFields w v t

/-- A read clears the RC fields (Table 00-5). -/
def clearRc (old : Word) : List Fld → Word
  | [] => old
  | f :: t => clearRc (if f.acc == .rc then putBits old f.hi f.lo 0 else old) t

/-! ### Two's complement -/

/-- A 32-bit value as a signed number. -/
def sgn32 (n : Nat) : Int :=
  if n % 4294967296 < 2147483648 then Int.ofNat (n % 4294967296) else Int.ofNat (n % 4294967296) - 4294967296

/-- A signed number as 32 bits, two's complement. -/
def enc32 (i : Int) : Nat := (i % 2 ^ 32).toNat

/-- A signed number saturated to 32 bits (R220). -/
def sat32 (i : Int) : Int := max (-2 ^ 31) (min (2 ^ 31 - 1) i)

/-! ### Time (spec/06) -/

/-- Units of 2^-32 ns in a second, and in the 48-bit seconds count (R206). -/
def unitsPerNs : Nat := 4294967296
def nsPerSec : Nat := 1000000000
def tbModulus : Nat := 2 ^ 48 * nsPerSec * unitsPerNs

/-- A time base by number. -/
def State.tbOf (s : State) (n : Nat) : TimeBase := (s.tb[n]?).getD (TimeBase.reset n)

/-- Update a time base. -/
def State.tbUpd (s : State) (n : Nat) (f : TimeBase → TimeBase) : State := { s with tb := vupd s.tb n f }

/-- R221: the time base is served. -/
def State.tbServed (s : State) (n : Nat) : Bool := s.rb Fx.TB_CFG_SHADOW_EN n

/-- The primary of a time base; its own number when it is not served. -/
def State.tbPrimary (s : State) (n : Nat) : Nat := if s.tbServed n then (s.tbOf n).primary else n

/-- R222: the time a consumer of time base `n` sees, in units of 2^-32 ns. -/
def State.tbTime (s : State) (n : Nat) : Nat :=
  if s.tbServed n then
    (((s.tbOf (s.tbOf n).primary).raw : Int) + (s.tbOf n).ofs * 65536).toNat % tbModulus
  else (s.tbOf n).raw

/-- Time base `n` in whole ns. -/
def State.tbNs (s : State) (n : Nat) : Nat := s.tbTime n / unitsPerNs

/-- R207: NS32 of a time base. -/
def State.ns32 (s : State) (n : Nat) : Nat := s.tbNs n % 2 ^ 32

/-- R226, R227: time base `n` is out of service for its consumers. -/
def State.tbOos (s : State) (n : Nat) : Bool :=
  (s.tbOf n).oosCmd || (s.tbServed n && (s.tbOf (s.tbPrimary n)).oosCmd)

/-- R232: extend a 32-bit stamp against the present time of a time base; a full time in ns, not below 0. -/
def extendNs (now ts32 : Nat) : Int :=
  let d : Nat := (ts32 + 2 ^ 32 - now % 2 ^ 32) % 2 ^ 32
  if d < 2 ^ 31 then Int.ofNat (now + d) else Int.ofNat (now + d) - 4294967296

/-! ### Clocks (R494 to R497) -/

/-- A PLL is locked: its units run (Table 15-3). -/
def State.pll (s : State) (n : Nat) : Bool := s.clk.lock.testBit n

/-- The PLLs, by their bit of Table 15-3. -/
def pllCore : Nat := 0
def pllFab : Nat := 1
def pllTb : Nat := 2
def pllPcie : Nat := 3
def pllRill : Nat := 4
def pllCan : Nat := 5
def pllSd0 : Nat := 6
def pllSd1 : Nat := 7

/-- R497: in RUN, a PLL stands stopped (DEDUCED, log entry 146). -/
def State.pllStopped (s : State) (n : Nat) : Bool := s.lock && !s.clk.started.testBit n

/-- The switch works: its clock runs, the device is ON and not in the fatal state (R502, R524). -/
def State.swOn (s : State) : Bool := s.pll pllFab && s.pwr.state == 0 && !s.tph.fatal

/-- The PHY side of field port P0 to P13 works: from RUN on (R536), with the clock of its SerDes (Table 15-3). -/
def State.phyOn (s : State) (p : Nat) : Bool :=
  s.swOn && s.lock && (if p < 2 then s.pll pllSd0 else if p < 10 then s.pll pllSd1 else true)

/-- TB0_NS of a Tephra entry: all ones while TB0 is not running (Table 16-6). -/
def State.tb0Ns (s : State) : Nat := if s.pll pllTb then s.ns32 0 else 0xFFFFFFFF

/-! ### The Tephra queue (R526 to R529) -/

/-- Put an event into the controller's queue, or count it as dropped (R528). Class: 0 INFO, 1 TRANSIENT, 2 LASTING, 3 FATAL. -/
def State.tlog (s : State) (code cls obj data : Nat) : State :=
  if (s.tph.frozen && !s.tph.clearing) || decide (16 ≤ s.tph.queue.length) then
    { s with tph := { s.tph with dropped := min (s.tph.dropped + 1) 0xFFFF } }
  else
    { s with tph := { s.tph with queue := s.tph.queue ++ [⟨s.pwr.sec, s.tb0Ns, code, obj % 256, cls, data % 2 ^ 32⟩] } }

/-! ### MSI-X (R78, R79, R574) -/

/-- The word a MSI-X table word holds at reset: every entry masked (log entry 6) (PRESUMED, log entry 99). -/
def msixReset (k : Nat) : Word := if k % 4 = 3 then 1#32 else 0#32

/-- Word `k` of the MSI-X table. -/
def Pcie.word (p : Pcie) (k : Nat) : Word := sget (msixReset k) k p.msix

/-- R41: the link is up and Bus Master Enable is 1. -/
def Pcie.master (p : Pcie) : Bool := p.linkUp && p.bme

/-- R41: HST_STS.NOMASTER. -/
def State.noMaster (s : State) : Bool := s.rb Fx.HST_CTL_EN && !s.pcie.master

/-- Whether the entry of a vector is masked. -/
def Pcie.masked (p : Pcie) (v : Nat) : Bool := (p.word (4 * v + 3)).getLsbD 0

/-- Send the message of vector `v` now. -/
def State.msixSend (s : State) (v : Nat) : State :=
  s.emit (.msix v ((s.pcie.word (4 * v)).toNat + 2 ^ 32 * (s.pcie.word (4 * v + 1)).toNat) (s.pcie.word (4 * v + 2)))

/-- R79: trigger a vector: sent, or pending while masked or without bus mastering. -/
def State.trigger (s : State) (v : Nat) : State :=
  if s.pcie.masked v || !s.pcie.master then
    { s with pcie := { s.pcie with pend := s.pcie.pend ||| BitVec.ofNat 64 (2 ^ v) } }
  else s.msixSend v

/-! ### Event records (R75 to R78) -/

/-- A number as `n` bytes, little-endian. -/
def leBytes : Nat → Nat → List Byte
  | 0, _ => []
  | n + 1, v => BitVec.ofNat 8 v :: leBytes n (v / 256)

/-- Little-endian bytes as a number. -/
def leNat : List Byte → Nat
  | [] => 0
  | b :: t => b.toNat + 256 * leNat t

/-- The entries of a ring whose CFG.SIZE is `size` (R42). -/
def entriesOf (size : Nat) : Nat := 2 ^ size

def State.evrOf (s : State) (n : Nat) : EvRing := (s.hst.evr[n]?).getD EvRing.reset
def State.evrUpd (s : State) (n : Nat) (f : EvRing → EvRing) : State :=
  { s with hst := { s.hst with evr := vupd s.hst.evr n f } }

/-- Entries of event ring `n`. -/
def State.evrN (s : State) (n : Nat) : Nat := entriesOf (s.rf Fx.HST_EVR_CFG_SIZE n)

/-- R77: records can be written to event ring `n` at all. -/
def State.evrWritable (s : State) (n : Nat) : Bool :=
  s.rb Fx.HST_CTL_EN && s.pcie.master && !s.hst.quiesced && s.rb Fx.HST_EVR_CFG_EN n && !(s.evrOf n).halted
    && !s.tph.fatal

/-- R46: event ring `n` is full. -/
def State.evrFull (s : State) (n : Nat) : Bool :=
  ((s.evrOf n).pidx + 1) % s.evrN n == (s.evrOf n).head

/-- The base address of a ring from its two base registers. -/
def State.base64 (s : State) (lo hi : RegId) (n : Nat) : Nat := (s.rg lo n).toNat + 2 ^ 32 * (s.rg hi n).toNat

/-- R78: the unsignalled records of ring `n` reach MOD_CNT or its time ends: its vector is triggered. -/
def State.evrSignal (s : State) (n : Nat) : State :=
  (s.evrUpd n fun r => { r with unsig := 0, oldest := none }).trigger (s.rf Fx.HST_EVR_CFG_VEC n)

/-- Write one record into event ring `n`, which has room (Table 02-7, R75, R78) (DEDUCED, log entry 201). -/
def State.evrWrite (s : State) (n code obj a b : Nat) : State :=
  let r := s.evrOf n
  let ns := s.tbNs 0
  let bytes := leBytes 1 code ++ leBytes 1 (b2n r.phase * 128 + obj % 64) ++ leBytes 2 a ++ leBytes 4 b
    ++ leBytes 4 (ns % nsPerSec) ++ leBytes 4 (ns / nsPerSec)
  let p := (r.pidx + 1) % s.evrN n
  let s1 := (s.emit (.hostWrite (s.base64 .HST_EVR_BASE_LO .HST_EVR_BASE_HI n + 16 * r.pidx) bytes)).evrUpd n fun r =>
    { r with pidx := p, phase := if p = 0 then !r.phase else r.phase, dirty := true, unsig := r.unsig + 1,
             oldest := match r.oldest with | some t => some t | none => some ns }
  if s.rf Fx.HST_EVR_CFG_MOD_CNT n ≤ r.unsig + 1 then s1.evrSignal n else s1

/-- R77: a record that cannot be written is dropped and counted. -/
def State.evrDrop (s : State) (n : Nat) : State :=
  (s.evrUpd n fun r => { r with lost := min (r.lost + 1) 0xFFFFFFFF, owed := true }).bump Fx.HST_EVR_CNT_LOST 1 n

/-- R77: an EVENTS_LOST record is written first where one is owed and there is room. -/
def State.evrPayLost (s : State) (n : Nat) : State :=
  let r := s.evrOf n
  if r.owed && s.evrWritable n && !s.evrFull n then
    (s.evrUpd n fun r => { r with owed := false, lost := 0 }).evrWrite n 0x03 n 0 r.lost
  else s

/-- Post a record to event ring `n` (R77) (DEDUCED, log entry 201). -/
def State.postTo (s : State) (n code obj a b : Nat) : State :=
  if !s.evrWritable n then s.evrDrop n
  else
    let s1 := s.evrPayLost n
    if (s1.evrOf n).owed || s1.evrFull n then s1.evrDrop n else s1.evrWrite n code obj a b

/-- R76: post an event of a class to the ring that HST_EV_ROUTE names, when the class is enabled (DEDUCED, log entry 177). -/
def State.post (s : State) (cls code obj a b : Nat) : State :=
  if (s.rg .HST_EV_EN).getLsbD cls then s.postTo (bits (s.rg .HST_EV_ROUTE) (4 * cls + 3) (4 * cls)) code obj (a % 65536) (b % 2 ^ 32)
  else s

/-! ### Memories (spec/15) -/

/-- Bytes `a` to `a + n - 1` of a memory. -/
def rdBytes (m : Cells) (a : Nat) : Nat → List Byte
  | 0 => []
  | n + 1 => sget 0 a m :: rdBytes m (a + 1) n

/-- Write bytes from `a` on, keeping the canonical form. -/
def wrBytes (m : Cells) (a : Nat) : List Byte → Cells
  | [] => m
  | b :: t => wrBytes (sput 0 a b m) (a + 1) t

/-- The canonical form of a memory: addresses strictly rising, and no entry equal to 0, which an unlisted address reads as (DESIGN CHOICE,
log entry 8). -/
def Memory.wf (m : Cells) : Bool := scanon (0 : Byte) 0 m

/-- State of memory `m`: 0 ON. -/
def State.bankSt (s : State) (m : Nat) : Nat := (s.bank[m]?).getD 0

/-- The pool bank of an offset (R484) (DEDUCED, log entry 144). -/
def poolBank (a : Nat) : Nat := a / 131072 % 16

/-- R280: offset `a` of the pool lies in an enabled mirror region. -/
def State.inMirror (s : State) (a : Nat) : Bool :=
  (List.range 32).any fun r =>
    s.rb Fx.PAIR_MREG_BASE_EN r
      && decide (s.rf Fx.PAIR_MREG_BASE_BASE r * 8 ≤ a)
      && decide (a < s.rf Fx.PAIR_MREG_BASE_BASE r * 8 + s.rf Fx.PAIR_MREG_LEN_LEN r)

/-- Table 08-3: mirror regions are write-protected against cores and host in STANDBY and SYNCING (DEDUCED, log entry 50). -/
def State.mirrorProt (s : State) (a n : Nat) : Bool :=
  (s.pair.st == 1 || s.pair.st == 2) && (List.range n).any fun k => s.inMirror (a + k)

/-- A pool read by a master other than the host and a core: 0 while the bank is not ON, counted (R491). -/
def State.poolRd (s : State) (a n : Nat) : List Byte :=
  if s.bankSt (poolBank a) = 0 then rdBytes s.pool a n else List.replicate n 0

/-- The count of R491 for such an access (DEDUCED, log entry 144). -/
def State.poolTouch (s : State) (a : Nat) : State :=
  if s.bankSt (poolBank a) = 0 then s else s.bump Fx.MEM_OFF_ACC_COUNT

/-- The lock range begins at this pool offset (R368). -/
def lockBase : Nat := 0x1FFF00

/-- A pool write by the mirror engine, the loop engine or another master that mirror protection does not stop (R491); writes to
the lock range are dropped (R369). -/
def State.poolWr (s : State) (a : Nat) (d : List Byte) : State :=
  if s.bankSt (poolBank a) = 0 then { s with pool := wrBytes s.pool a (d.take (lockBase - a)) } else s.bump Fx.MEM_OFF_ACC_COUNT

/-- A pool write that mirror protection stops in STANDBY and SYNCING, counted in MEM_MIRROR_WREJ (R169, R280). -/
def State.poolWrProt (s : State) (a : Nat) (d : List Byte) : State :=
  if s.mirrorProt a d.length then s.bump Fx.MEM_MIRROR_WREJ_COUNT else s.poolWr a d

/-! ### The maintenance token (R512) -/

/-- What a request for the token meets. -/
inductive TokAns where
  | granted | waiting | busy
  deriving DecidableEq, Repr

/-- What a request meets now. -/
def State.tokAns (s : State) : TokAns :=
  if s.tok.holder = 0 ∧ s.tok.fifo = [] then .granted
  else if s.tok.fifo.length < 8 then .waiting else .busy

/-- Request the token for an activity. -/
def State.tokReq (s : State) (code : Nat) : State :=
  match s.tokAns with
  | .granted => ({ s with tok := { s.tok with holder := code } }).bump Fx.MEM_TOKEN_CNT_GRANTS
  | .waiting => { s with tok := { s.tok with fifo := s.tok.fifo ++ [code] } }
  | .busy => s.bump Fx.MEM_TOKEN_CNT_BUSY

/-- Release the token: it passes to the head of the FIFO. -/
def State.tokRelease (s : State) : State :=
  match s.tok.fifo with
  | [] => { s with tok := ⟨0, []⟩ }
  | c :: t => ({ s with tok := ⟨c, t⟩ }).bump Fx.MEM_TOKEN_CNT_GRANTS

/-- MAINT_DONE (Table 02-8): activity and result. -/
def State.maintDone (s : State) (activity result : Nat) : State := s.post 6 0x61 activity result 0

end Sys2Proof.Machine
end

