-- ==== Sys2Proof/Machine/Crypto.lean ====
section
/-!
DEFINITION. The two algorithms that R538 names: SHA-256 (FIPS 180-4) and the verification of an ECDSA signature on the curve P-256
(FIPS 186-4). The spec names the standards and does not restate them: PRESUMED, log entry 4.
-/
namespace Sys2Proof.Machine
open Sys2Proof

/-! ### SHA-256 -/

/-- The round constants: the first 32 bits of the fractional parts of the cube roots of the first 64 primes. -/
def shaK : List Word :=
  [0x428A2F98, 0x71374491, 0xB5C0FBCF, 0xE9B5DBA5, 0x3956C25B, 0x59F111F1, 0x923F82A4, 0xAB1C5ED5] ++
  [0xD807AA98, 0x12835B01, 0x243185BE, 0x550C7DC3, 0x72BE5D74, 0x80DEB1FE, 0x9BDC06A7, 0xC19BF174] ++
  [0xE49B69C1, 0xEFBE4786, 0x0FC19DC6, 0x240CA1CC, 0x2DE92C6F, 0x4A7484AA, 0x5CB0A9DC, 0x76F988DA] ++
  [0x983E5152, 0xA831C66D, 0xB00327C8, 0xBF597FC7, 0xC6E00BF3, 0xD5A79147, 0x06CA6351, 0x14292967] ++
  [0x27B70A85, 0x2E1B2138, 0x4D2C6DFC, 0x53380D13, 0x650A7354, 0x766A0ABB, 0x81C2C92E, 0x92722C85] ++
  [0xA2BFE8A1, 0xA81A664B, 0xC24B8B70, 0xC76C51A3, 0xD192E819, 0xD6990624, 0xF40E3585, 0x106AA070] ++
  [0x19A4C116, 0x1E376C08, 0x2748774C, 0x34B0BCB5, 0x391C0CB3, 0x4ED8AA4A, 0x5B9CCA4F, 0x682E6FF3] ++
  [0x748F82EE, 0x78A5636F, 0x84C87814, 0x8CC70208, 0x90BEFFFA, 0xA4506CEB, 0xBEF9A3F7, 0xC67178F2]

/-- The initial hash value: of the square roots of the first eight primes. -/
def shaInit : List Word := [0x6A09E667, 0xBB67AE85, 0x3C6EF372, 0xA54FF53A, 0x510E527F, 0x9B05688C, 0x1F83D9AB, 0x5BE0CD19]

def rotr (x : Word) (n : Nat) : Word := x >>> n ||| x <<< (32 - n)

/-- The message schedule, newest word first: sixteen words and 48 more. -/
def shaSchedule (block : List Word) : List Word :=
  (List.range 48).foldl (fun w _ =>
    let g := fun (i : Nat) => w.getD i 0#32
    let s0 := rotr (g 14) 7 ^^^ rotr (g 14) 18 ^^^ g 14 >>> 3
    let s1 := rotr (g 1) 17 ^^^ rotr (g 1) 19 ^^^ g 1 >>> 10
    (g 15 + s0 + g 6 + s1) :: w) block.reverse

/-- One round on the working variables a to h. -/
def shaRound (v : List Word) (kw : Word × Word) : List Word :=
  let g := fun (i : Nat) => v.getD i 0#32
  let ch := (g 4 &&& g 5) ^^^ (~~~(g 4) &&& g 6)
  let maj := (g 0 &&& g 1) ^^^ (g 0 &&& g 2) ^^^ (g 1 &&& g 2)
  let t1 := g 7 + (rotr (g 4) 6 ^^^ rotr (g 4) 11 ^^^ rotr (g 4) 25) + ch + kw.1 + kw.2
  let t2 := (rotr (g 0) 2 ^^^ rotr (g 0) 13 ^^^ rotr (g 0) 22) + maj
  [t1 + t2, g 0, g 1, g 2, g 3 + t1, g 4, g 5, g 6]

/-- The hash value after a block of sixteen words. -/
def shaBlock (h : List Word) (block : List Word) : List Word :=
  let v := (shaK.zip (shaSchedule block).reverse).foldl shaRound h
  (h.zip v).map fun x => x.1 + x.2

/-- The big-endian number that some bytes spell. -/
def beNat (l : List Byte) : Nat := l.foldl (fun n b => 256 * n + b.toNat) 0

/-- Take up one byte: the bytes of the block so far, newest first, and the hash value. -/
def shaByte (st : List Byte × List Word) (b : Byte) : List Byte × List Word :=
  let l := b :: st.1
  if l.length < 64 then (l, st.2)
  else
    let d := l.reverse
    ([], shaBlock st.2 ((List.range 16).map fun i => BitVec.ofNat 32 (beNat ((d.drop (4 * i)).take 4))))

/-- The padding of a message of `n` bytes: a 1 bit, zeros, and the length in bits. -/
def shaPad (n : Nat) : List Byte :=
  [0x80#8] ++ List.replicate ((119 - n % 64) % 64) 0#8 ++ (List.range 8).map fun i => BitVec.ofNat 8 (8 * n / 256 ^ (7 - i))

/-- SHA-256 (PRESUMED, log entry 4). -/
def sha256 (d : List Byte) : List Byte :=
  ((d ++ shaPad d.length).foldl shaByte ([], shaInit)).2.flatMap fun w => (List.range 4).map fun i => BitVec.ofNat 8 (w.toNat / 256 ^ (3 - i))

/-! ### P-256 -/

/-- The field, the order of the group, the coefficient b, and the base point. -/
def p256 : Nat := 0xFFFFFFFF00000001000000000000000000000000FFFFFFFFFFFFFFFFFFFFFFFF
def p256Order : Nat := 0xFFFFFFFF00000000FFFFFFFFFFFFFFFFBCE6FAADA7179E84F3B9CAC2FC632551
def p256B : Nat := 0x5AC635D8AA3A93E7B3EBBD55769886BC651D06B0CC53B0F63BCE3C3E27D2604B
def p256G : Nat × Nat :=
  (0x6B17D1F2E12C4247F8BCE6E563A440F277037D812DEB33A0F4A13945D898C296,
   0x4FE342E2FE1A7F9B8EE7EB4A7C0F9E162BCE33576B315ECECBB6406837BF51F5)

/-- `b ^ e` modulo `m`, for e below 2^256. -/
def powMod (b e m : Nat) : Nat :=
  (List.range 256).foldl (fun r i => (r * r % m) * (if e.testBit (255 - i) then b else 1) % m) 1

/-- The inverse modulo a prime. -/
def invMod (a m : Nat) : Nat := powMod (a % m) (m - 2) m

/-- A point: `none` at infinity. -/
abbrev P256Point := Option (Nat × Nat)

/-- The point on a line of slope `k` through two points. -/
def p256Third (k x1 y1 x2 : Nat) : P256Point :=
  let x := (k * k + 2 * p256 - x1 - x2) % p256
  some (x, (k * (x1 + p256 - x) + p256 - y1) % p256)

/-- The sum of two points. -/
def p256Add (a b : P256Point) : P256Point :=
  match a, b with
  | none, _ => b
  | _, none => a
  | some (x1, y1), some (x2, y2) =>
    if x1 = x2 then
      (if (y1 + y2) % p256 = 0 then none
       else p256Third ((3 * x1 * x1 + p256 - 3) * invMod (2 * y1) p256 % p256) x1 y1 x2)
    else p256Third ((y2 + p256 - y1) * invMod (x2 + p256 - x1) p256 % p256) x1 y1 x2

/-- `u` times a point. -/
def p256Mul (u : Nat) (a : P256Point) : P256Point :=
  (List.range 256).foldl (fun r i =>
    let d := p256Add r r
    if u.testBit (255 - i) then p256Add d a else d) none

/-- The little-endian X and Y of a key entry (R537). -/
def keyX (key : List Byte) : Nat := leNat (key.take 32)
def keyY (key : List Byte) : Nat := leNat ((key.drop 32).take 32)

/-- R537: the entry is a point on the curve (PRESUMED, log entry 4). -/
def onCurve (key : List Byte) : Bool :=
  decide (keyX key < p256) && decide (keyY key < p256)
    && decide (keyY key * keyY key % p256 = (keyX key ^ 3 + (p256 - 3) * keyX key + p256B) % p256)

/-- R538: (r, s) is a signature of the hash under the key; r and s are little-endian (R473) (PRESUMED, log entry 4). -/
def ecdsaOk (key hash sig : List Byte) : Bool :=
  let r := leNat (sig.take 32)
  let s := leNat ((sig.drop 32).take 32)
  if r = 0 ∨ p256Order ≤ r ∨ s = 0 ∨ p256Order ≤ s then false
  else
    let w := invMod s p256Order
    let u1 := beNat hash * w % p256Order
    let u2 := r * w % p256Order
    match p256Add (p256Mul u1 (some p256G)) (p256Mul u2 (some (keyX key, keyY key))) with
    | none => false
    | some (x, _) => decide (x % p256Order = r)

end Sys2Proof.Machine
end

