-- ==== Sys2Proof/Machine/Operands.lean ====
section
/-!
DEFINITION. The operand forms of the Ilutas instruction set (spec/09): the fields of an instruction word
(Table 09-3), which words are defined (R319, Tables 09-4 to 09-7), and the register file with its window
(R308, R309).
-/
namespace Sys2Proof.Machine
open Sys2Proof

/-- An element of a vector by a plain index. -/
def vget {α : Type} {n : Nat} (d : α) (v : Vector α n) (i : Nat) : α := (v[i]?).getD d

/-! ### Fields of an instruction word (Table 09-3) -/

def fMaj (w : Word) : Nat := bits w 31 26
def fRd (w : Word) : Nat := bits w 25 21
def fRa (w : Word) : Nat := bits w 20 16
def fRb (w : Word) : Nat := bits w 15 11
def fImm (w : Word) : Nat := bits w 15 0
def fFn (w : Word) : Nat := bits w 5 0
/-- LSB and WM1 of format F; IDX and FN of format X; the CSR number and FN of format C. -/
def fLsb (w : Word) : Nat := bits w 15 11
def fWm1 (w : Word) : Nat := bits w 10 6
def fIdx (w : Word) : Nat := bits w 10 5
def fXfn (w : Word) : Nat := bits w 2 0
def fCsr (w : Word) : Nat := bits w 15 4
def fCfn (w : Word) : Nat := bits w 1 0

/-- Sign-extension of the low `n` bits of a number to a signed number. -/
def sext (n v : Nat) : Int :=
  if v % 2 ^ n < 2 ^ (n - 1) then Int.ofNat (v % 2 ^ n) else Int.ofNat (v % 2 ^ n) - Int.ofNat (2 ^ n)

/-- A word from a signed number, modulo 2^32. -/
def wordOf (i : Int) : Word := BitVec.ofInt 32 i

/-- An address moved by a signed amount, modulo 2^32. -/
def addrPlus (a : Nat) (i : Int) : Nat := ((Int.ofNat a + i) % 4294967296).toNat

/-- Format T words: major opcode, rd, ra, rb, FN. -/
def encT (maj rd ra rb fn : Nat) : Word := BitVec.ofNat 32 (maj * 2 ^ 26 + rd * 2 ^ 21 + ra * 2 ^ 16 + rb * 2 ^ 11 + fn)
/-- Format I words. -/
def encI (maj rd ra imm : Nat) : Word := BitVec.ofNat 32 (maj * 2 ^ 26 + rd * 2 ^ 21 + ra * 2 ^ 16 + imm)
/-- Format F words. -/
def encF (maj rd ra lsb wm1 fn : Nat) : Word :=
  BitVec.ofNat 32 (maj * 2 ^ 26 + rd * 2 ^ 21 + ra * 2 ^ 16 + lsb * 2 ^ 11 + wm1 * 2 ^ 6 + fn)
/-- Format X words. -/
def encX (maj rd ra rb idx fn : Nat) : Word :=
  BitVec.ofNat 32 (maj * 2 ^ 26 + rd * 2 ^ 21 + ra * 2 ^ 16 + rb * 2 ^ 11 + idx * 2 ^ 5 + fn)
/-- Format C words. -/
def encC (maj rd ra csr fn : Nat) : Word := BitVec.ofNat 32 (maj * 2 ^ 26 + rd * 2 ^ 21 + ra * 2 ^ 16 + csr * 2 ^ 4 + fn)

/-! ### Which words are defined (R319) -/

/-- The row of a word: 64 × major opcode + the selector (FN, COND, KIND) that names the instruction in it; `none` where
Tables 09-4 to 09-7 define no such selector, or call the operands undefined. -/
def insRow (w : Word) : Option Nat :=
  let m := fMaj w
  let f := fFn w
  let x := fXfn w
  let kind := bits w 15 13
  let row := fun (sub : Nat) => some (64 * m + sub)
  match m with
  | 0x00 => if f ≤ 0x16 || 0x18 ≤ f && f ≤ 0x1C || 0x20 ≤ f && f ≤ 0x22 then row f else none
  | 0x10 => if kind ≤ 2 && fRd w == fRa w then none else if kind ≤ 5 then row kind else none
  | 0x11 => if f ≤ 3 && fLsb w + fWm1 w ≤ 31 then row f else none
  | 0x12 => if f / 16 ≤ 2 && f % 16 ≤ 5 then row 0 else none
  | 0x13 => if f / 16 ≤ 2 && f % 16 ≤ 5 && fRd w != fRa w then row 0 else none
  | 0x14 => if f ≤ 1 then row f else none
  | 0x15 => if x ≤ 4 then row x else none
  | 0x16 => if x ≤ 4 && !(1 ≤ x && x ≤ 3 && fIdx w % 8 == 0) then row x else none
  | 0x17 => if x ≤ 2 && fIdx w ≤ 47 then row x else none
  | 0x18 => if x ≤ 3 then row x else none
  | 0x19 => row (fCfn w)
  | 0x1A => if f ≤ 7 then row f else none
  | 0x24 => if f ≤ 2 then row f else none
  | _ => if 0x01 ≤ m && m ≤ 0x0F || 0x20 ≤ m && m ≤ 0x23 || 0x28 ≤ m && m ≤ 0x2B then row 0 else none

/-- A zero field of Table 09-3, or a register field that the tables mark "must be 0", is not zero (R319) (DEDUCED, log entry 143). -/
def zeroBad (w : Word) : Bool :=
  let m := fMaj w
  let f := fFn w
  let x := fXfn w
  let z := bits w 10 6 != 0
  let rd := fRd w != 0
  let ra := fRa w != 0
  let rb := fRb w != 0
  match m with
  | 0x00 => z || (0x18 ≤ f && f ≤ 0x1C && rb)
  | 0x05 => ra
  | 0x06 => bits w 13 5 != 0
  | 0x12 => z
  | 0x13 => z || rb
  | 0x14 => z
  | 0x15 => bits w 4 3 != 0 || (x == 1 && (ra || rb)) || (x == 2 && (rd || rb)) || (3 ≤ x && (ra || rb))
  | 0x16 => bits w 4 3 != 0 || 8 ≤ fIdx w || (x == 0 && (ra || rb))
  | 0x17 => bits w 4 3 != 0 || (x == 0 && (rd || rb)) || (x == 1 && rb) || (x == 2 && ra)
  | 0x18 => bits w 4 3 != 0 || fIdx w != 0 || (x == 0 && rb) || (x == 1 && (ra || rb)) || (x == 2 && (rd || rb))
      || (x == 3 && (ra || rb))
  | 0x19 => bits w 3 2 != 0
  | 0x1A => bits w 9 6 != 0 || (f != 3 && bits w 25 10 != 0)
  | 0x20 => 6 ≤ bits w 15 13 && (rd || ra)
  | 0x24 => z || rd || rb || (f == 2 && ra)
  | 0x28 => rd || bits w 15 12 != 0
  | 0x29 => bits w 13 12 != 0
  | 0x2A => rd || bits w 15 0 != 0
  | 0x2B => bits w 25 12 != 0
  | _ => false

/-- R335: the instruction may be repeated: those of Table 09-4 and those marked "yes" in Table 09-5. -/
def repeatable (w : Word) : Bool := (insRow w).isSome && fMaj w ≤ 0x14

/-- R332: the instruction must not end a loop body. -/
def loopEndBad (w : Word) : Bool := 0x20 ≤ fMaj w || fMaj w == 0x1A

/-! ### Registers (R308, R309) -/

/-- The place of windowed register `i` in the banks. -/
def Ctx.winIdx (c : Ctx) (i : Nat) : Nat := 8 * ((c.st.cwp + i / 8) % 16) + i % 8

/-- The register that a field selects; g0 reads as 0. -/
def Ctx.reg (c : Ctx) (f : Nat) : Word :=
  if f = 0 then 0#32 else if f < 16 then vget 0#32 c.g f else vget 0#32 c.b (c.winIdx (f - 16))

/-- Write the register that a field selects; a write to g0 is discarded. -/
def Ctx.setReg (c : Ctx) (f : Nat) (v : Word) : Ctx :=
  if f = 0 then c
  else if f < 16 then { c with g := vupd c.g f fun _ => v }
  else { c with b := vupd c.b (c.winIdx (f - 16)) fun _ => v }

/-- Bank `n` reads 0. -/
def Ctx.zeroBank (c : Ctx) (n : Nat) : Ctx :=
  { c with b := Vector.ofFn fun (i : Fin 128) => if i.val / 8 = n % 16 then 0#32 else c.b[i] }

/-- The 8 registers of a bank as 32 bytes, register 0 first. -/
def Ctx.bankBytes (c : Ctx) (n : Nat) : List Byte :=
  (List.range 8).flatMap fun j => leBytes 4 (vget 0#32 c.b (8 * (n % 16) + j)).toNat

/-- Load a bank from 32 bytes. -/
def Ctx.setBank (c : Ctx) (n : Nat) (d : List Byte) : Ctx :=
  { c with b := Vector.ofFn fun (i : Fin 128) =>
      if i.val / 8 = n % 16 then BitVec.ofNat 32 (leNat ((d.drop (4 * (i.val % 8))).take 4)) else c.b[i] }

end Sys2Proof.Machine
end

