-- ==== Sys2Proof/Machine/Flags.lean ====
section
/-!
DEFINITION. The status word of a core, its loop registers and its interrupt lines (spec/09: Table 09-9, Table 09-10),
and the conditions that raise each line (spec/09 to spec/12).
-/
namespace Sys2Proof.Machine
open Sys2Proof

/-! ### Units by number -/

def State.cluOf (s : State) (k : Nat) : Clu := vget (Clu.reset k) s.clu k
def State.cluUpd (s : State) (k : Nat) (f : Clu → Clu) : State := { s with clu := vupd s.clu k f }
def State.ctxOf (s : State) (k : Nat) : Ctx := (s.cluOf k).ctx
def State.ctxUpd (s : State) (k : Nat) (f : Ctx → Ctx) : State := s.cluUpd k fun c => { c with ctx := f c.ctx }
def State.coreOf (s : State) (n : Nat) : PCore := vget PCore.reset s.core n
def State.coreUpd (s : State) (n : Nat) (f : PCore → PCore) : State := { s with core := vupd s.core n f }
def State.mbxOf (s : State) (m : Nat) : Mbx := vget Mbx.reset s.mbx m
def State.mbxUpd (s : State) (m : Nat) (f : Mbx → Mbx) : State := { s with mbx := vupd s.mbx m f }
def State.rilOf (s : State) (e : Nat) : Ril := vget Ril.reset s.ril e
def State.rilUpd (s : State) (e : Nat) (f : Ril → Ril) : State := { s with ril := vupd s.ril e f }
def State.canOf (s : State) (c : Nat) : Can := vget Can.reset s.can c
def State.canUpd (s : State) (c : Nat) (f : Can → Can) : State := { s with can := vupd s.can c f }
def State.fqOf (s : State) (k : Nat) : FqState := vget FqState.reset s.fq k
def State.fqUpd (s : State) (k : Nat) (f : FqState → FqState) : State := { s with fq := vupd s.fq k f }

/-- The physical core that runs a cluster. -/
def State.physOf (s : State) (k : Nat) : Nat := (s.cluOf k).phys

/-! ### STATUS and the loop registers -/

/-- STATUS as a word (CSR 0x000). -/
def CStatus.word (x : CStatus) : Word :=
  BitVec.ofNat 32 (x.wbot * 65536 + x.cwp * 4096 + x.ldepth * 1024 + b2n x.timedOut * 4 + b2n x.exl * 2 + b2n x.ie)

/-- STATUS with TO set or cleared (R327, R328, WAIT). -/
def Ctx.setTo (c : Ctx) (b : Bool) : Ctx := { c with st := { c.st with timedOut := b } }

/-- LSx and LEx: address bits 15:2, the recorded CWP and the open bit. -/
def LoopLvl.word (l : LoopLvl) (a : Nat) : Word := BitVec.ofNat 32 (b2n l.isOpen * 2 ^ 31 + l.cwp * 65536 + a)

/-- STATUS.LDEPTH follows the open levels. -/
def Ctx.depth (c : Ctx) : Ctx := { c with st := { c.st with ldepth := b2n c.l0.isOpen + b2n c.l1.isOpen } }

/-- CAUSE as a word. -/
def causeWord (int : Bool) (info code : Nat) : Word := BitVec.ofNat 32 (b2n int * 2 ^ 31 + info % 65536 * 256 + code)

/-! ### Bindings (R346) -/

/-- A field port is bound to a cluster. -/
def State.boundPort (s : State) (k p : Nat) : Bool := (s.rg .ENG_BIND k).getLsbD p

/-- A Rill engine's group is bound to a cluster (R384). -/
def State.boundEngine (s : State) (k e : Nat) : Bool :=
  if e / 4 < 6 then s.boundPort k (18 + e / 4) else (s.rg .ENG_BIND_AUX k).getLsbD (e / 4 - 6)

/-! ### Interrupt lines (Table 09-9) -/

/-- Lines 3 and 4: R366. -/
def State.lineNotice (s : State) (k : Nat) : Bool :=
  (List.range 64).any fun m =>
    s.rb Fx.MBX_CFG_EN m && s.rf Fx.MBX_CFG_RCV m == k && !s.rb Fx.MBX_CFG_SOFT m && (s.mbxOf m).valid
def State.lineAck (s : State) (k : Nat) : Bool :=
  (List.range 64).any fun m => s.rb Fx.MBX_CFG_EN m && s.rf Fx.MBX_CFG_SND m == k && (s.mbxOf m).ackValid

/-- Line 5: R393. -/
def State.lineRill (s : State) (k : Nat) : Bool :=
  (List.range 48).any fun e =>
    decide (e < s.variant.engines) && s.boundEngine k e
      && (s.rf Fx.RIL_ECFG_RXT e != 0 && decide (s.rf Fx.RIL_ECFG_RXT e ≤ (s.rilOf e).rx.length)
        || s.rf Fx.RIL_ECFG_TXT e != 0 && decide (s.rf Fx.RIL_ECFG_TXT e + (s.rilOf e).tx.length ≤ 4))

/-- The service condition of a CAN exchange: R440. -/
def State.canWants (s : State) (c : Nat) : Bool :=
  let x := (s.canOf c).x
  let lag := (x.rxProd + 2 ^ 32 - x.rxCons) % 2 ^ 32
  let us := s.rf Fx.CAN_XCH_CFG_RX_US c
  s.rb Fx.CAN_XCH_CFG_EN c
    && (decide (s.rf Fx.CAN_XCH_CFG_RX_THR c ≤ lag)
      || lag != 0 && us != 0 && (match x.since with | t :: _ => decide (t + 1000 * us ≤ s.tbNs 0) | [] => false)
      || x.evProd != x.evCons || x.hpSeq != x.hpAck || x.stateSeq != x.stateAck)

/-- Line 8. -/
def State.lineCan (s : State) (k : Nat) : Bool :=
  (List.range 4).any fun c => s.boundPort k (14 + c) && s.canWants c

/-- IPEND of a cluster: the latched lines and the level lines. -/
def State.ipend (s : State) (k : Nat) : Nat :=
  (s.ctxOf k).latched
    + 8 * b2n (s.lineNotice k) + 16 * b2n (s.lineAck k) + 32 * b2n (s.lineRill k)
    + 64 * b2n (!(s.fqOf k).ready.isEmpty) + 128 * b2n (s.fqOf k).line7 + 256 * b2n (s.lineCan k)
    + 512 * b2n (s.cluOf k).portLine

/-- Lines pending and enabled. -/
def State.wanted (s : State) (k : Nat) : Nat := Nat.land (s.ipend k) (s.ctxOf k).imask

/-- Set a latched line. -/
def State.raiseLine (s : State) (k line : Nat) : State :=
  s.ctxUpd k fun c => { c with latched := Nat.lor c.latched (2 ^ line) }

/-- R349: an event line is set in every RUNNING cluster with CYC_BIND = 1. A migrating cluster takes it at the merge (Table 10-5). -/
def State.raiseBound (s : State) (line : Nat) : State :=
  (List.range 16).foldl (fun s k =>
    if s.rb Fx.ENG_CFG_CYC_BIND k && ((s.cluOf k).st == 1 || ((s.cluOf k).st == 4 && (s.cluOf k).migFrom == 1)) then
      s.raiseLine k line
    else s) s

/-- Line 9: an Ethernet port has changed its link state (DEDUCED, log entry 30). -/
def State.portChanged (s : State) (p : Nat) : State :=
  (List.range 16).foldl (fun s k => if s.boundPort k p then s.cluUpd k fun c => { c with portLine := true } else s) s

/-! ### The watchdog's conditions (R520, R521) -/

/-- A condition of the watchdog is met: the host's, where it is enabled, and every named cluster's; a cluster that is not RUNNING or
MIGRATING counts as met (DEDUCED, log entry 178). -/
def State.wdgMet (s : State) : Bool :=
  (!s.rb Fx.TPH_WDG_CFG_HOST || s.tph.hostMet)
    && (List.range 16).all fun k =>
      !(s.rg .TPH_WDG_CLU).getLsbD k || s.tph.cluMet.getLsbD k || !((s.cluOf k).st == 1 || (s.cluOf k).st == 4)

/-- R521: a kick occurs where every enabled condition has been met. -/
def State.wdgEval (s : State) : State :=
  if s.tph.wdgRun && s.wdgMet then { s with tph := { s.tph with hostMet := false, cluMet := 0#16, warn := false } } else s

/-- R350, R521: cluster `k` has completed its cycle work. -/
def State.wdgCluster (s : State) (k : Nat) : State :=
  if s.tph.wdgRun && (s.rg .TPH_WDG_CLU).getLsbD k then
    ({ s with tph := { s.tph with cluMet := s.tph.cluMet ||| BitVec.ofNat 16 (2 ^ k) } }).wdgEval
  else s

end Sys2Proof.Machine
end

