-- ==== Sys2Proof/Machine/SwitchOps.lean ====
section
/-!
DEFINITION. Shared operations of the Confluence switch: ingress steps (Table 03-3), buffer accounting
(R90 to R99), enqueue and reference counts (R94, R137 to R145), the forwarding database (R108 to R113),
gates (R116 to R123), output scheduling (R114, R121, R171) and redundancy (R129 to R133).
-/
namespace Sys2Proof.Machine
open Sys2Proof

/-! ### Bytes of a frame -/

def byteAt (d : List Byte) (i : Nat) : Nat := (d.getD i 0).toNat

/-- Bytes `i` and `i + 1`, the first on the wire as the high byte. -/
def be16 (d : List Byte) (i : Nat) : Nat := byteAt d i * 256 + byteAt d (i + 1)

/-- A MAC address at byte `i`, the first octet in bits 47:40 (R108). -/
def macAt (d : List Byte) (i : Nat) : Nat :=
  be16 d i * 2 ^ 32 + be16 d (i + 2) * 2 ^ 16 + be16 d (i + 4)

/-- Two bytes, the high one first. -/
def be16Bytes (v : Nat) : List Byte := [BitVec.ofNat 8 (v / 256), BitVec.ofNat 8 v]

def isGroup (mac : Nat) : Bool := (mac / 2 ^ 40) % 2 == 1
def broadcastMac : Nat := 0xFFFFFFFFFFFF

/-- R102: bytes 12-13 hold 0x8100. -/
def isTagged (d : List Byte) : Bool := be16 d 12 == 0x8100

/-- Cells of a frame of `l` bytes with FCS (R90). -/
def cellsOf (l : Nat) : Nat := (l + 127) / 128

/-! ### Units of the switch by number -/

def State.outOf (s : State) (p : Nat) : OutPort := (s.cfl.out[p]?).getD OutPort.reset
def State.outUpd (s : State) (p : Nat) (f : OutPort → OutPort) : State :=
  { s with cfl := { s.cfl with out := vupd s.cfl.out p f } }
def State.inOf (s : State) (p : Nat) : InPort := (s.cfl.inp[p]?).getD ⟨none, false⟩
def State.inUpd (s : State) (p : Nat) (f : InPort → InPort) : State :=
  { s with cfl := { s.cfl with inp := vupd s.cfl.inp p f } }
def State.gateOf (s : State) (p : Nat) : Gate := (s.cfl.gate[p]?).getD Gate.reset
def State.gateUpd (s : State) (p : Nat) (f : Gate → Gate) : State :=
  { s with cfl := { s.cfl with gate := vupd s.cfl.gate p f } }
def State.macOf (s : State) (p : Nat) : Mac := (s.mac[p]?).getD (Mac.reset p)
def State.macUpd (s : State) (p : Nat) (f : Mac → Mac) : State := { s with mac := vupd s.mac p f }
def State.frameOf (s : State) (fid : Nat) : Option Frame := s.cfl.frames.find? (fun f => f.fid == fid)
def State.frameUpd (s : State) (fid : Nat) (g : Frame → Frame) : State :=
  { s with cfl := { s.cfl with frames := s.cfl.frames.map (fun f => if f.fid == fid then g f else f) } }
def OutPort.queue (o : OutPort) (c : Nat) : List QEntry := (o.queues[c]?).getD []
def OutPort.setQueue (o : OutPort) (c : Nat) (q : List QEntry) : OutPort :=
  { o with queues := vupd o.queues c fun _ => q }

/-- Switch counters of Table 03-8. -/
def State.icnt (s : State) (p k : Nat) : State := s.bump Fx.CFL_ICNT_COUNT 1 p k
def State.qcnt (s : State) (p c k : Nat) : State := s.bump Fx.CFL_QCNT_COUNT 1 p (16 * c + k)

/-- Add 1 to MAC counter `j` of Table 05-4, wrapping at 2^64 (R204). -/
def State.mcntAdd (s : State) (p j n : Nat) : State :=
  s.macUpd p fun m => { m with cnt := sput 0 j ((sget 0 j m.cnt + n) % 2 ^ 64) m.cnt }
def State.mcnt (s : State) (p j : Nat) : State := s.mcntAdd p j 1

/-! ### Rates and lengths (Table 03-1, R194) -/

/-- kb/s of a rate code of MAC_STS.RATE. -/
def rateOfCode : Nat → Nat
  | 1 => 10000
  | 2 => 100000
  | 3 => 1000000
  | 4 => 2500000
  | 5 => 5000000
  | 6 => 10000000
  | _ => 0

/-- R88: the rate of a switch port in kb/s. -/
def State.portRate (s : State) (p : Nat) : Nat :=
  if p < 10 then rateOfCode (s.macOf p).rate
  else if p < 14 then 10000
  else if p = 14 then s.pcie.rateKb
  else if p = 15 then 10000000
  else if s.variant.full then 320000 else 160000

/-- R179, R201: the MAC of the port is enabled and its link is up; SP14 to SP16 always. -/
def State.portLink (s : State) (p : Nat) : Bool :=
  if p < 10 then s.rb Fx.MAC_CFG_EN p && (s.macOf p).link
  else if p < 14 then s.rb Fx.MAC_CFG_EN p
  else true

/-- R194, CFL_PORT_MAX: the maximum frame length of a port, for a frame tagged or not. -/
def State.maxLen (s : State) (p : Nat) (tagged : Bool) : Nat :=
  if p < 14 then
    let l := s.rf Fx.MAC_MAXLEN_LEN p
    if tagged then min (l + 4) (if p < 10 then 9216 else 2048) else l
  else s.rf Fx.CFL_PORT_MAX_MAXLEN p

/-! ### Redundancy instances (R128 to R133) -/

/-- R291: P1 is the pairing link and takes no part in switching. -/
def State.p1IsPairLink (s : State) : Bool := s.variant.full && s.rb Fx.PAIR_CFG_EN && s.rf Fx.PAIR_CFG_XPORT == 2

/-- The instance in which switch port `p` is A or B, with its mode. -/
def State.redOf (s : State) (p : Nat) : Option Nat :=
  if s.rf Fx.CFL_RED_CFG_MODE 0 != 0 && (s.rf Fx.CFL_RED_CFG_PORT_A 0 == p || s.rf Fx.CFL_RED_CFG_PORT_B 0 == p) then some 0
  else if s.rf Fx.CFL_RED_CFG_MODE 1 != 0 && (s.rf Fx.CFL_RED_CFG_PORT_A 1 == p || s.rf Fx.CFL_RED_CFG_PORT_B 1 == p) then some 1
  else none

def State.redA (s : State) (i : Nat) : Nat := s.rf Fx.CFL_RED_CFG_PORT_A i
def State.redB (s : State) (i : Nat) : Nat := s.rf Fx.CFL_RED_CFG_PORT_B i
def State.redSeqOf (s : State) (i : Nat) : Nat := (s.cfl.redSeq[i]?).getD 0

/-- LSDU size carried in a trailer or tag: the bytes after the addresses and EtherType (log entry 9). -/
def lsduSize (d : List Byte) (extra : Nat) : Nat := (d.length + extra - (if isTagged d then 18 else 14)) % 4096

/-- The PRP trailer of R129. -/
def prpTrailer (seq lan lsdu : Nat) : List Byte := be16Bytes seq ++ be16Bytes (lan * 4096 + lsdu) ++ [0x88, 0xFB]

/-- Insert the HSR tag of R131 after the addresses. -/
def hsrInsert (d : List Byte) (seq : Nat) : List Byte :=
  d.take 12 ++ [0x89, 0x2F] ++ be16Bytes (lsduSize d 6) ++ be16Bytes seq ++ d.drop 12

/-- A valid PRP trailer: suffix 0x88FB and an LSDU size that matches; its sequence and LanId (R130). -/
def prpParse (d : List Byte) : Option (Nat × Nat) :=
  let n := d.length
  if 20 ≤ n ∧ be16 d (n - 2) = 0x88FB ∧ be16 d (n - 4) % 4096 = lsduSize d 0 then
    some (be16 d (n - 6), be16 d (n - 4) / 4096)
  else none

/-- The bucket of the duplicate table (R132). -/
def dupBucket (seq src : Nat) : Nat := Nat.xor (seq % 1024) (src % 1024)

def DupEntry.key (e : DupEntry) (i src seq : Nat) : Bool := e.inst == i && e.src == src && e.seq == seq

/-- R132: insert a record; a full bucket loses its oldest, counted in DD_EVICT. -/
def State.dupInsert (s : State) (e : DupEntry) : State :=
  let b := dupBucket e.seq e.src
  let inB := s.cfl.dup.filter (fun x => dupBucket x.seq x.src == b)
  if 4 ≤ inB.length then
    match inB with
    | o :: _ => ({ s with cfl := { s.cfl with dup := s.cfl.dup.erase o ++ [e] } }).bump Fx.CFL_RED_DD_EVICT_COUNT 1 e.inst
    | [] => s
  else { s with cfl := { s.cfl with dup := s.cfl.dup ++ [e] } }

/-! ### Forwarding database (R108 to R113) -/

/-- R108. -/
def fdbBucket (mac fid : Nat) : Nat :=
  Nat.xor (Nat.xor (Nat.xor (Nat.xor ((mac / 2 ^ 36) % 4096) ((mac / 2 ^ 24) % 4096)) ((mac / 2 ^ 12) % 4096)) (mac % 4096)) (fid % 4096)

/-- The entry of a key, with its index. -/
def State.fdbFind (s : State) (mac fid : Nat) : Option (Nat × FdbEntry) :=
  let b := fdbBucket mac fid
  [4 * b, 4 * b + 1, 4 * b + 2, 4 * b + 3].findSome? fun i =>
    match sfind i s.cfl.fdb with
    | some e => if e.mac = mac ∧ e.fid = fid then some (i, e) else none
    | none => none

/-- The lowest free way of the bucket of a key. -/
def State.fdbFree (s : State) (mac fid : Nat) : Option Nat :=
  let b := fdbBucket mac fid
  [4 * b, 4 * b + 1, 4 * b + 2, 4 * b + 3].find? fun i => (sfind i s.cfl.fdb).isNone

def State.fdbSet (s : State) (i : Nat) (e : FdbEntry) : State :=
  { s with cfl := { s.cfl with fdb := sins i e s.cfl.fdb } }
def State.fdbDel (s : State) (i : Nat) : State := { s with cfl := { s.cfl with fdb := sdel i s.cfl.fdb } }

/-- The VLAN table entry of a VID, where it is VALID (R103, R106). -/
def State.vlanOf (s : State) (vid : Nat) : Option VlanEntry := (sfind vid s.cfl.vlan).filter fun v => v.valid

/-- R110: learn the source of a good frame received on input `p` in VID `vid`. -/
def State.learn (s : State) (p vid src : Nat) : State :=
  match s.vlanOf vid with
  | none => s
  | some v =>
    if !s.rb Fx.CFL_PORT_CFG_LEARN p || v.learnDis || isGroup src || src == 0 then s
    else
      match s.fdbFind src v.fid with
      | some (i, e) =>
        if e.static then s
        else if e.ports = 2 ^ p then s.fdbSet i { e with age := 7 }
        else (s.fdbSet i { e with ports := 2 ^ p, age := 7 }).icnt p 8
      | none =>
        match s.fdbFree src v.fid with
        | some i => s.fdbSet i ⟨src, v.fid, 2 ^ p, false, 7⟩
        | none => s.icnt p 7

/-! ### Ingress steps (Table 03-3) -/

/-- What the ingress steps decide. -/
inductive Ingress where
  /-- Discarded, counted in input counter k. -/
  | drop (k : Nat)
  | fwd (targets : List Nat) (cls vid pcp : Nat) (trap : Bool)
  deriving DecidableEq, Repr

/-- R102: VID and PCP of a frame received on input `i`. -/
def State.classify (s : State) (i : Nat) (d : List Byte) : Nat × Nat :=
  let tci := be16 d 14
  if isTagged d then
    (if tci % 4096 = 0 then s.rf Fx.CFL_PORT_VLAN_PVID i else tci % 4096, tci / 8192)
  else (s.rf Fx.CFL_PORT_VLAN_PVID i, s.rf Fx.CFL_PORT_CFG_DEF_PCP i)

/-- R103: discarded at step 2. -/
def State.vlanDrop (s : State) (i : Nat) (d : List Byte) : Bool :=
  let vid := (s.classify i d).1
  let prio := isTagged d && be16 d 14 % 4096 == 0
  let acc := s.rf Fx.CFL_PORT_VLAN_ACCEPT i
  (acc == 1 && (!isTagged d || prio)) || (acc == 2 && isTagged d && !prio) || vid == 0xFFF ||
    match s.vlanOf vid with
    | none => true
    | some v => s.rb Fx.CFL_PORT_VLAN_IN_FILT i && !v.member.testBit i

/-- R105: the class of a PCP at input `i`. -/
def State.classOf (s : State) (i pcp : Nat) : Nat :=
  let k := if s.rb Fx.CFL_PORT_CFG_TRUST i then pcp else s.rf Fx.CFL_PORT_CFG_DEF_PCP i
  ((s.rg .CFL_PCP_MAP i).toNat / 2 ^ (3 * k)) % 8

/-- Step 7 and R109: the targets of a frame by lookup and filtering. -/
def State.lookupTargets (s : State) (i dst : Nat) (v : VlanEntry) : List Nat :=
  let found := s.fdbFind dst v.fid
  (List.range 17).filter fun p =>
    p != i && s.variant.hasPort p && v.member.testBit p && s.rf Fx.CFL_PORT_CFG_STATE p == 2
      && !(p == 1 && s.p1IsPairLink) && match found with
         | some (_, e) => e.ports.testBit p
         | none =>
           if dst == broadcastMac then true
           else if isGroup dst then s.rb Fx.CFL_PORT_CFG_MFLOOD p
           else s.rb Fx.CFL_PORT_CFG_UFLOOD p

/-- R129, R131: a frame from elsewhere whose targets include A or B goes to both; a frame received on one is not
sent to the other by the lookup of a PRP instance. -/
def State.redTargets (s : State) (i : Nat) (ts : List Nat) : List Nat :=
  [0, 1].foldl (fun ts k =>
    if s.rf Fx.CFL_RED_CFG_MODE k == 0 then ts
    else
      let a := s.redA k
      let b := s.redB k
      if i == a || i == b then
        (if s.rf Fx.CFL_RED_CFG_MODE k == 1 then ts.filter (fun p => p != a && p != b) else ts)
      else if ts.contains a || ts.contains b then
        (List.range 17).filter (fun p => ts.contains p || p == a || p == b)
      else ts) ts

/-- Steps 1 to 8 for a frame received on input `i` (or handed in as received there). -/
def State.ingress (s : State) (i : Nat) (d : List Byte) (cls : Option Nat) : Ingress :=
  let st := s.rf Fx.CFL_PORT_CFG_STATE i
  let vp := s.classify i d
  let c := cls.getD (s.classOf i vp.2)
  let dst := macAt d 0
  if st == 0 then .drop 3
  else if s.vlanDrop i d then .drop 2
  else if dst / 16 == 0x0180C200000 then
    (if (s.rg .CFL_TRAP).getLsbD (dst % 16) then .fwd [14 + s.rf Fx.CFL_TRAP_DEST] c vp.1 vp.2 true else .drop 5)
  else if st == 1 then .drop 3
  else
    match s.vlanOf vp.1 with
    | none => .drop 2
    | some v =>
      let sup := (s.redOf i).isSome && dst / 256 == 0x01154E0001
      let ts0 := s.redTargets i (s.lookupTargets i dst v)
      let ts := if sup then (List.range 17).filter (fun p => ts0.contains p || p == 14 + s.rf Fx.CFL_TRAP_DEST) else ts0
      if ts.isEmpty && (s.redOf i).isNone then .drop 5 else .fwd ts c vp.1 vp.2 false

/-! ### Buffer accounting (R90 to R99) -/

/-- K: the cells committed and not yet written. -/
def State.committed (s : State) : Nat := (s.cfl.frames.map (·.commit)).sum

/-- H(s): the cells held by frames from an input. -/
def State.heldCells (s : State) (i : Nat) : Nat := ((s.cfl.frames.filter (fun f => f.inp == i)).map (·.cells)).sum

/-- R99: the back-pressure thresholds of input `i` are in use. -/
def State.bpUsed (s : State) (i : Nat) : Bool :=
  s.rf Fx.CFL_PORT_FC_XOFF i != 0 && (i == 14 || i == 15 || (decide (i < 10) && !(s.macOf i).half))

/-- R199: send a PAUSE frame with `q` quanta, after the frame in transmission; it wakes a port in LPI (R188) and waits for a retrain. A
port without link sends nothing (R179). -/
def State.pause (s : State) (p q : Nat) : State :=
  if !s.portLink p then s
  else if (s.macOf p).txLpi then
    s.macUpd p fun m => { m with txLpi := false, waking := true, pauseDue := m.pauseDue ++ [q] }
  else if (s.outOf p).cur.isSome || (s.macOf p).waking || (s.macOf p).retraining then s.macUpd p fun m => { m with pauseDue := m.pauseDue ++ [q] }
  else (s.emit (.pauseFrame p q)).mcnt p 27

/-- R99, Table 03-2: assert or release the back-pressure of input `i` as H(s) stands. -/
def State.bpCheck (s : State) (i : Nat) : State :=
  if !s.bpUsed i then s
  else
    let h := s.heldCells i
    if !(s.inOf i).bp && decide (s.rf Fx.CFL_PORT_FC_XOFF i ≤ h) then
      let s1 := (s.inUpd i fun x => { x with bp := true }).icnt i 9
      if i < 10 ∧ s.rb Fx.MAC_PAUSE_TX_EN i then s1.pause i (s.rf Fx.MAC_PAUSE_QUANTA i) else s1
    else if (s.inOf i).bp && decide (h < s.rf Fx.CFL_PORT_FC_XON i) then
      let s1 := s.inUpd i fun x => { x with bp := false }
      if i < 10 ∧ s.rb Fx.MAC_PAUSE_TX_EN i then s1.pause i 0 else s1
    else s

/-- The lowest frame descriptor not in use. -/
def State.freshFid (s : State) : Nat :=
  ((List.range (s.cfl.frames.length + 1)).find? fun n => (s.frameOf n).isNone).getD 0

/-- R91: buffer admission of a frame of `n` cells in class `c` (DEDUCED, log entry 102). -/
def State.admits (s : State) (n c : Nat) : Bool :=
  let q := if c < s.rf Fx.CFL_ADM_CFG_PRIO_CLS then s.rf Fx.CFL_ADM_CFG_RESERVE else 0
  decide (0 < s.cfl.freeFd) && decide (n + q + s.committed ≤ s.cfl.freeCells)

/-- R138: free a frame with reference count 0 whose last cell is written. -/
def State.release (s : State) (fid : Nat) : State :=
  match s.frameOf fid with
  | none => s
  | some f =>
    if f.refc = 0 ∧ f.writing = false then
      ({ s with cfl := { s.cfl with frames := s.cfl.frames.filter (fun x => x.fid != fid),
                                    freeCells := s.cfl.freeCells + f.cells, freeFd := s.cfl.freeFd + 1 } }).bpCheck f.inp
    else s

/-- R137: decrement the reference count, and free under R138. -/
def State.unref (s : State) (fid : Nat) : State :=
  (s.frameUpd fid fun f => { f with refc := f.refc - 1 }).release fid

/-! ### Outcomes of host and core frames (R63, R64, R355) -/

/-- Note in a list of entries that a target of the frame numbered `first` has ended. -/
def noteEntry (first p : Nat) (r : TxResult) (l : List TxEntry) : List TxEntry :=
  l.map fun e =>
    if e.first == first then
      match e.phase with
      | .inSwitch n => { e with phase := .inSwitch (n - 1), results := e.results ++ [(p, r)] }
      | _ => e
    else e

/-- Note that target `p` of a frame has ended with this result. -/
def State.note (s : State) (f : Frame) (p : Nat) (r : TxResult) : State :=
  match f.origin with
  | .host k g first =>
    { s with hst := { s.hst with txr := vupd s.hst.txr k fun t =>
        if t.gen = g then { t with work := noteEntry first p r t.work } else t } }
  | .core k q _ => { s with fq := vupd s.fq k fun t => { t with work := noteEntry q p r t.work } }
  | _ => s

/-! ### Enqueue (R94, R98, R101, R141, R235, R280) -/

/-- The bytes of a frame as sent at output `p`: tag (R104), trailer or tag of a redundancy instance (R129 to R131), padding (R196). -/
def State.sentBytes (s : State) (f : Frame) (p : Nat) : List Byte :=
  let d0 := match f.redIn with
    | some i =>
      if p == s.redA i || p == s.redB i then f.data
      else if s.rf Fx.CFL_RED_CFG_MODE i == 1 then f.data.take (f.data.length - 6)
      else f.data.take 12 ++ f.data.drop 18
    | none => f.data
  let d1 :=
    if f.explicit then d0
    else
      let untag := match s.vlanOf f.vid with
        | some v => v.untag.testBit p
        | none => false
      let tci := f.pcp * 8192 + (if isTagged d0 then (be16 d0 14 / 4096) % 2 * 4096 else 0) + f.vid
      if untag then (if isTagged d0 then d0.take 12 ++ d0.drop 16 else d0)
      else d0.take 12 ++ [0x81, 0x00] ++ be16Bytes tci ++ (if isTagged d0 then d0.drop 16 else d0.drop 12)
  let pad := fun (d : List Byte) => d ++ List.replicate (60 - d.length) 0
  match f.red with
  | some (i, seq) =>
    if p == s.redA i || p == s.redB i then
      (if s.rf Fx.CFL_RED_CFG_MODE i == 1 then
        let e := pad d1
        e ++ prpTrailer seq (if p == s.redA i then 0xA else 0xB) (lsduSize e 6)
      else pad (hsrInsert d1 seq))
    else pad d1
  | none => pad d1

/-- Length with FCS of a frame as sent at output `p`. -/
def State.sentLen (s : State) (f : Frame) (p : Nat) : Nat := (s.sentBytes f p).length + 4

/-- O of R94, R95: the cells of a class queue; a frame being written counts N. -/
def State.occupancy (s : State) (p c : Nat) : Nat :=
  (((s.outOf p).queue c).map fun e =>
    match s.frameOf e.fid with
    | some f => f.cells + f.commit
    | none => 0).sum

/-- R94: a queue entry is free and the occupancy stays within the limit. -/
def State.fits (s : State) (p c n : Nat) : Bool :=
  decide (0 < s.cfl.freeQe) && decide (s.occupancy p c + n ≤ s.rf Fx.CFL_OQ_CFG_LIMIT p c)

/-- Put a frame on class queue (p, c): the reference count and the counters of R94. -/
def State.pushQueue (s : State) (fid p c : Nat) (e : QEntry) : State :=
  let s1 := (s.outUpd p fun o => o.setQueue c (o.queue c ++ [e])).frameUpd fid fun f => { f with refc := f.refc + 1 }
  ({ s1 with cfl := { s1.cfl with freeQe := s1.cfl.freeQe - 1 } }).qcnt p c 0

/-- MAX_LATE of a launch time base in ns. -/
def State.maxLate (s : State) (tb : Nat) : Nat := s.rf Fx.TB_LAUNCH_CFG_MAX_LATE tb * 1000

/-- R235 rows 1 and 2: the status with which a launch-timed frame is refused when it is offered now. -/
def State.launchRefuses (s : State) (l : Option (Nat × Int)) : Option Nat :=
  match l with
  | none => none
  | some (tb, t) =>
    let now := Int.ofNat (s.tbNs tb)
    if now + 2000000000 < t ∨ t + 2000000000 < now then some 0x09
    else if s.maxLate tb ≠ 0 ∧ t + Int.ofNat (s.maxLate tb) < now then some 0x08
    else none

/-- Count a launch refused or missed (Table 06-5). -/
def State.countLaunch (s : State) (l : Option (Nat × Int)) (status : Nat) : State :=
  match l with
  | none => s
  | some (tb, _) => if status = 0x09 then s.bump Fx.TB_MISS_CNT_HORIZON 1 tb else s.bump Fx.TB_MISS_CNT_MISSED 1 tb

/-- The launch time of a frame has been reached on its time base, in service (condition 4 of R114). -/
def State.launchReached (s : State) (l : Option (Nat × Int)) : Bool :=
  match l with
  | none => true
  | some (tb, t) => !s.tbOos tb && decide (t ≤ Int.ofNat (s.tbNs tb))

/-- R188: an enqueue or a due PAUSE wakes a port in LPI. -/
def State.wakeLpi (s : State) (p : Nat) : State :=
  if (s.macOf p).txLpi then s.macUpd p fun m => { m with txLpi := false, waking := true } else s

/-- Offer a frame to output `p` (R94 and what is judged before it); cut-through or stored. -/
def State.offer (s : State) (fid p : Nat) (cut : Bool) : State :=
  match s.frameOf fid with
  | none => s
  | some f =>
    let c := f.cls
    let fromInside := match f.origin with
      | .host _ _ _ => true
      | .core _ _ _ => true
      | _ => false
    if f.explicit && s.rf Fx.CFL_PORT_CFG_STATE p == 0 then (s.qcnt p c 3).note f p (.unsent 0x05)
    else if p == 1 && s.p1IsPairLink then s.note f p (.unsent 0x05)
    else if fromInside && decide (p < 14) && (s.rg .PAIR_PORT_GATE).getLsbD p && s.rb Fx.PAIR_CFG_EN && s.pair.st != 3 then
      (s.bump Fx.PAIR_CNT_COUNT 1 9).note f p (.unsent 0x05)
    else if !cut && decide (s.maxLen p (isTagged (s.sentBytes f p)) < s.sentLen f p) then
      (s.qcnt p c 7).note f p (.unsent 0x03)
    else
      match s.launchRefuses f.launch with
      | some st => (s.countLaunch f.launch st).note f p (.unsent st)
      | none =>
        if decide (p < 10) && !s.portLink p && s.rb Fx.MAC_LINK_CFG_FLUSH_DOWN p then
          (s.mcnt p 33).note f p (.unsent 0x05)
        else
          let waiting := s.cfl.residue.any fun r => r.port == p && r.cls == c
          let compat := s.rb Fx.CFL_CTL_COMPAT
          if !(compat && waiting) && s.fits p c (f.cells + f.commit) then
            (s.pushQueue fid p c ⟨fid, s.launchReached f.launch, cut⟩).wakeLpi p
          else if compat && decide (s.cfl.residue.length < 512) && !cut then
            ({ s with cfl := { s.cfl with residue := s.cfl.residue ++ [Residue.mk fid p c] } } : State).frameUpd fid
              fun f => { f with refc := f.refc + 1 }
          else (s.qcnt p c 2).note f p (.unsent 0x05)

/-- R143: retry the residue entries of queue (p, c), oldest first, after its occupancy fell. -/
def State.retryResidue (s : State) (p c : Nat) : Nat → State
  | 0 => s
  | n + 1 =>
    match s.cfl.residue.find? (fun r => r.port == p && r.cls == c) with
    | none => s
    | some r =>
      match s.frameOf r.fid with
      | none => { s with cfl := { s.cfl with residue := s.cfl.residue.erase r } }
      | some f =>
        if s.fits p c (f.cells + f.commit) then
          let s1 := { s with cfl := { s.cfl with residue := s.cfl.residue.erase r } }
          let s2 := (s1.pushQueue r.fid p c ⟨r.fid, s1.launchReached f.launch, false⟩).frameUpd r.fid
            fun f => { f with refc := f.refc - 1 }
          (s2.wakeLpi p).retryResidue p c n
        else s

/-- Remove a frame from queue (p, c), note its outcome and decrement its reference count. -/
def State.dequeue (s : State) (fid p c : Nat) (r : TxResult) : State :=
  match s.frameOf fid with
  | none => s
  | some f =>
    let s1 := s.outUpd p fun o => o.setQueue c ((o.queue c).filter fun e => e.fid != fid)
    let s2 := { s1 with cfl := { s1.cfl with freeQe := s1.cfl.freeQe + 1 } }
    ((s2.note f p r).unref fid).retryResidue p c 512

/-! ### Gates (R116 to R123) -/

/-- The gates of a port now: all open without an operative list. -/
def Gate.gates (g : Gate) : BitVec 8 :=
  if g.operEn then
    match g.list[g.entry]? with
    | some (_, _, x) => x
    | none => 0
  else 0xFF

/-- Gate `c` of output `p` is open; SP14 to SP16 have none. -/
def State.gateOpen (s : State) (p c : Nat) : Bool :=
  if p < 14 then (s.gateOf p).gates.getLsbD c else true

/-- The administrative list of a port as software has written it. -/
def State.adminList (s : State) (p : Nat) : List (Nat × Nat × BitVec 8) :=
  (List.range (s.rf Fx.CFL_GCL_ADMIN_CFG_LEN p)).map fun i =>
    (s.rf Fx.CFL_GCL_ENTRY_INT_INTERVAL p i, s.rf Fx.CFL_GCL_ENTRY_OP_OP p i,
      BitVec.ofNat 8 (s.rf Fx.CFL_GCL_ENTRY_OP_GATES p i))

/-- The position of a list at `e` ns after a cycle start, `e` within the cycle: entry and its start. -/
def gatePos : List (Nat × Nat × BitVec 8) → Nat → Nat → Nat → Nat × Nat
  | [], i, t, _ => (i - 1, t)
  | [_], i, t, _ => (i, t)
  | (d, _) :: rest, i, t, e => if e < t + d then (i, t) else gatePos rest (i + 1) (t + d) e

/-- R123, R217: put the operative list of port `p` at the entry that its time gives. -/
def State.gateSeek (s : State) (p : Nat) : State :=
  let g := s.gateOf p
  if !g.operEn || s.tbOos g.operTb || g.extended then s
  else
    let now := s.tbNs g.operTb
    let cyc := max 1 g.operCycle
    let e := if g.cycleStart ≤ now then (now - g.cycleStart) % cyc else (cyc - (g.cycleStart - now) % cyc) % cyc
    let pos := gatePos g.list 0 0 e
    s.gateUpd p fun g => { g with entry := pos.1, cycleStart := now - e, entryStart := now - e + pos.2 }

/-- R217: after a step of time base `n`, every list that runs on it is at the entry that its time gives. -/
def State.gateSeekAll (s : State) (n : Nat) : State :=
  (List.range 14).foldl (fun s p =>
    if (s.gateOf p).operTb == n || s.tbPrimary (s.gateOf p).operTb == n then s.gateSeek p else s) s

/-- The time for which gate `c` stays open from the start of entry `i` of a repeating list on, counted in ns;
`none` when it does not close within the fuel (R121: across entries and cycle boundaries). -/
def openRun (l : List (Nat × Nat × BitVec 8)) (cycle c : Nat) : Nat → Nat → Nat → Nat → Option Nat
  | 0, _, _, _ => none
  | fuel + 1, i, inCycle, acc =>
    match l[i]? with
    | none => some acc
    | some (d, _, x) =>
      if !x.getLsbD c then some acc
      else
        let last := i + 1 ≥ l.length || inCycle + d ≥ cycle
        let dur := if last then cycle - inCycle else d
        if last then openRun l cycle c fuel 0 0 (acc + dur) else openRun l cycle c fuel (i + 1) (inCycle + dur) (acc + dur)

/-- R118: with a change pending, the operative list is followed up to this time on the operative time base: the start of the cycle that
does not start because the change falls less than EXT after it, else the change itself. -/
def State.gateBound (s : State) (p change : Nat) : Nat :=
  let g := s.gateOf p
  let cycEnd := g.cycleStart + g.operCycle
  if g.extended then 0
  else if cycEnd ≤ change then
    let r := (change - cycEnd) % max 1 g.operCycle
    if r < g.operExt then change - r else change
  else change

/-- R121: T_close of gate `c` of port `p` on the operative time base, `none` when it does not close, or while the list is held (R123).
A pending change is followed at the ConfigChangeTime into the administrative list. -/
def State.gateClose (s : State) (p c : Nat) : Option Nat :=
  let g := s.gateOf p
  if decide (14 ≤ p) || s.tbOos g.operTb && g.operEn then none
  else
    let now := s.tbNs g.operTb
    let run :=
      if !g.operEn then none
      else (openRun g.list (max 1 g.operCycle) c (2 * g.list.length + 2) g.entry (g.entryStart - g.cycleStart) 0).map (g.entryStart + ·)
    if !g.gates.getLsbD c then some now
    else if !g.pending then run
    else
      let change := now + (g.cct - s.tbNs (s.rf Fx.CFL_GCL_ADMIN_CFG_TB p))
      let after :=
        if s.rb Fx.CFL_GCL_ADMIN_CFG_EN p then
          openRun (s.adminList p) (max 1 (s.rf Fx.CFL_GCL_ADMIN_CYCLE_NS p)) c (2 * s.rf Fx.CFL_GCL_ADMIN_CFG_LEN p + 2) 0 0 0
        else none
      match run with
      | some d => if d < s.gateBound p change then some d else after.map (change + ·)
      | none => after.map (change + ·)

/-- ns from now until gate `c` of port `p` closes. -/
def State.openLeft (s : State) (p c : Nat) : Option Nat :=
  (s.gateClose p c).map fun t => t - s.tbNs (s.gateOf p).operTb

/-- R124: transmit preemption is active at output `p`. -/
def State.preemptActive (s : State) (p : Nat) : Bool :=
  decide (p < 10) && s.rb Fx.CFL_FP_CFG_EN p && (s.rb Fx.CFL_FP_CFG_VERIFY_DIS p || (s.outOf p).verify == 3)

/-- R125: class `c` is sent preemptable at output `p`. -/
def State.preemptableCls (s : State) (p c : Nat) : Bool :=
  s.preemptActive p && (s.rf Fx.CFL_FP_CFG_PREEMPTABLE p).testBit c

/-- ns that `n` bytes take at a rate in kb/s, rounded up. -/
def nsOfBytes (n rate : Nat) : Nat := (n * 8 * 1000000 + rate - 1) / max 1 rate

/-- R121: a frame of length `len` fits the open period of gate `c` that has `left` ns. -/
def State.fitsGate (s : State) (p c len : Nat) (left : Option Nat) : Bool :=
  let l := if s.preemptableCls p c then 64 * (s.rf Fx.CFL_FP_CFG_ADD_FRAG p + 1) else len
  match left with
  | none => true
  | some d => decide (nsOfBytes (l + 20) (s.portRate p) ≤ d)

/-- L of R121: the length as sent, or the input's maximum while the frame is still arriving (Table 04-2, condition 7). -/
def State.fitLen (s : State) (f : Frame) (p : Nat) : Nat := if f.writing then s.maxLen f.inp f.tagged else s.sentLen f p

/-! ### Output scheduling (R114, R171) -/

/-- Condition 3 of R114: the class is not held back by its credit (R115). -/
def State.creditOk (s : State) (p c : Nat) : Bool :=
  !s.rb Fx.CFL_OQ_CFG_CBS_EN p c || decide (0 ≤ ((s.outOf p).credit[c]?).getD 0)
    || decide (s.portRate p ≤ s.rf Fx.CFL_OQ_SLOPE_IDLE p c)

/-- Whether the frame numbered `fid` is on the wire of output `p`, or preempted there. -/
def OutPort.sending (o : OutPort) (fid : Nat) : Bool :=
  (match o.cur with | some x => x.fid == fid | none => false)
    || (match o.preempted with | some x => x.fid == fid | none => false)

/-- R184: a port that runs PLCA starts a frame in its own transmit opportunity only, at most MAX_BC after the first
(DEDUCED, log entry 195). -/
def State.plcaMay (s : State) (p : Nat) : Bool :=
  p < 10 || !s.rb Fx.MAC_PLCA_CFG_EN p || !(s.macOf p).plcaActive
    || ((s.macOf p).plcaPos == s.rf Fx.MAC_PLCA_CFG_NODE_ID p && decide ((s.macOf p).plcaSent ≤ s.rf Fx.MAC_PLCA_BURST_MAX_BC p))

/-- The output may start frames at all: link, PAUSE (condition 5), LPI and wake (R189), retrain (R200), fatal state (R524). -/
def State.outReady (s : State) (p : Nat) : Bool :=
  if p < 14 then
    let m := s.macOf p
    s.portLink p && s.phyOn p && !m.pauseHeld && !m.txLpi && !m.waking && !m.retraining && !m.backoff && s.plcaMay p
  else s.swOn

/-- Condition 5 lifted: a hold never stops the fragments of a preempted frame (Table 05-3). -/
def State.outReadyResume (s : State) (p : Nat) : Bool :=
  let m := s.macOf p
  s.portLink p && s.phyOn p && !m.txLpi && !m.waking && !m.retraining

/-- R114: the head frame of class `c` is eligible at output `p`. -/
def State.eligible (s : State) (p c : Nat) : Bool :=
  match (s.outOf p).queue c with
  | [] => false
  | e :: _ =>
    match s.frameOf e.fid with
    | none => false
    | some f =>
      s.outReady p && s.gateOpen p c && s.fitsGate p c (s.fitLen f p) (s.openLeft p c) && s.creditOk p c
        && (match f.launch with
            | none => true
            | some (tb, _) => !s.tbOos tb && (e.ripe || s.launchReached f.launch))
        && !(s.preemptableCls p c && (s.gateOf p).hold && decide (p < 14))
        && !(s.outOf p).sending e.fid

/-- A calibration word: signed, 24 bits, 1/256 ns (Table 06-7). -/
def sgn24 (n : Nat) : Int := if n < 8388608 then Int.ofNat n else Int.ofNat n - 16777216

/-- The earliest stamp, in 1/256 ns of time base `tb`, that a frame started now at output `p` can take: preamble, SFD and calibration
precede it on a wire (R230, R233, R575) (DEDUCED, log entry 208). -/
def State.earliestStamp (s : State) (p tb : Nat) : Int :=
  Int.ofNat (s.tbTime tb / 16777216) +
    (if p < 14 then Int.ofNat (64000000 * 256 / s.portRate p) + sgn24 (s.rf Fx.TB_CAL_TX_DELAY p) else 0)

/-- R171: the outcome with which the head of queue (p, c) is discarded when it is examined now. -/
def State.examHead (s : State) (p c : Nat) (f : Frame) : Option Nat :=
  let late := match f.launch with
    | none => false
    | some (tb, t) => !s.tbOos tb && s.maxLate tb != 0 && decide ((t + Int.ofNat (s.maxLate tb)) * 256 < s.earliestStamp p tb)
  if late then some 0x08
  else
    let lim := s.rf Fx.CFL_AGE_LIM_US p c
    if lim != 0 && decide (lim < s.tbNs 0 / 1000 - f.admitUs) then some 0x06 else none

/-- R171: examine the head of class `c` of output `p`, discarding while it is missed or aged. -/
def State.examine (s : State) (p c : Nat) : Nat → State
  | 0 => s
  | n + 1 =>
    match (s.outOf p).queue c with
    | [] => s
    | e :: _ =>
      match s.frameOf e.fid with
      | none => s
      | some f =>
        if (s.outOf p).sending e.fid then s
        else
          match s.examHead p c f with
          | none => s
          | some st =>
            let s1 := if st = 0x08 then s.countLaunch f.launch 0x08 else s.qcnt p c 4
            (s1.dequeue e.fid p c (.unsent st)).examine p c n

/-- R171: examine every class of an output, the highest first. -/
def State.examineAll (s : State) (p : Nat) : State :=
  [7, 6, 5, 4, 3, 2, 1, 0].foldl (fun s c => s.examine p c (((s.outOf p).queue c).length)) s

/-- Begin sending the head frame of class `c` at output `p`. -/
def State.startFrame (s : State) (p c : Nat) : State :=
  match (s.outOf p).queue c with
  | [] => s
  | e :: _ =>
    match s.frameOf e.fid with
    | none => s
    | some f =>
      (s.outUpd p fun o => { o with cur := some ⟨e.fid, c, e.cut, false, s.preemptableCls p c⟩, gap := false, lastCls := c }).emit
        (.frameStart p (s.sentBytes f p))

/-- R114, R125: the highest eligible class of output `p`; while a frame is preempted, an express class only. -/
def State.pickClass (s : State) (p : Nat) : Option Nat :=
  [7, 6, 5, 4, 3, 2, 1, 0].find? fun c =>
    s.eligible p c && !((s.outOf p).preempted.isSome && s.preemptableCls p c)

/-- R114: an idle output selects its next frame; a preempted frame resumes when no express frame is eligible (R125). SP16 selects
when a GATEWAY slot is due only (R258). -/
def State.select (s : State) (p : Nat) : State :=
  let s1 := s.examineAll p
  if (s1.outOf p).cur.isSome || p == 16 then s1
  else
    match s1.pickClass p with
    | some c => s1.startFrame p c
    | none =>
      match (s1.outOf p).preempted with
      | some x =>
        if s1.outReadyResume p && s1.gateOpen p x.cls && !(decide (p < 14) && (s1.gateOf p).hold) then
          (s1.outUpd p fun o => { o with cur := some x, preempted := none, lastCls := x.cls }).emit (.resumed p)
        else s1
      | none => s1

/-! ### Complete frames (R91, R94) -/

/-- A frame is on its way to the targets `ts`: enqueue a stored frame on each, in ascending order, and free it where none accepts it. -/
def State.offerAll (s : State) (fid : Nat) (ts : List Nat) : State :=
  (ts.foldl (fun s p => s.offer fid p false) s).release fid

/-- R129, R131: give a frame for a redundancy pair its sequence number and, for HSR, its own record. -/
def State.redSend (s : State) (fid : Nat) (ts : List Nat) : State :=
  match s.frameOf fid with
  | none => s
  | some f =>
    [0, 1].foldl (fun s i =>
      let a := s.redA i
      let b := s.redB i
      if s.rf Fx.CFL_RED_CFG_MODE i == 0 || f.inp == a || f.inp == b || !(ts.contains a || ts.contains b) || f.explicit then s
      else
        let seq := s.redSeqOf i
        let prp := s.rf Fx.CFL_RED_CFG_MODE i == 1
        let g := { f with red := some (i, seq) }
        let long := [a, b].any fun p => decide (s.maxLen p (isTagged (s.sentBytes g p)) < s.sentLen g p)
        if prp && long then s.bump Fx.CFL_RED_NO_RCT_TX_COUNT 1 i
        else
          let s1 := { s with cfl := { s.cfl with redSeq := vupd s.cfl.redSeq i fun _ => (seq + 1) % 65536 } }
          let s2 := s1.frameUpd fid fun f => { f with red := some (i, seq) }
          if prp then s2 else s2.dupInsert ⟨i, macAt f.data 6, seq, true, 2 ^ a + 2 ^ b⟩) s

/-- Store a complete frame (R91), enqueue it on its targets (R94) and learn its source where it took the steps of Table 03-3 (R101).
When it is refused, every target ends with DROPPED. -/
def State.storeComplete (s : State) (f : Frame) (ts : List Nat) : State :=
  let n := cellsOf (f.data.length + 4)
  if s.admits n f.cls then
    let fid := s.freshFid
    let g := { f with fid := fid, cells := n, commit := 0, writing := false, refc := 0, admitUs := s.tbNs 0 / 1000 }
    let s1 := { s with cfl := { s.cfl with frames := s.cfl.frames ++ [g], freeCells := s.cfl.freeCells - n, freeFd := s.cfl.freeFd - 1 } }
    let s2 := ((s1.icnt f.inp 0).bpCheck f.inp).redSend fid ts
    let s3 := s2.offerAll fid ts
    if f.explicit then s3 else s3.learn f.inp f.vid (macAt f.data 6)
  else
    ts.foldl (fun s p => s.note f p (.unsent 0x05)) (s.icnt f.inp 1)

/-- The frame record of a complete frame. -/
def mkFrame (d : List Byte) (inp cls vid pcp : Nat) (origin : Origin) (launch : Option (Nat × Int)) (explicit : Bool)
    (stamp : Option Nat) (stampTb : Nat) : Frame :=
  { fid := 0, data := d, inp := inp, cls := cls, vid := vid, pcp := pcp, tagged := isTagged d, admitUs := 0,
    launch := launch, stamp := stamp, stampTb := stampTb, cells := 0, commit := 0, writing := false, refc := 0,
    stored := [], explicit := explicit, origin := origin, red := none, redIn := none, suspect := false }

end Sys2Proof.Machine
end

