-- ==== Sys2Proof/Machine/Switch.lean ====
section
/-!
DEFINITION. The meanings of the switch commands of spec/03 and spec/04.
-/
namespace Sys2Proof.Machine
open Sys2Proof

/-! ### Reception (Table 03-3, Table 05-2, R147 to R153) -/

/-- R193: the hash bin of a destination address, its bytes in wire order. -/
def crcStep (crc : Nat) : Nat := if crc % 2 = 1 then Nat.xor (crc / 2) 0xEDB88320 else crc / 2
def crcByte (crc : Nat) (b : Nat) : Nat :=
  crcStep (crcStep (crcStep (crcStep (crcStep (crcStep (crcStep (crcStep (Nat.xor crc b))))))))
def hashBin (d : List Byte) : Nat :=
  Nat.xor ((List.range 6).foldl (fun c i => crcByte c (byteAt d i)) 0xFFFFFFFF) 0xFFFFFFFF / 2 ^ 23

/-- R192: the receive filter passes a frame. -/
def State.filterPass (s : State) (p : Nat) (d : List Byte) : Bool :=
  let dst := macAt d 0
  if !s.rb Fx.MAC_RX_FILT_EN p then true
  else if dst / 16 == 0x0180C200000 then true
  else if dst == broadcastMac && s.rb Fx.MAC_RX_FILT_BC p then true
  else if isGroup dst then (s.rg .MAC_HASH p (hashBin d / 32)).getLsbD (hashBin d % 32)
  else (List.range 32).any fun i =>
    s.rb Fx.MAC_UC_HI_EN p i && (s.rf Fx.MAC_UC_HI_ADDR p i * 2 ^ 32 + (s.rg .MAC_UC_LO p i).toNat == dst)

/-- A port of an enabled transit window (its frames never reach the switch), with the window. -/
def State.windowOf (s : State) (p : Nat) : Option Nat :=
  (List.range 4).find? fun w => s.rb Fx.CFL_TW_CFG_EN w && (s.rf Fx.CFL_TW_CFG_PORT_A w == p || s.rf Fx.CFL_TW_CFG_PORT_B w == p)

/-- The port receives frames for the switch: link, no retrain, not the pairing link, not a transit window. -/
def State.rxOpen (s : State) (p : Nat) : Bool :=
  s.variant.hasPort p && s.portLink p && !(s.macOf p).retraining && !(p == 1 && s.p1IsPairLink) && (s.windowOf p).isNone
    && s.phyOn p

/-- Table 04-2: target `p` of the frame `f` just admitted is cut through; a queue with residue entries takes no enqueue (R142).
A port in LPI, waking, retraining or with a PAUSE due is not idle (DEDUCED, log entry 207). -/
def State.cutsThrough (s : State) (f : Frame) (p : Nat) : Bool :=
  let i := f.inp
  let c := f.cls
  let o := s.outOf p
  decide (i < 14) && s.rf Fx.CFL_CT_CFG_IN_EN / 2 ^ i % 2 == 1
  && decide (p < 14) && s.rf Fx.CFL_CT_CFG_OUT_EN / 2 ^ p % 2 == 1
  && decide (s.portRate p ≤ s.portRate i)
  && (s.redOf i).isNone && (s.redOf p).isNone
  && s.portLink p && o.cur.isNone && o.preempted.isNone && !o.gap
  && (List.range 8).all (fun k => (o.queue k).isEmpty)
  && !(s.macOf p).txLpi && !(s.macOf p).waking && !(s.macOf p).retraining && (s.macOf p).pauseDue.isEmpty
  && !(s.macOf p).pauseHeld && !(s.gateOf p).hold
  && s.gateOpen p c && s.fitsGate p c (s.fitLen f p) (s.openLeft p c) && s.creditOk p c
  && s.fits p c f.commit && !(s.rb Fx.CFL_CTL_COMPAT && s.cfl.residue.any fun r => r.port == p && r.cls == c)

/-- Decide one target at admission: cut through and enqueued at once, or left for the end of the frame (R147 to R149)
(DEDUCED, log entry 207). -/
def State.decideTarget (s : State) (fid p : Nat) : State :=
  match s.frameOf fid with
  | none => s
  | some f =>
    if s.cutsThrough f p then
      let s1 := (s.offer fid p true).bump Fx.CFL_CT_CNT_COUNT 1 p
      if (s1.outOf p).cur.isNone && s1.outReady p then s1.startFrame p f.cls else s1
    else s.frameUpd fid fun f => { f with stored := f.stored ++ [p] }

/-- INGRESS_ADMISSION: the first 64 bytes of a frame are in on port `p` (R91, R100, R147). -/
def execIngressAdmission (p : Fin 14) (hdr : List Byte) (ts : Nat) (s : State) : Out State :=
  let i := p.val
  if !s.rxOpen i || decide (hdr.length < 64) || be16 hdr 12 == 0x8808 || !s.filterPass i hdr || !s.rb Fx.CFL_CTL_EN then
    .next (s.inUpd i fun x => { x with rx := some none })
  else
    match s.ingress i hdr none with
    | .drop k => .next ((s.icnt i k).inUpd i fun x => { x with rx := some none })
    | .fwd tgts cls vid pcp trap =>
      let s0 := if trap then s.icnt i 6 else s
      let n := cellsOf (s.maxLen i (isTagged hdr))
      if !s0.admits n cls then .next ((s0.icnt i 1).inUpd i fun x => { x with rx := some none })
      else
        let fid := s0.freshFid
        let tb := s0.rf Fx.MAC_CFG_TS_TB i
        let stamp := (Int.ofNat ts - sgn24 (s0.rf Fx.TB_CAL_RX_DELAY i)).toNat
        let f := { mkFrame hdr i cls vid pcp .wire none false (if s0.tbOos tb then none else some stamp) tb with
                   fid := fid, commit := n, writing := true, admitUs := s0.tbNs 0 / 1000 }
        let s1 := { s0 with cfl := { s0.cfl with frames := s0.cfl.frames ++ [f], freeFd := s0.cfl.freeFd - 1 } }
        let s2 := (s1.icnt i 0).inUpd i fun x => { x with rx := some (some fid) }
        .next (tgts.foldl (fun s q => s.decideTarget fid q) s2)

/-- The frame's cells are written: they leave the free list (R91, R95) (DEDUCED, log entry 102). Where its cut-through queues fall, residue
entries are retried (R143). -/
def State.finishWrite (s : State) (fid : Nat) (d : List Byte) : State :=
  let n := cellsOf (d.length + 4)
  let s1 := s.frameUpd fid fun f => { f with data := d, cells := n, commit := 0, writing := false }
  let s2 := { s1 with cfl := { s1.cfl with freeCells := s1.cfl.freeCells - n } }
  match s2.frameOf fid with
  | none => s2
  | some f => (List.range 14).foldl (fun s p =>
      if ((s.outOf p).queue f.cls).any (fun e => e.fid == fid) then s.retryResidue p f.cls 512 else s) s2

/-- R151, R153: a frame ended bad. Outputs that have begun it stomp it; cut-through targets not begun drop it. -/
def State.badEnd (s : State) (fid : Nat) (d : List Byte) (oversize : Bool) : State :=
  match s.frameOf fid with
  | none => s
  | some f =>
    let s1 := s.finishWrite fid d
    let s2 := (List.range 14).foldl (fun s p =>
      if (s.outOf p).sending fid then
        s.outUpd p fun o =>
          { o with cur := o.cur.map (fun x => if x.fid == fid then { x with stomp := true } else x),
                   preempted := o.preempted.map (fun x => if x.fid == fid then { x with stomp := true } else x) }
      else if ((s.outOf p).queue f.cls).any (fun e => e.fid == fid) then s.dequeue fid p f.cls (.unsent 0x05)
      else s) s1
    let s3 := if oversize then f.stored.foldl (fun s p => s.qcnt p f.cls 7) s2 else s2
    (s3.bpCheck f.inp).release fid

/-- R130, R131, R133: what a redundancy instance makes of a good frame received on one of its ports: its targets. A frame that is no copy
and has none left is counted in NO_TARGET; the ring port takes step 7 as every output does (DEDUCED, log entry 206). -/
def State.redReceive (s : State) (fid : Nat) : State × List Nat :=
  match s.frameOf fid with
  | none => (s, [])
  | some f =>
    match s.redOf f.inp with
    | none => (s, f.stored)
    | some k =>
      let a := s.redA k
      let b := s.redB k
      let other := if f.inp == a then b else a
      let src := macAt f.data 6
      let local_ := f.stored.filter fun p => p != a && p != b
      let left := fun (s : State) (ts : List Nat) => (if ts.isEmpty then s.icnt f.inp 5 else s, ts)
      let strip := fun (s : State) => if s.rb Fx.CFL_RED_CFG_REMOVE k then s.frameUpd fid fun f => { f with redIn := some k } else s
      if s.rf Fx.CFL_RED_CFG_MODE k == 1 then
        match prpParse f.data with
        | none => left (s.bump Fx.CFL_RED_NO_TAG_COUNT 1 k) local_
        | some (seq, lan) =>
          let s1 := if lan == (if f.inp == a then 0xA else 0xB) then s else s.bump Fx.CFL_RED_WRONG_LAN_COUNT 1 k
          if s1.cfl.dup.any (fun e => e.key k src seq) then (s1.bump Fx.CFL_RED_DUP_DROP_COUNT 1 k, [])
          else left (strip (s1.dupInsert ⟨k, src, seq, false, 0⟩)) local_
      else if be16 f.data 12 == 0x892F then
        let seq := be16 f.data 16
        let onRing :=
          match s.vlanOf f.vid with
          | none => false
          | some v => v.member.testBit other && s.rf Fx.CFL_PORT_CFG_STATE other == 2 &&
            match s.fdbFind (macAt f.data 0) v.fid with
            | some (_, e) => isGroup (macAt f.data 0) || e.ports.testBit a || e.ports.testBit b
            | none => true
        match s.cfl.dup.find? (fun e => e.key k src seq) with
        | some e =>
          if e.own then (s.bump Fx.CFL_RED_OWN_DROP_COUNT 1 k, [])
          else
            let s1 := s.bump Fx.CFL_RED_DUP_DROP_COUNT 1 k
            if onRing && !e.sentTo.testBit other then
              ({ s1 with cfl := { s1.cfl with dup := s1.cfl.dup.map fun x => if x == e then { x with sentTo := x.sentTo + 2 ^ other } else x } },
               [other])
            else (s1, [])
        | none =>
          let s1 := s.dupInsert ⟨k, src, seq, false, if onRing then 2 ^ other else 0⟩
          left (strip s1) (if onRing then (List.range 17).filter (fun p => local_.contains p || p == other) else local_)
      else left (s.bump Fx.CFL_RED_NO_TAG_COUNT 1 k) local_

/-- R94, R110: a frame ended good: its stored targets are enqueued and its source is learned (DEDUCED, log entry 206). -/
def State.goodEnd (s : State) (fid : Nat) (d : List Byte) : State :=
  match s.frameOf fid with
  | none => s
  | some f =>
    let s1 := (s.finishWrite fid d).bpCheck f.inp
    let r := s1.redReceive fid
    let s2 := r.1.redSend fid r.2
    if (s.redOf f.inp).isSome && r.2.isEmpty then s2.release fid
    else (s2.offerAll fid r.2).learn f.inp f.vid (macAt d 6)

/-- R197, R198: a good MAC control frame. -/
def State.macControl (s : State) (p : Nat) (d : List Byte) : State :=
  if be16 d 14 == 1 && macAt d 0 == 0x0180C2000001 && !(s.macOf p).half && s.rb Fx.MAC_PAUSE_RX_EN p then
    let s1 := s.mcnt p 18
    let q := be16 d 16
    if q == 0 then
      let s2 := s1.macUpd p fun m => { m with pauseHeld := false, pauseQuanta := 0 }
      if (s2.outOf p).cur.isNone && !(s2.outOf p).gap then s2.select p else s2
    else s1.macUpd p fun m => { m with pauseHeld := true, pauseQuanta := q }
  else s.mcnt p 19

/-- The size bin of a good frame (Table 05-4). -/
def sizeBin (len : Nat) : Nat :=
  if len ≤ 64 then 5 else if len ≤ 127 then 6 else if len ≤ 255 then 7 else if len ≤ 511 then 8
  else if len ≤ 1023 then 9 else if len ≤ 1518 then 10 else 11

/-- The kind counter of a destination, from the counter for unicast on: unicast, multicast, broadcast. -/
def kindOf (base dst : Nat) : Nat := if dst == broadcastMac then base + 2 else if isGroup dst then base + 1 else base

/-- FRAME_END_AT_INPUT: the last byte of a frame on port `p` (R94, R97, R127, R151, R153, R195). A frame that ends while the port does not
work is lost and not counted (R502) (DEDUCED, log entries 153 and 191). -/
def execFrameEndAtInput (p : Fin 14) (data : List Byte) (fcs : FcsKind) (codeErrs : Nat) (partialByte : Bool) (form : RxForm)
    (s : State) : Out State :=
  let i := p.val
  if !(s.variant.hasPort i && s.portLink i) || (s.windowOf i).isSome || (i == 1 && s.p1IsPairLink) then .next s
  else
    let len := data.length + 4
    let rx := match (s.inOf i).rx with | some (some fid) => some fid | _ => none
    let s0 := s.inUpd i fun x => { x with rx := none }
    if !s.phyOn i then .next (match rx with | some fid => s0.badEnd fid data false | none => s0)
    else
    let bad := fun (s : State) (o : Bool) => match rx with | some fid => s.badEnd fid data o | none => s
    let s1 := s0.mcntAdd i 21 codeErrs
    let align := partialByte && (decide (10 ≤ i) || decide ((s.macOf i).rate ≤ 2))
    let s2 := if align then s1.mcnt i 16 else s1
    let broken := fcs == .bad || decide (0 < codeErrs) || align
    match form with
    | .assyErr => .next (bad (s2.bump Fx.CFL_FP_ASSY_ERR_COUNT 1 i) false)
    | .smdErr => .next (bad (s2.bump Fx.CFL_FP_SMD_ERR_COUNT 1 i) false)
    | _ =>
      let s3 := match form with
        | .assembled n => (s2.bump Fx.CFL_FP_ASSY_OK_COUNT 1 i).bump Fx.CFL_FP_FRAG_RX_COUNT n i
        | _ => s2
      if len < 64 then .next (bad (s3.mcnt i 12) false)
      else if s3.maxLen i (isTagged data) < len then .next (bad (s3.mcnt i 13) true)
      else if be16 data 12 == 0x8808 then
        .next (if fcs == .stomp then s3.mcnt i 15 else if broken then s3.mcnt i 14 else s3.macControl i data)
      else if !s3.filterPass i data then .next (bad (s3.mcnt i 17) false)
      else if fcs == .stomp then
        .next (bad (if rx.isSome then (s3.mcnt i 15).icnt i 4 else s3.mcnt i 15) false)
      else if broken || (s.macOf i).retraining then
        .next (bad (if rx.isSome then (s3.mcnt i 14).icnt i 4 else s3.mcnt i 14) false)
      else
        let s4 := (((s3.mcntAdd i 0 len).mcnt i 1).mcnt i (sizeBin len)).mcnt i (kindOf 2 (macAt data 0))
        .next (match rx with | some fid => s4.goodEnd fid data | none => s4)

/-! ### Transmission (R114, R125, R126, R137) -/

/-- OUTPUT_SELECT: the output is idle or its inter-packet gap has ended (R114). -/
def execOutputSelect (p : Fin 17) (s : State) : Out State :=
  if s.variant.hasPort p.val then .next ((s.outUpd p.val fun o => { o with gap := false }).select p.val) else .next s

/-- PAUSE frames that waited for the frame in transmission are sent (R199) (DEDUCED, log entry 193). -/
def State.sendDuePauses (s : State) (p : Nat) : State :=
  (s.macOf p).pauseDue.foldl (fun s q => (s.emit (.pauseFrame p q)).mcnt p 27) (s.macUpd p fun m => { m with pauseDue := [] })

/-- The transmit stamp with the board's calibration added (R230). -/
def State.txStamp (s : State) (p ts : Nat) : Nat :=
  if p < 14 then (Int.ofNat ts + sgn24 (s.rf Fx.TB_CAL_TX_DELAY p)).toNat else ts

/-- The result of a frame that was sent, with its stamp (R231, Table 06-5 rows 4 and 5). -/
def State.sentResult (s : State) (f : Frame) (stamp : Nat) : TxResult :=
  let late := match f.launch with
    | none => false
    | some (tb, t) => decide ((t + Int.ofNat (s.rf Fx.TB_LAUNCH_CFG_TOL tb)) * 256 < Int.ofNat stamp)
  .sent late (if s.tbOos f.stampTb then none else some stamp)

/-- A frame read out at SP14 or SP15 waits for its delivery there; a bad one is discarded before it (R69). -/
def State.toSink (s : State) (f : Frame) (q : Nat) (ecc stomp : Bool) : State :=
  if q < 14 ∨ q = 16 ∨ (stomp = true ∧ ecc = false) then s
  else
    let core := match f.origin with | .core _ _ c => c | _ => 0
    let dei := if isTagged f.data then be16 f.data 14 / 4096 % 2 else 0
    let d : Delivered := ⟨s.sentBytes f q, f.inp, core, f.cls, f.pcp * 8192 + dei * 4096 + f.vid, f.stamp, f.stampTb, ecc⟩
    { s with cfl := { s.cfl with sink := vupd s.cfl.sink (q - 14) fun l => l ++ [d] } }

/-- Output `q` ends its frame (R137, R150, R152, R154). -/
def State.transmitEnd (s : State) (q : Nat) (how : TxEnd) (deferred : Bool) (ts : Nat) : State :=
  match (s.outOf q).cur with
  | none => s
  | some x =>
    match s.frameOf x.fid with
    | none => s.outUpd q fun o => { o with cur := none, gap := true }
    | some f =>
      let tooLong := x.cut && decide (s.maxLen q (isTagged (s.sentBytes f q)) < s.sentLen f q)
      let stomp := x.stomp || how != .complete || tooLong || f.writing
      let s1 := s.qcnt q x.cls 1
      let s2 := if stomp then s1.qcnt q x.cls 8 else s1
      let s3 := if how == .underrun && decide (q < 14) then s2.bump Fx.CFL_CT_UNDERRUN_COUNT 1 q else s2
      let s4 := if q < 14 ∧ stomp = false then
          let a := ((s3.mcntAdd q 22 (s.sentLen f q)).mcnt q 23).mcnt q (kindOf 24 (macAt f.data 0))
          let b := if deferred then a.mcnt q 32 else a
          if (s.macOf q).collisions = 1 then b.mcnt q 28 else if 2 ≤ (s.macOf q).collisions then b.mcnt q 29 else b
        else s3
      let r := if how == .bufEcc then TxResult.unsent 0x0A else s4.sentResult f (s4.txStamp q ts)
      let s5 := match r, f.launch with
        | .sent true _, some (tb, _) => s4.bump Fx.TB_LATE_CNT_COUNT 1 tb
        | _, _ => s4
      let s6 := ((s5.outUpd q fun o => { o with cur := none, gap := decide (q < 14) }).emit (.frameEnd q stomp)).toSink
        f q (how == .bufEcc) stomp
      let s7 := s6.dequeue x.fid q x.cls r
      if q < 14 then
        (s7.macUpd q fun m => { m with collisions := 0, backoff := false, retry := none, plcaSent := m.plcaSent + 1 }).sendDuePauses q
      else s7

/-- FRAME_TRANSMIT_END. A frame on SP16 ends with its last fragment (R258): there the command can only mark it bad. -/
def execFrameTransmitEnd (p : Fin 17) (how : TxEnd) (deferred : Bool) (ts : Nat) (s : State) : Out State :=
  if p.val = 16 then
    .next (if how == .complete then s else s.outUpd 16 fun o => { o with cur := o.cur.map fun x => { x with stomp := true } })
  else .next (s.transmitEnd p.val how deferred ts)

/-- PREEMPTION: an express frame, a closed gate, a hold or a PAUSE that is due preempts the preemptable frame on the wire (R125, R126, R199). -/
def execPreemption (p : Fin 10) (s : State) : Out State :=
  let q := p.val
  match (s.outOf q).cur with
  | none => .next s
  | some x =>
    let express := [7, 6, 5, 4, 3, 2, 1, 0].any fun c => s.eligible q c && !s.preemptableCls q c
    if x.preemptable && (s.outOf q).preempted.isNone
        && (!(s.macOf q).pauseDue.isEmpty || (express || !s.gateOpen q x.cls || (s.gateOf q).hold) && !(s.macOf q).pauseHeld) then
      .next (((((s.outUpd q fun o => { o with cur := none, preempted := some x }).bump Fx.CFL_FP_FRAG_TX_COUNT 1 q).emit
        (.preempted q)).sendDuePauses q).select q)
    else .next s

/-- The operation of the entry after the one in force. -/
def Gate.nextOp (g : Gate) : Nat :=
  match g.list[g.entry + 1]? with
  | some (_, op, _) => op
  | none => match g.list[0]? with | some (_, op, _) => op | none => 0

/-- PREEMPTION_HOLD: ADV ns before a SetAndHold entry hold is raised; SetAndRelease lowers it at its start (R126). -/
def execPreemptionHold (p : Fin 10) (hold : Bool) (s : State) : Out State :=
  let g := s.gateOf p.val
  let cur := match g.list[g.entry]? with | some (_, op, _) => op | none => 0
  if g.operEn && (if hold then g.nextOp == 1 || cur == 1 else cur == 2) then
    .next (s.gateUpd p.val fun g => { g with hold := hold })
  else .next s

/-- PREEMPTION_VERIFY: the verify timer expires, or a respond mPacket has arrived (R124). -/
def execPreemptionVerify (p : Fin 10) (response : Bool) (s : State) : Out State :=
  let q := p.val
  if s.rb Fx.CFL_FP_CFG_EN q && !s.rb Fx.CFL_FP_CFG_VERIFY_DIS q && s.variant.hasPort q && s.portLink q
      && decide ((s.outOf q).verify < 3) then
    if response then .next (s.outUpd q fun o => { o with verify := 3 })
    else if (s.outOf q).verifyTx < 3 then
      .next ((s.outUpd q fun o => { o with verify := 2, verifyTx := o.verifyTx + 1 }).emit (.verify q))
    else .next (s.outUpd q fun o => { o with verify := 4 })
  else .next s

/-! ### Gate lists -/

/-- R122: when gate `c` opens for `period` ns, head frames that do not fit the whole period are discarded (DEDUCED, log entry 196). -/
def State.purgeGate (s : State) (p c : Nat) (period : Option Nat) : Nat → State
  | 0 => s
  | n + 1 =>
    match (s.outOf p).queue c with
    | [] => s
    | e :: _ =>
      match s.frameOf e.fid with
      | none => s
      | some f =>
        if (s.outOf p).sending e.fid || s.fitsGate p c (s.sentLen f p) period then s
        else ((s.qcnt p c 5).dequeue e.fid p c (.unsent 0x05)).purgeGate p c period n

/-- The gates of port `p` were `before`: classes that open now drop what cannot fit, hold follows the entry's operation,
and an idle output selects. -/
def State.gateOpened (s : State) (p : Nat) (before : BitVec 8) : State :=
  let g := s.gateOf p
  let s1 := (List.range 8).foldl (fun s c =>
    if !before.getLsbD c && g.gates.getLsbD c then
      let period := (s.gateClose p c).map fun t => t - g.entryStart
      s.purgeGate p c period ((s.outOf p).queue c).length
    else s) s
  let op := match g.list[g.entry]? with | some (_, op, _) => (if g.operEn then op else 0) | none => 0
  let s2 := s1.gateUpd p fun g => { g with hold := if op = 1 then true else if op = 2 then false else g.hold }
  if (s2.outOf p).cur.isNone && !(s2.outOf p).gap then s2.select p else s2

/-- GATE_ENTRY_CHANGE: the interval of the entry in force ends (R116, R118, R122). -/
def execGateEntryChange (p : Fin 14) (s : State) : Out State :=
  let q := p.val
  let g := s.gateOf q
  if !g.operEn || s.tbOos g.operTb || g.extended then .next s
  else
    let before := g.gates
    let d := match g.list[g.entry]? with | some (d, _, _) => d | none => 0
    let cycEnd := g.cycleStart + g.operCycle
    if g.entry + 1 ≥ g.list.length || g.entryStart + d ≥ cycEnd then
      let dist := Int.ofNat g.cct - Int.ofNat (s.tbNs (s.rf Fx.CFL_GCL_ADMIN_CFG_TB q))
        - (Int.ofNat cycEnd - Int.ofNat (s.tbNs g.operTb))
      if g.pending && decide (0 ≤ dist) && decide (dist < Int.ofNat g.operExt) then
        .next (s.gateUpd q fun g => { g with extended := true })
      else
        .next ((s.gateUpd q fun g => { g with entry := 0, cycleStart := cycEnd, entryStart := cycEnd }).gateOpened q before)
    else
      .next ((s.gateUpd q fun g => { g with entry := g.entry + 1, entryStart := g.entryStart + d }).gateOpened q before)

/-- The administrative base time of a port in ns. -/
def State.adminBase (s : State) (p : Nat) : Nat :=
  ((s.rf Fx.CFL_GCL_ADMIN_BASE_SEC_HI_SEC p * 2 ^ 32) + s.rf Fx.CFL_GCL_ADMIN_BASE_SEC_LO_SEC p) * nsPerSec
    + s.rf Fx.CFL_GCL_ADMIN_BASE_NS_NS p

/-- R118: the ConfigChangeTime of a change written now. -/
def State.configChangeTime (s : State) (p : Nat) : Nat :=
  let base := s.adminBase p
  let earliest := s.tbNs (s.rf Fx.CFL_GCL_ADMIN_CFG_TB p) + 2000
  let cyc := max 1 (s.rf Fx.CFL_GCL_ADMIN_CYCLE_NS p)
  if earliest ≤ base then base else base + (earliest - base + cyc - 1) / cyc * cyc

/-- GCL_CHANGE: R118, R119. -/
def execGclChange (m : Master) (p : Fin 14) (s : State) : Out State :=
  .next (s.cmdWrite m .CFL_GCL_CMD p 0 1#32 (s.gateOf p.val).pending fun s =>
    let t := s.configChangeTime p.val
    s.gateUpd p.val fun g => { g with pending := true, cct := t })

/-- GCL_CANCEL: R119. -/
def execGclCancel (m : Master) (p : Fin 14) (s : State) : Out State :=
  .next (s.cmdWrite m .CFL_GCL_CMD p 0 2#32 false fun s =>
    (s.gateUpd p.val fun g => { g with pending := false, extended := false }).gateSeek p.val)

/-- GCL_CONFIG_CHANGE_TIME: the administrative list becomes operative (R118). -/
def execGclConfigChangeTime (p : Fin 14) (s : State) : Out State :=
  let q := p.val
  let g := s.gateOf q
  let tb := s.rf Fx.CFL_GCL_ADMIN_CFG_TB q
  if !g.pending || s.tbOos tb then .next s
  else
    let s1 := s.gateUpd q fun g =>
      { g with pending := false, extended := false, operEn := s.rb Fx.CFL_GCL_ADMIN_CFG_EN q, operTb := tb,
               operCycle := s.rf Fx.CFL_GCL_ADMIN_CYCLE_NS q, operExt := s.rf Fx.CFL_GCL_ADMIN_EXT_NS q,
               list := s.adminList q, entry := 0, cycleStart := g.cct, entryStart := g.cct }
    let s2 := if g.cct ≤ s.tbNs tb then s1.gateSeek q else s1
    .next (s2.gateOpened q g.gates)

/-! ### Forwarding database commands (R112, R113) -/

/-- FDB_AGE_SWEEP: R112; none before RUN, none with SEC 0. -/
def execFdbAgeSweep (s : State) : Out State :=
  if s.rf Fx.CFL_FDB_AGE_SEC == 0 || !s.lock then .next s
  else
    .next { s with cfl := { s.cfl with fdb := s.cfl.fdb.filterMap (fun e =>
      if e.2.static then some e else if e.2.age = 0 then none else some (e.1, { e.2 with age := e.2.age - 1 })) } }

/-- The key of the database access registers. -/
def State.fdbKey (s : State) : Nat × Nat :=
  (s.rf Fx.CFL_FDB_KEY_HI_MAC_HI * 2 ^ 32 + s.rf Fx.CFL_FDB_KEY_LO_MAC_LO, s.rf Fx.CFL_FDB_KEY_HI_FID)

/-- A database operation begins: BUSY, and the RESULT and INDEX it will show when it ends (DESIGN CHOICE, log entry 10). -/
def State.fdbBegin (s : State) (result index : Nat) : State :=
  { s with cfl := { s.cfl with fdbBusy := true, fdbOp := result, fdbIndex := index } }

/-- Copy an entry to CFL_FDB_RES0-2. -/
def State.fdbShow (s : State) (e : Option FdbEntry) : State :=
  match e with
  | none => ((s.sg .CFL_FDB_RES0 0 0 0).sg .CFL_FDB_RES1 0 0 0).sg .CFL_FDB_RES2 0 0 0
  | some e =>
    ((s.sg .CFL_FDB_RES0 0 0 (BitVec.ofNat 32 e.mac)).sg .CFL_FDB_RES1 0 0
      (BitVec.ofNat 32 (e.fid * 65536 + e.mac / 2 ^ 32))).sg .CFL_FDB_RES2 0 0
      (BitVec.ofNat 32 (2 ^ 31 + b2n e.static * 2 ^ 30 + e.age % 8 * 2 ^ 27 + e.ports))

/-- The way an ADD takes in a full bucket: the dynamic entry of lowest AGE, the lowest way among equals. -/
def State.fdbVictim (s : State) (mac fid : Nat) : Option Nat :=
  let b := fdbBucket mac fid
  ([4 * b, 4 * b + 1, 4 * b + 2, 4 * b + 3].foldl (fun (best : Option (Nat × Nat)) i =>
    match sfind i s.cfl.fdb with
    | some e =>
      if e.static then best
      else match best with
        | some (_, a) => if e.age < a then some (i, e.age) else best
        | none => some (i, e.age)
    | none => best) none).map (·.1)

/-- ADD of Table 03-4. -/
def State.fdbAdd (s : State) : State :=
  let k := s.fdbKey
  let e : FdbEntry := ⟨k.1, k.2, s.rf Fx.CFL_FDB_VAL_PORTS, true, 0⟩
  match s.fdbFind k.1 k.2 with
  | some (i, _) => (s.fdbSet i e).fdbBegin 0 i
  | none =>
    match s.fdbFree k.1 k.2 with
    | some i => (s.fdbSet i e).fdbBegin 0 i
    | none =>
      match s.fdbVictim k.1 k.2 with
      | some i => (s.fdbSet i e).fdbBegin 0 i
      | none => s.fdbBegin 2 s.cfl.fdbIndex

/-- FDB_ADD: R113. -/
def execFdbAdd (m : Master) (s : State) : Out State :=
  .next (s.cmdWrite m .CFL_FDB_CMD 0 0 1#32 (s.cfl.fdbBusy || s.lock) fun s => s.fdbAdd)

/-- FDB_DELETE: R113. -/
def execFdbDelete (m : Master) (s : State) : Out State :=
  .next (s.cmdWrite m .CFL_FDB_CMD 0 0 2#32 (s.cfl.fdbBusy || s.lock) fun s =>
    match s.fdbFind s.fdbKey.1 s.fdbKey.2 with
    | some (i, _) => (s.fdbDel i).fdbBegin 0 i
    | none => s.fdbBegin 1 s.cfl.fdbIndex)

/-- FDB_READ: R113. -/
def execFdbRead (m : Master) (index : Fin 16384) (s : State) : Out State :=
  .next (s.cmdWrite m .CFL_FDB_CMD 0 0 (BitVec.ofNat 32 (index.val * 65536 + 3)) s.cfl.fdbBusy fun s =>
    (s.fdbShow (sfind index.val s.cfl.fdb)).fdbBegin 0 index.val)

/-- FDB_LOOKUP: R113. -/
def execFdbLookup (m : Master) (s : State) : Out State :=
  .next (s.cmdWrite m .CFL_FDB_CMD 0 0 4#32 s.cfl.fdbBusy fun s =>
    match s.fdbFind s.fdbKey.1 s.fdbKey.2 with
    | some (i, e) => (s.fdbShow (some e)).fdbBegin 0 i
    | none => s.fdbBegin 1 s.cfl.fdbIndex)

/-- FDB_FLUSH: R113; the walk is made at the command (log entry 10). -/
def execFdbFlush (m : Master) (byFid byPort : Bool) (port : Fin 32) (s : State) : Out State :=
  .next (s.cmdWrite m .CFL_FDB_CMD 0 0
      (BitVec.ofNat 32 (b2n byFid * 2 ^ 14 + b2n byPort * 2 ^ 13 + port.val * 256 + 5)) s.cfl.fdbBusy fun s =>
    ({ s with cfl := { s.cfl with fdb := s.cfl.fdb.filter fun e =>
        e.2.static || (byFid && e.2.fid != s.fdbKey.2) || (byPort && !e.2.ports.testBit port.val) } }).fdbBegin 0 s.cfl.fdbIndex)

/-- FDB_OP_COMPLETE: BUSY clears with RESULT set (R113). -/
def execFdbOpComplete (s : State) : Out State :=
  if s.cfl.fdbBusy then .next { s with cfl := { s.cfl with fdbBusy := false, fdbResult := s.cfl.fdbOp } } else .next s

/-! ### VLAN table (R107) -/

/-- VLAN_TABLE_WRITE: before RUN only. -/
def execVlanTableWrite (m : Master) (vid : Fin 4096) (s : State) : Out State :=
  .next (s.cmdWrite m .CFL_VT_CMD 0 0 (BitVec.ofNat 32 (4096 + vid.val)) s.lock fun s =>
    let row : VlanEntry := ⟨s.rf Fx.CFL_VT_DATA0_MEMBER, s.rf Fx.CFL_VT_DATA1_UNTAG, s.rf Fx.CFL_VT_DATA2_FID,
      s.rb Fx.CFL_VT_DATA2_LEARN_DIS, s.rb Fx.CFL_VT_DATA2_VALID⟩
    { s with cfl := { s.cfl with vlan := sput (VlanEntry.mk 0 0 0 false false) vid.val row s.cfl.vlan } })

/-- VLAN_TABLE_READ. -/
def execVlanTableRead (m : Master) (vid : Fin 4096) (s : State) : Out State :=
  .next (s.cmdWrite m .CFL_VT_CMD 0 0 (BitVec.ofNat 32 (8192 + vid.val)) false fun s =>
    match sfind vid.val s.cfl.vlan with
    | none => ((s.sg .CFL_VT_DATA0 0 0 0).sg .CFL_VT_DATA1 0 0 0).sg .CFL_VT_DATA2 0 0 0
    | some v =>
      ((s.sg .CFL_VT_DATA0 0 0 (BitVec.ofNat 32 v.member)).sg .CFL_VT_DATA1 0 0 (BitVec.ofNat 32 v.untag)).sg
        .CFL_VT_DATA2 0 0 (BitVec.ofNat 32 (b2n v.valid * 2 ^ 31 + b2n v.learnDis * 2 ^ 30 + v.fid)))

/-! ### Redundancy and residue timers -/

/-- DUPLICATE_ENTRY_LAPSE: R132. -/
def execDuplicateEntryLapse (i : Fin 2) (src : BitVec 48) (seq : BitVec 16) (s : State) : Out State :=
  .next { s with cfl := { s.cfl with dup := s.cfl.dup.filter fun e => !e.key i.val src.toNat seq.toNat } }

/-- RESIDUE_EXPIRY: the residue entry that has waited longest reaches CFL_RESIDUE_TO (R144) (DEDUCED, log entry 189). -/
def execResidueExpiry (s : State) : Out State :=
  match s.cfl.residue with
  | [] => .next s
  | r :: t =>
    let s1 := { s with cfl := { s.cfl with residue := t } }
    match s.frameOf r.fid with
    | none => .next s1
    | some f => .next (((s1.qcnt r.port r.cls 6).note f r.port (.unsent 0x05)).unref r.fid)

/-- AGE_EXAMINATION: R171. -/
def execAgeExamination (p : Fin 17) (s : State) : Out State := .next (s.examineAll p.val)

/-! ### The Eddy audit (R172 to R175) -/

/-- R172: a sweep is requested; one that is refused, or falls due while the last still waits or runs, is counted in SKIP. -/
def State.eddyReq (s : State) : State :=
  if s.cfl.eddyWaiting || s.tok.holder == 5 then { s with cfl := { s.cfl with eddySkip := min (s.cfl.eddySkip + 1) 255 } }
  else
    match s.tokAns with
    | .granted => { (s.tokReq 5) with cfl := { s.cfl with eddyRunning := true, eddyReclaimed := 0, eddyAny := false } }
    | .waiting => { (s.tokReq 5) with cfl := { s.cfl with eddyWaiting := true } }
    | .busy => { (s.tokReq 5) with cfl := { s.cfl with eddySkip := min (s.cfl.eddySkip + 1) 255 } }

/-- EDDY_REQUEST: every PERIOD_MS, from RUN on (Table 17-6). -/
def execEddyRequest (s : State) : Out State :=
  if s.rb Fx.CFL_EDDY_CFG_EN && s.lock && s.pwr.state == 0 then .next s.eddyReq else .next s

/-- R173: the audit finds nothing that holds the frame. -/
def State.orphan (s : State) (f : Frame) : Bool :=
  !f.writing && f.refc == 0 && !(List.range 17).any (fun p => (s.outOf p).sending f.fid)
    && !s.cfl.residue.any (fun r => r.fid == f.fid)

/-- EDDY_SWEEP: with the token, the audit marks or reclaims (R173, R174). -/
def execEddySweep (s : State) : Out State :=
  if s.tok.holder != 5 then .next s
  else
    let armed := decide (2 ≤ s.cfl.eddySweeps)
    let gone := s.cfl.frames.filter fun f => s.orphan f && f.suspect && armed
    let kept := (s.cfl.frames.filter fun f => !(s.orphan f && f.suspect && armed)).map fun f => { f with suspect := s.orphan f }
    let goneCells := (gone.map (·.cells)).sum
    let owned := (s.cfl.frames.map (·.cells)).sum
    let leak := 32768 - s.cfl.freeCells - owned
    let back := if armed then min leak s.cfl.eddyLeak else 0
    let n := goneCells + back
    let s1 := { s with cfl := { s.cfl with frames := kept, freeFd := s.cfl.freeFd + gone.length,
                                           freeCells := s.cfl.freeCells + n, eddyLeak := leak - back,
                                           eddyWaiting := false, eddyRunning := true, eddyReclaimed := n,
                                           eddyAny := decide (0 < n) || !gone.isEmpty } }
    let s2 := (s1.bump Fx.CFL_EDDY_CELLS_COUNT n).bump Fx.CFL_EDDY_FD_COUNT gone.length
    let s3 := gone.foldl (fun s f => s.tlog 0x12 2 1 f.fid) s2
    .next ((List.range n).foldl (fun s k => s.tlog 0x12 2 0 k) s3)

/-- EDDY_SWEEP_COMPLETE: R174, R175. -/
def execEddySweepComplete (s : State) : Out State :=
  if s.tok.holder != 5 || !s.cfl.eddyRunning then .next s
  else
    let s1 := { s with cfl := { s.cfl with eddyRunning := false, eddySweeps := s.cfl.eddySweeps + 1 } }
    let s2 := if s.cfl.eddyAny then s1.maintDone 5 s.cfl.eddyReclaimed else s1
    .next s2.tokRelease

/-! ### Transit windows (R155 to R169) -/

/-- One edit rule of a window, decoded (Table 04-3). -/
structure EditRule where
  en : Bool
  dir : Nat
  op : Nat
  ofs : Nat
  len : Nat
  mofs : Nat
  mtch : Word
  mask : Word
  addend : Nat
  pool : Nat
  deriving DecidableEq, Repr

def State.rule (s : State) (w r : Nat) : EditRule :=
  ⟨s.rb Fx.CFL_TW_RULE0_EN w r, s.rf Fx.CFL_TW_RULE0_DIR w r, s.rf Fx.CFL_TW_RULE0_OP w r, s.rf Fx.CFL_TW_RULE0_OFS w r,
   s.rf Fx.CFL_TW_RULE0_LEN w r + 1, s.rf Fx.CFL_TW_RULE0_MOFS w r, s.rg .CFL_TW_RULE1 w r, s.rg .CFL_TW_RULE2 w r,
   s.rf Fx.CFL_TW_RULE3_ADDEND w r, s.rf Fx.CFL_TW_RULE3_POOL w r⟩

/-- R158: the constraints of Table 04-3 between the fields of a rule. -/
def EditRule.bad (x : EditRule) : Bool :=
  decide (1518 < x.ofs + x.len) || decide (1518 < x.mofs + 4)
    || (x.op != 0 && decide (x.ofs < 14))
    || ((x.op == 2 || x.op == 4) && decide (4 < x.len))
    || (x.op != 0 && x.mask != 0#32 && decide (x.ofs < x.mofs + 4))
    || (if x.op == 4 then x.addend == 0 || x.pool != 0 else x.addend != 0)
    || decide (0x200000 < x.pool + x.len)

/-- R159: the rule takes effect on a frame as received. -/
def EditRule.hits (x : EditRule) (d : List Byte) : Bool :=
  BitVec.ofNat 32 (leNat ((List.range 4).map fun k => d.getD (x.mofs + k) 0)) &&& x.mask == x.mtch &&& x.mask

/-- The bytes of a range that are present in a frame. -/
def sliceOf (d : List Byte) (o n : Nat) : List Byte := (d.drop o).take n

/-- Replace the bytes of a frame from `o` on, those that are present (R166). -/
def spliceAt (d : List Byte) (o : Nat) (x : List Byte) : List Byte :=
  d.take o ++ x.take (d.length - o) ++ d.drop (o + x.length)

/-- Table 04-4: the frame bytes after one rule, applied to the bytes as the lower-numbered rules left them (R160). -/
def EditRule.edit (x : EditRule) (pool : List Byte) (d : List Byte) : List Byte :=
  let field := (List.range x.len).map fun k => d.getD (x.ofs + k) 0
  match x.op with
  | 1 => spliceAt d x.ofs pool
  | 2 => spliceAt d x.ofs (leBytes x.len (leNat field + leNat pool))
  | 3 => spliceAt d x.ofs ((field.zip pool).map fun p => p.1 ||| p.2)
  | 4 => spliceAt d x.ofs (leBytes x.len (leNat field + x.addend))
  | _ => d

/-- The rules of a window that take effect on a frame of a direction (R157, R159). -/
def State.activeRules (s : State) (w dir : Nat) (d : List Byte) : List EditRule :=
  let et := s.rf Fx.CFL_TW_ETYPE_ETYPE w
  if et == 0 || be16 d 12 != et then []
  else ((List.range 32).map (s.rule w)).filter fun x => x.en && x.dir == dir && x.hits d

/-- The frame as it leaves the window (R156, R160, R161). -/
def State.editFrame (s : State) (w dir : Nat) (d : List Byte) : List Byte :=
  (s.activeRules w dir d).foldl (fun o x => x.edit (s.poolRd x.pool x.len) o) d

/-- R155, R167: both MACs of a window are at 100 Mb/s full duplex where they have a link. -/
def State.mac100 (s : State) (p : Nat) : Bool := (s.macOf p).rate == 2 && !(s.macOf p).half
def State.twSuspended (s : State) (w : Nat) : Bool :=
  let a := s.rf Fx.CFL_TW_CFG_PORT_A w
  let b := s.rf Fx.CFL_TW_CFG_PORT_B w
  s.rb Fx.CFL_TW_CFG_EN w && ((s.portLink a && !s.mac100 a) || (s.portLink b && !s.mac100 b))

def State.twUpd (s : State) (w : Nat) (f : Transit → Transit) : State := { s with cfl := { s.cfl with tw := vupd s.cfl.tw w f } }
def State.twOf (s : State) (w : Nat) : Transit := (s.cfl.tw[w]?).getD ⟨none, none⟩
def State.twCnt (s : State) (w k : Nat) : State := s.bump Fx.CFL_TW_CNT_COUNT 1 w k

/-- TRANSIT_FRAME_START: a frame arrives on A or B of an enabled window (R156 to R161, R167). -/
def execTransitFrameStart (w : Fin 4) (fromA : Bool) (data : List Byte) (s : State) : Out State :=
  let k := w.val
  let a := s.rf Fx.CFL_TW_CFG_PORT_A k
  let b := s.rf Fx.CFL_TW_CFG_PORT_B k
  let inp := if fromA then a else b
  let exit_ := if fromA then b else a
  let dir := if fromA then 0 else 1
  if !s.rb Fx.CFL_TW_CFG_EN k || !s.portLink inp || !s.phyOn inp then .next s
  else if s.twSuspended k then .next (s.twCnt k 7)
  else
    let out := if s.portLink exit_ then some exit_ else if s.rb Fx.CFL_TW_CFG_AUTO_LOOP k then some inp else none
    match out with
    | none => .next (s.twCnt k 7)
    | some _ =>
      let edited := s.editFrame k dir data
      let any_ := !(s.activeRules k dir data).isEmpty
      let s1 := s.twCnt k (if fromA then 0 else 1)
      let s2 := if any_ then s1.twCnt k 2 else s1
      .next (s2.twUpd k fun t => if fromA then { t with frAB := some (data, edited) } else { t with frBA := some (data, edited) })

/-- R164: the LATCH commits of a frame, and the sequence word. -/
def State.twCommit (s : State) (w dir : Nat) (d : List Byte) : State :=
  let rs := (s.activeRules w dir d).filter fun x => x.op == 0 && decide (x.ofs + x.len ≤ d.length)
  let s1 := rs.foldl (fun s x => s.poolWrProt x.pool (sliceOf d x.ofs x.len)) s
  if s.rb Fx.CFL_TW_SEQ_EN w && !rs.isEmpty then
    let a := s.rf Fx.CFL_TW_SEQ_ADDR w * 8
    s1.poolWrProt a (leBytes 4 (leNat (s1.poolRd a 4) + 1))
  else s1

/-- R168: a copy of a frame that passed the window is enqueued on SP15. -/
def State.twCopy (s : State) (w inp : Nat) (d : List Byte) (ts : Nat) : State :=
  if s.rb Fx.CFL_TW_CFG_COPY_EN w && be16 d 12 == s.rf Fx.CFL_TW_ETYPE_COPY_ETYPE w then
    let c := s.rf Fx.CFL_TW_CFG_COPY_CLS w
    let n := cellsOf (d.length + 4)
    let compat := s.rb Fx.CFL_CTL_COMPAT
    let waiting := s.cfl.residue.any fun r => r.port == 15 && r.cls == c
    let room := !(compat && waiting) && s.fits 15 c n || compat && decide (s.cfl.residue.length < 512)
    if s.admits n c && room && s.rb Fx.CFL_CTL_EN then
      let tb := s.rf Fx.MAC_CFG_TS_TB inp
      s.storeComplete (mkFrame d inp c (s.classify inp d).1 (s.classify inp d).2 .wire none true
        (if s.tbOos tb then none else some ts) tb) [15]
    else s.twCnt w 6
  else s

/-- TRANSIT_FRAME_END: a transit frame ends (R164 to R166, R168) (DESIGN CHOICE, log entry 190). -/
def execTransitFrameEnd (w : Fin 4) (fromA : Bool) (fcs : FcsKind) (full : Bool) (ts : Nat) (s : State) : Out State :=
  let k := w.val
  let t := s.twOf k
  let inp := if fromA then s.rf Fx.CFL_TW_CFG_PORT_A k else s.rf Fx.CFL_TW_CFG_PORT_B k
  let exit_ := if fromA then s.rf Fx.CFL_TW_CFG_PORT_B k else s.rf Fx.CFL_TW_CFG_PORT_A k
  let dir := if fromA then 0 else 1
  match (if fromA then t.frAB else t.frBA) with
  | none => .next s
  | some (d, e) =>
    let s1 := s.twUpd k fun t => if fromA then { t with frAB := none } else { t with frBA := none }
    let port := if s.portLink exit_ then exit_ else inp
    let long := decide (1522 < d.length + 4)
    let stomp := fcs != .good || long
    let s2 := s1.emit (.transit port (if long then e.take 1518 else e) stomp)
    if fcs != .good then .next (s2.twCnt k 4)
    else if long then .next s2
    else
      let short := (s.activeRules k dir d).any fun x => decide (d.length < x.ofs + x.len)
      let s3 := if short then s2.twCnt k 3 else s2
      let latches := !((s.activeRules k dir d).filter fun x => x.op == 0).isEmpty
      let s4 := if latches then (if full then s3.twCnt k 5 else s3.twCommit k dir d) else s3
      .next (s4.twCopy k inp e ts)

/-! ### Events that make a queue head eligible -/

/-- LAUNCH_TIME_REACHED for a queue: the launch time of its head, less its lead, is reached (R233). -/
def State.launchRipe (s : State) (p c : Nat) : State :=
  let s1 := s.outUpd p fun o => o.setQueue c (match o.queue c with | [] => [] | e :: t => { e with ripe := true } :: t)
  if (s1.outOf p).cur.isNone && !(s1.outOf p).gap then s1.select p else s1

/-- CREDIT_RECOVERED: the credit of a shaped class rises to 0 (R115). -/
def execCreditRecovered (p : Fin 17) (cls : Fin 8) (s : State) : Out State :=
  let q := p.val
  if s.rb Fx.CFL_OQ_CFG_CBS_EN q cls.val && s.gateOpen q cls.val && s.variant.hasPort q then
    let s1 := s.outUpd q fun o => { o with credit := vupd o.credit cls.val fun k => max k 0 }
    .next (if (s1.outOf q).cur.isNone && !(s1.outOf q).gap then s1.select q else s1)
  else .next s

end Sys2Proof.Machine
end

