-- ==== Sys2Proof/Machine/Mac.lean ====
section
/-!
DEFINITION. The meanings of the MAC commands (spec/05): half duplex and PLCA, MDIO, Energy-Efficient
Ethernet, PAUSE, link state and counters.
-/
namespace Sys2Proof.Machine
open Sys2Proof

/-! ### Status and configuration -/

/-- MAC_STS of a port; P10 to P13 read LINK 1, 10 Mb/s half duplex, while EN is 1 (R201). -/
def State.macSts (s : State) (p : Nat) : Nat :=
  let m := s.macOf p
  let up := s.portLink p || (m.link && decide (p < 10))
  b2n m.waking * 2048 + b2n m.rxLpi * 1024 + b2n m.txLpi * 512 + b2n m.pauseHeld * 256 + b2n m.retraining * 64
    + b2n m.loop * 32 + b2n (up && (m.half || decide (10 ≤ p))) * 16
    + (if up then (if p < 10 then m.rate else 1) else 0) * 2 + b2n up

/-- LINK_CHANGE (Table 02-8). -/
def State.linkChange (s : State) (p : Nat) : State := (s.post 2 0x20 p (s.macSts p) 0).portChanged p

/-- R2, R178: MODE, SPEED and DUPLEX form a row of Table 05-1 for the port and variant. -/
def macModeOk (v : Variant) (p mode speed duplex : Nat) : Bool :=
  if p < 2 then
    duplex == 0 && (mode == 0 && decide (speed ≤ 3) || mode == 1 && (speed == 0 || speed == 3) || mode == 2 && speed == 0
      || v == .lx2416 && (mode == 3 && speed == 0 || mode == 4 && speed == 0 || mode == 5 && decide (speed ≤ 6)))
  else if p < 10 then
    mode == 0 && decide (speed ≤ 3) && (duplex == 0 || speed == 1 || speed == 2)
      || duplex == 0 && (mode == 1 && (speed == 0 || speed == 3) || mode == 2 && speed == 0)
  else mode == 6 && decide (speed ≤ 1) && duplex == 1

/-- The reserved encodings of MAC_CFG (R178) (DEDUCED, log entry 200). -/
def macCfgBad (s : State) (p : Nat) (v : Word) : Bool := !macModeOk s.variant p (bits v 7 4) (bits v 10 8) (bits v 11 11)

/-- The reserved encodings of MAC_MAXLEN: above 2048 on P10 to P13. -/
def macMaxlenBad (p : Nat) (v : Word) : Bool := decide (10 ≤ p) && decide (2048 < bits v 13 0)

/-- MAC_UC_HI: a group address with EN 1 is a reserved encoding. -/
def macUcBad (v : Word) : Bool := bits v 31 31 == 1 && bits v 15 0 / 256 % 2 == 1

/-- MAC_CMD: LOOP_ON with LOOP_OFF is a reserved encoding (DEDUCED, log entry 199). -/
def macCmdBad (v : Word) : Bool := bits v 1 1 == 1 && bits v 2 2 == 1

/-- The output starts its next frame when it is idle and its gap has ended. -/
def State.kick (s : State) (p : Nat) : State :=
  if (s.outOf p).cur.isNone && !(s.outOf p).gap then s.select p else s

/-! ### Half duplex and PLCA (R181 to R186) -/

/-- The medium of a port is shared: half duplex, or 10BASE-T1S. -/
def State.shared (s : State) (p : Nat) : Bool := (s.macOf p).half || decide (10 ≤ p)

/-- The frame on the wire ends without a retry and its outcome is DROPPED (R182). -/
def State.abandonTx (s : State) (p : Nat) (x : Sending) (counter : Nat) : State :=
  let s1 := (s.mcnt p counter).outUpd p fun o => { o with cur := none, gap := true }
  (s1.dequeue x.fid p x.cls (.unsent 0x05)).macUpd p fun m => { m with collisions := 0, backoff := false, retry := none }

/-- COLLISION: R181, R182. The slot times drawn are a free value below 2^min(n, 10) (DEDUCED, log entry 109). -/
def execCollision (p : Fin 14) (late : Bool) (s : State) : Out State :=
  let q := p.val
  match (s.outOf q).cur with
  | none => .next s
  | some x =>
    if !s.shared q || !s.portLink q then .next s
    else
      let n := (s.macOf q).collisions + 1
      let s1 := s.emit (.jam q)
      if late then .next (s1.abandonTx q x 31)
      else if 16 ≤ n then .next (s1.abandonTx q x 30)
      else
        let r := s1.freeVal.toNat % 2 ^ min n 10
        .next ((s1.freeNext.outUpd q fun o => { o with cur := none, gap := true }).macUpd q fun m =>
          { m with collisions := n, backoff := true, backoffSlots := r, retry := some (x.fid, x.cls) })

/-- BACKOFF_EXPIRY: the frame is attempted again from its stored cells (R183). -/
def execBackoffExpiry (p : Fin 14) (s : State) : Out State :=
  let q := p.val
  let m := s.macOf q
  if !m.backoff then .next s
  else
    let s1 := (s.macUpd q fun m => { m with backoff := false, retry := none }).outUpd q fun o => { o with gap := false }
    match m.retry with
    | none => .next (s1.kick q)
    | some (fid, c) =>
      match (s1.outOf q).queue c with
      | e :: _ => .next (if e.fid = fid ∧ (s1.outOf q).cur.isNone ∧ s1.outReady q then s1.startFrame q c else s1.kick q)
      | [] => .next (s1.kick q)

/-- PLCA runs on the port (R184). -/
def State.plcaOn (s : State) (p : Nat) : Bool := s.portLink p && s.rb Fx.MAC_PLCA_CFG_EN p

/-- PLCA_BEACON_RECEIVED: a node that is not the coordinator starts a cycle, in PLCA again (R184, R185). -/
def execPlcaBeaconReceived (t : Fin 4) (s : State) : Out State :=
  let p := 10 + t.val
  if s.plcaOn p && s.rf Fx.MAC_PLCA_CFG_NODE_ID p != 0 then
    .next (s.macUpd p fun m => { m with plcaActive := true, plcaPos := 0, plcaSent := 0 })
  else .next s

/-- PLCA_BEACON_LOSS: R185. -/
def execPlcaBeaconLoss (t : Fin 4) (s : State) : Out State :=
  let p := 10 + t.val
  if s.plcaOn p && s.rf Fx.MAC_PLCA_CFG_NODE_ID p != 0 && (s.macOf p).plcaActive then
    .next ((s.macUpd p fun m => { m with plcaActive := false, plcaLoss := (m.plcaLoss + 1) % 65536 }).kick p)
  else .next s

/-- PLCA_TRANSMIT_OPPORTUNITY: the cycle moves to the next node; the coordinator sends a beacon after the last (R184). -/
def execPlcaTransmitOpportunity (t : Fin 4) (s : State) : Out State :=
  let p := 10 + t.val
  let m := s.macOf p
  if !s.plcaOn p then .next s
  else if s.rf Fx.MAC_PLCA_CFG_NODE_ID p == 0 then
    if !m.plcaActive || decide (s.rf Fx.MAC_PLCA_CFG_NODE_CNT p ≤ m.plcaPos + 1) then
      .next (((s.emit (.beacon p)).macUpd p fun m => { m with plcaActive := true, plcaPos := 0, plcaSent := 0 }).kick p)
    else .next (s.macUpd p fun m => { m with plcaPos := m.plcaPos + 1, plcaSent := 0 })
  else if m.plcaActive then .next ((s.macUpd p fun m => { m with plcaPos := min (m.plcaPos + 1) 255, plcaSent := 0 }).kick p)
  else .next s

/-! ### MDIO (R180) -/

/-- The next pending MDIO operation, in ascending order of port, begins on the pair (DEDUCED, log entry 110). -/
def State.mdioNext (s : State) : State :=
  if (List.range 14).any (fun p => (s.macOf p).mdioActive) then s
  else
    match (List.range 14).find? (fun p => (s.macOf p).mdio.isSome) with
    | none => s
    | some p =>
      match (s.macOf p).mdio with
      | none => s
      | some o => (s.macUpd p fun m => { m with mdioActive := true }).emit (.mdio p o.write o.phyad o.regad o.data)

/-- Queue an MDIO operation of a port. -/
def State.mdioReq (s : State) (p : Nat) (o : MdioOp) : State :=
  (s.macUpd p fun m => { m with mdio := some o }).mdioNext

/-- MDIO_WRITE on P2 to P9. -/
def execMdioWrite (m : Master) (q : Fin 8) (phyad regad : Fin 32) (data : BitVec 16) (s : State) : Out State :=
  let p := q.val + 2
  .next (s.cmdWrite m .MAC_MDIO p 0
    (BitVec.ofNat 32 (2 ^ 30 + phyad.val * 2 ^ 25 + regad.val * 2 ^ 20 + data.toNat)) (s.macOf p).mdio.isSome
    fun s => s.mdioReq p ⟨true, phyad.val, regad.val, data.toNat⟩)

/-- MDIO_READ on P2 to P9. -/
def execMdioRead (m : Master) (q : Fin 8) (phyad regad : Fin 32) (s : State) : Out State :=
  let p := q.val + 2
  .next (s.cmdWrite m .MAC_MDIO p 0
    (BitVec.ofNat 32 (2 ^ 31 + phyad.val * 2 ^ 25 + regad.val * 2 ^ 20)) (s.macOf p).mdio.isSome
    fun s => s.mdioReq p ⟨false, phyad.val, regad.val, 0⟩)

/-- MDIO_COMPLETE: 64 MDC periods have passed; a PHY that does not answer reads 0xFFFF. -/
def execMdioComplete (answer : Option (BitVec 16)) (s : State) : Out State :=
  match (List.range 14).find? (fun p => (s.macOf p).mdioActive) with
  | none => .next s
  | some p =>
    let rd := match (s.macOf p).mdio with | some o => !o.write | none => false
    let v := match answer with | some x => x.toNat | none => 0xFFFF
    .next (s.macUpd p fun m =>
      { m with mdio := none, mdioActive := false, mdioData := if rd then v else m.mdioData }).mdioNext

/-! ### Energy-Efficient Ethernet (R187 to R191) -/

/-- R188: ns from the start of entry `i` to the next entry that opens a gate which the entry before it had closed. -/
def wakeRun (l : List (Nat × Nat × BitVec 8)) (cycle : Nat) : Nat → Nat → Nat → Nat → Option Nat
  | 0, _, _, _ => none
  | fuel + 1, i, inCycle, acc =>
    match l[i]?, l[0]? with
    | some (d, _, x), some (_, _, x0) =>
      let last := i + 1 ≥ l.length || inCycle + d ≥ cycle
      let dur := if last then cycle - inCycle else d
      let nx := if last then x0 else match l[i + 1]? with | some (_, _, y) => y | none => x0
      if nx &&& ~~~x != 0 then some (acc + dur)
      else if last then wakeRun l cycle fuel 0 0 (acc + dur)
      else wakeRun l cycle fuel (i + 1) (inCycle + dur) (acc + dur)
    | _, _ => none

/-- ns to the next wake-for-gate instant of a port; `none` when no gate list is in force or none opens a gate. -/
def State.toWake (s : State) (p : Nat) : Option Nat :=
  let g := s.gateOf p
  if !g.operEn || s.tbOos g.operTb then none
  else
    match wakeRun g.list (max 1 g.operCycle) (2 * g.list.length + 2) g.entry (g.entryStart - g.cycleStart) 0 with
    | none => none
    | some d => some (g.entryStart + d - s.tbNs g.operTb)

/-- EEE is active on the port: R187, R191, full duplex with a link. -/
def State.eeeOn (s : State) (p : Nat) : Bool :=
  s.rb Fx.MAC_EEE_CFG_EN p && s.portLink p && !(s.macOf p).half && (s.windowOf p).isNone && !(p == 1 && s.p1IsPairLink)

/-- EEE_LPI_ENTRY: the queues have been empty for IDLE_US (asserted by the moment), and the other conditions of R187. -/
def execEeeLpiEntry (p : Fin 10) (s : State) : Out State :=
  let q := p.val
  let m := s.macOf q
  let o := s.outOf q
  let far := match s.toWake q with | none => true | some d => decide (2 * m.twNext * 1000 ≤ d)
  if s.eeeOn q && !m.txLpi && !m.waking && !m.retraining && o.cur.isNone && o.preempted.isNone && m.pauseDue.isEmpty
      && (List.range 8).all (fun k => (o.queue k).isEmpty) && far then
    .next ((s.macUpd q fun m => { m with txLpi := true, twForce := m.twNext }).mcnt q 34)
  else .next s

/-- EEE_WAKE: TW_TX before a wake-for-gate instant, or on an enqueue or a PAUSE due. -/
def execEeeWake (p : Fin 10) (s : State) : Out State := .next (s.wakeLpi p.val)

/-- EEE_WAKE_COMPLETE: frames may start again (R189). -/
def execEeeWakeComplete (p : Fin 10) (s : State) : Out State :=
  if (s.macOf p.val).waking then
    .next (((s.macUpd p.val fun m => { m with waking := false }).sendDuePauses p.val).kick p.val)
  else .next s

/-- EEE_TW_WRITE: R190. -/
def execEeeTwWrite (m : Master) (p : Fin 10) (tw : BitVec 16) (s : State) : Out State :=
  .next (s.cmdWrite m .MAC_EEE_TW p 0 (BitVec.ofNat 32 tw.toNat) false fun s =>
    s.macUpd p.val fun x => { x with twNext := tw.toNat })

/-- PARTNER_LPI: the partner enters or leaves LPI; entries are counted. -/
def execPartnerLpi (p : Fin 10) (present : Bool) (s : State) : Out State :=
  let q := p.val
  if !s.portLink q || (s.macOf q).loop then .next s
  else
    let s1 := s.macUpd q fun m => { m with rxLpi := present }
    .next (if present && !(s.macOf q).rxLpi then s1.mcnt q 20 else s1)

/-! ### PAUSE (R198, R199) -/

/-- PAUSE_HOLD_EXPIRY. -/
def execPauseHoldExpiry (p : Fin 10) (s : State) : Out State :=
  if (s.macOf p.val).pauseHeld then
    .next ((s.macUpd p.val fun m => { m with pauseHeld := false, pauseQuanta := 0 }).kick p.val)
  else .next s

/-- PAUSE_REPEAT: QUANTA/2 quanta have passed since the last PAUSE and back-pressure lasts. -/
def execPauseRepeat (p : Fin 10) (s : State) : Out State :=
  if (s.inOf p.val).bp && s.rb Fx.MAC_PAUSE_TX_EN p.val then .next (s.pause p.val (s.rf Fx.MAC_PAUSE_QUANTA p.val))
  else .next s

/-! ### Link state (R200 to R203) -/

/-- R202: discard every frame in the class queues of an output but the one on the wire. -/
def State.flushPort (s : State) (p : Nat) : State :=
  (List.range 8).foldl (fun s c =>
    ((s.outOf p).queue c).foldl (fun s e =>
      let onWire := match (s.outOf p).cur with | some x => x.fid == e.fid | none => false
      if onWire then s
      else
        let s1 := s.outUpd p fun o =>
          { o with preempted := o.preempted.bind fun x => if x.fid == e.fid then none else some x }
        (s1.mcnt p 33).dequeue e.fid p c (.unsent 0x05)) s) s

/-- A frame being received is ended and counted in RX_FCS_ERR (R200) (DEDUCED, log entry 192). -/
def State.endRx (s : State) (p : Nat) (part : Option (List Byte)) : State :=
  match part with
  | none => s
  | some d =>
    let s1 := s.mcnt p 14
    match (s.inOf p).rx with
    | some (some fid) => ((s1.icnt p 4).inUpd p fun x => { x with rx := none }).badEnd fid d false
    | _ => s1.inUpd p fun x => { x with rx := none }

/-- What is known of a frame being received: the bytes held of an admitted one (DESIGN CHOICE, log entry 194). -/
def State.rxPart (s : State) (p : Nat) : Option (List Byte) :=
  match (s.inOf p).rx with
  | none => none
  | some none => some []
  | some (some fid) => some (match s.frameOf fid with | some f => f.data | none => [])

/-- LINK falls on P0 to P9: a frame being received is ended, DOWN, LINK_CHANGE and the flush of R202; acquisition goes on
(DEDUCED, log entry 192). -/
def State.linkDown (s : State) (p : Nat) : State :=
  let s0 := s.endRx p (s.rxPart p)
  let s1 := s0.macUpd p fun m =>
    { m with link := false, rate := 0, half := false, retraining := false, txLpi := false, rxLpi := false, waking := false,
             pauseHeld := false, pauseQuanta := 0, pauseDue := [], backoff := false, collisions := 0, retry := none }
  let s2 := (s1.bump Fx.MAC_LINK_CNT_DOWN 1 p).linkChange p
  let s3 := s2.outUpd p fun o => { o with verify := 0, verifyTx := 0 }
  if s3.rb Fx.MAC_LINK_CFG_FLUSH_DOWN p then s3.flushPort p else s3

/-- A retrain begins (R200). -/
def State.retrainStart (s : State) (p : Nat) (part : Option (List Byte)) : State :=
  if s.portLink p && !(s.macOf p).loop && !(s.macOf p).retraining then
    (s.macUpd p fun m => { m with retraining := true }).endRx p part
  else s

/-- SERDES_SIGNAL_LOSS, with the bytes of a frame being received. -/
def execSerdesSignalLoss (p : Fin 10) (part : Option (List Byte)) (s : State) : Out State :=
  .next (s.retrainStart p.val part)

/-- RETRAIN_TIMEOUT. -/
def execRetrainTimeout (p : Fin 10) (s : State) : Out State :=
  if (s.macOf p.val).retraining then .next (s.linkDown p.val) else .next s

/-- R124: a link that comes up starts the verification of preemption. -/
def State.verifyStart (s : State) (p : Nat) : State :=
  if s.rb Fx.CFL_FP_CFG_EN p && !s.rb Fx.CFL_FP_CFG_VERIFY_DIS p then
    (s.outUpd p fun o => { o with verify := 2, verifyTx := 1 }).emit (.verify p)
  else s

/-- R177, R178: the link can come up at this rate and duplex: the mode has the rate, and SPEED and DUPLEX leave it. -/
def State.linkFits (s : State) (p rate : Nat) (half : Bool) : Bool :=
  let mode := s.rf Fx.MAC_CFG_MODE p
  let speed := s.rf Fx.MAC_CFG_SPEED p
  let rated :=
    if mode == 0 then decide (1 ≤ rate) && decide (rate ≤ 3)
    else if mode == 5 then decide (1 ≤ rate) && decide (rate ≤ 6)
    else (mode == 1 && rate == 3) || (mode == 2 && rate == 4) || (mode == 3 && rate == 5) || (mode == 4 && rate == 6)
  rated && (speed == 0 || speed == rate)
    && (if half then mode == 0 && decide (2 ≤ p) && decide (rate ≤ 2) && (speed == 0 || s.rb Fx.MAC_CFG_DUPLEX p)
        else !s.rb Fx.MAC_CFG_DUPLEX p)

/-- LINK_UP: a retrain ends in time, or acquisition succeeds with this rate and duplex. -/
def execLinkUp (p : Fin 10) (rate : Fin 7) (half : Bool) (s : State) : Out State :=
  let q := p.val
  let m := s.macOf q
  if !s.variant.hasPort q || m.loop then .next s
  else if m.retraining then
    .next (((((s.macUpd q fun m => { m with retraining := false }).bump Fx.MAC_LINK_CNT_RETRAIN_OK 1 q).tlog 0x11 1 q 0).sendDuePauses q).kick q)
  else if m.link || !s.linkFits q rate.val half || !s.rb Fx.MAC_CFG_EN q || !s.phyOn q then .next s
  else
    let s1 := s.macUpd q fun m => { m with link := true, rate := rate.val, half := half }
    .next (((s1.linkChange q).verifyStart q).kick q)

/-- PHY_LINK_DOWN: R201, in SGMII mode. -/
def execPhyLinkDown (p : Fin 10) (s : State) : Out State :=
  if (s.macOf p.val).link && !(s.macOf p.val).loop && s.rf Fx.MAC_CFG_MODE p.val == 0 then .next (s.linkDown p.val)
  else .next s

/-- The rate a port takes in internal loopback when it had no link: SPEED, else the rate of MODE; where MODE leaves it to
in-band status it is a free value among the rates of the mode (log entry 23). -/
def State.loopRate (s : State) (p : Nat) : Nat :=
  let sp := s.rf Fx.MAC_CFG_SPEED p
  if sp != 0 then sp
  else
    match s.rf Fx.MAC_CFG_MODE p with
    | 1 => 3
    | 2 => 4
    | 3 => 5
    | 4 => 6
    | 5 => 1 + s.freeVal.toNat % 6
    | 6 => 1
    | _ => 1 + s.freeVal.toNat % 3

/-- LOOP_ON acts (R203): line reception is ignored from here on (DEDUCED, log entry 111). -/
def State.loopOn (s : State) (p : Nat) : State :=
  let s0 := if (s.macOf p).loop then s else s.endRx p (s.rxPart p)
  if 10 ≤ p then s0.macUpd p fun m => { m with loop := true }
  else
    if (s.macOf p).link then s0.macUpd p fun m => { m with loop := true, retraining := false }
    else
      let r := s.loopRate p
      (s0.freeNext.macUpd p fun m => { m with loop := true, link := true, rate := r, retraining := false }).linkChange p

/-- LOOP_OFF acts: on P0 to P9 the link falls and is acquired again. -/
def State.loopOff (s : State) (p : Nat) : State :=
  if !(s.macOf p).loop then s
  else
    let s1 := s.macUpd p fun m => { m with loop := false }
    if p < 10 then s1.linkDown p else s1

/-- The actions of a write of MAC_CMD, with the bytes so far of a frame being received. -/
def State.macCmd (s : State) (p : Nat) (v : Word) (part : Option (List Byte)) : State :=
  let s1 := if bits v 0 0 = 1 then s.macUpd p fun m => { m with cnt := [] } else s
  let s2 := if bits v 1 1 = 1 then s1.loopOn p else s1
  let s3 := if bits v 2 2 = 1 then s2.loopOff p else s2
  if bits v 3 3 = 1 then s3.retrainStart p part else s3

/-- LOOP_ON. -/
def execLoopOn (m : Master) (p : Fin 14) (s : State) : Out State :=
  .next (s.cmdWrite m .MAC_CMD p 0 2#32 false fun s => s.macCmd p.val 2#32 none)

/-- LOOP_OFF. -/
def execLoopOff (m : Master) (p : Fin 14) (s : State) : Out State :=
  .next (s.cmdWrite m .MAC_CMD p 0 4#32 false fun s => s.macCmd p.val 4#32 none)

/-- RETRAIN: a manual retrain under R200, on P0 to P9. -/
def execRetrain (m : Master) (p : Fin 14) (part : Option (List Byte)) (s : State) : Out State :=
  .next (s.cmdWrite m .MAC_CMD p 0 8#32 false fun s => s.macCmd p.val 8#32 part)

/-! ### Counters (R204) -/

/-- CNT_CLR. -/
def execCntClr (m : Master) (p : Fin 14) (s : State) : Out State :=
  .next (s.cmdWrite m .MAC_CMD p 0 1#32 false fun s => s.macCmd p.val 1#32 none)

/-- Counter `j` of a port. -/
def Mac.count (m : Mac) (j : Nat) : Nat := sget 0 j m.cnt

/-- A read of the low word latches the high word. -/
def State.macCntLatch (s : State) (p j : Nat) : State :=
  s.macUpd p fun m => { m with cntLatch := sput 0 j (m.count j / 2 ^ 32) m.cntLatch }

/-- MAC_COUNTER_LOW_READ. -/
def execMacCounterLowRead (m : Master) (p : Fin 14) (j : Fin 35) (s : State) : Out State :=
  if !s.regDead .MAC_CNT_LO p j then
    .next ((s.emit (.readData m (RegId.addr .MAC_CNT_LO p j) 4 ((s.macOf p.val).count j.val % 2 ^ 32))).macCntLatch p.val j.val)
  else .next (s.emit (.readData m (RegId.addr .MAC_CNT_LO p j) 4 0))

end Sys2Proof.Machine
end

