-- ==== Sys2Proof/Machine/TimeBases.lean ====
section
/-!
DEFINITION. Time bases (spec/06): the operations of TB_CMD and their rules, reading, the advance of one
250 MHz edge, event capture and pulse outputs. A core's time base instructions use the same operations.
-/
namespace Sys2Proof.Machine
open Sys2Proof

/-! ### Amounts and words -/

/-- Signed whole ns of an amount in 2^-32 ns, rounded toward 0 (DEDUCED, log entry 104). -/
def wholeNs (u : Int) : Int := if u < 0 then -(Int.ofNat ((-u).toNat / unitsPerNs)) else Int.ofNat (u.toNat / unitsPerNs)

/-- Seconds, nanoseconds and 16-bit fraction of a time in 2^-32 ns (R206). -/
def tbSec (u : Nat) : Nat := u / unitsPerNs / nsPerSec % 2 ^ 48
def tbNsOf (u : Nat) : Nat := u / unitsPerNs % nsPerSec
def tbFrac (u : Nat) : Nat := u / 2 ^ 16 % 2 ^ 16

/-- The signed amount of STEP and SLEW from TB_ADJ (Table 06-1). -/
def stepAmount (ns frac : Nat) : Int := sgn32 ns * 4294967296 + Int.ofNat (frac % 65536 * 65536)

/-- The time that SET loads. -/
def setTime (sec ns frac : Nat) : Nat := (sec * nsPerSec + ns) * unitsPerNs + frac % 65536 * 65536

/-- The shadow of a served time base, and its member that is not primary. -/
def State.tbShadow (s : State) (n : Nat) : Nat := s.rf Fx.TB_CFG_SHADOW n
def State.tbOther (s : State) (n : Nat) : Nat := if (s.tbOf n).primary = n then s.tbShadow n else n

/-! ### Pulse trains (R239) -/

def State.plsOf (s : State) (k : Nat) : Pulse := (s.pls[k]?).getD Pulse.reset
def State.plsUpd (s : State) (k : Nat) (f : Pulse → Pulse) : State := { s with pls := vupd s.pls k f }
def State.plsTb (s : State) (k : Nat) : Nat := s.rf Fx.TB_PLS_CFG_TB k

/-- START of a pulse unit in ns. -/
def State.plsStart (s : State) (k : Nat) : Nat :=
  (s.rf Fx.TB_PLS_START_SEC_HI_SEC k * 2 ^ 32 + s.rf Fx.TB_PLS_START_SEC_LO_SEC k) * nsPerSec + s.rf Fx.TB_PLS_START_NS_NS k
def State.plsPeriod (s : State) (k : Nat) : Nat := max 1 (s.rf Fx.TB_PLS_PERIOD_NS k)

/-- The first k ≥ 0 whose active edge lies ahead of the present time. -/
def State.plsAhead (s : State) (k : Nat) : Nat :=
  let now := s.tbNs (s.plsTb k)
  if now < s.plsStart k then 0 else (now - s.plsStart k) / s.plsPeriod k + 1

/-- The registers of a pulse unit were written: its train runs from the first active edge that lies ahead. -/
def State.plsRestart (s : State) (k : Nat) : State :=
  s.plsUpd k fun u =>
    if s.rb Fx.TB_PLS_CFG_EN k then { u with running := true, nextK := s.plsAhead k }
    else { u with running := false, active := false }

/-- A time base left service: pulse outputs on it are held inactive (Table 06-3). -/
def State.plsHold (s : State) : State :=
  (List.range 4).foldl (fun s k => if s.tbOos (s.plsTb k) then s.plsUpd k fun u => { u with active := false } else s) s

/-- A time base returned to service: trains on it resume at the first active edge after the return. -/
def State.plsResume (s : State) (n : Nat) : State :=
  (List.range 4).foldl (fun s k =>
    if (s.plsTb k == n || s.tbPrimary (s.plsTb k) == n) && (s.plsOf k).running && !s.tbOos (s.plsTb k) then
      s.plsUpd k fun u => { u with nextK := max u.nextK (s.plsAhead k) }
    else s) s

/-! ### Steps and slews (R214 to R220) -/

/-- R219, R227: the time bases that refuse a step of this size given to `n`. -/
def State.tbRefusers (s : State) (n : Nat) (amt : Int) : List Nat :=
  let big := fun (t : Nat) => decide (s.rf Fx.TB_GUARD_NS t * unitsPerNs < amt.natAbs)
  (List.range 8).filter fun t =>
    s.rb Fx.TB_CFG_GUARDED t && big t
      && (if t = n then !(s.tbOf n).oosCmd else s.tbServed t && (s.tbOf t).primary == n && !s.tbOos t)

/-- R220: what a refusing time base reports (DEDUCED, log entry 104). -/
def State.tbRefuse (s : State) (amt : Int) (t : Nat) : State :=
  let b := enc32 (sat32 (wholeNs amt))
  (((s.wf Fx.TB_STS_REFUSED 1 t).bump Fx.TB_CNT_REFUSED 1 t).post 3 0x30 t 0 b).tlog 0x20 0 t b

/-- R234: after a step of time base `n` a launch time on it is to be reached again. -/
def State.launchAgain (s : State) (n : Nat) : State :=
  let on := fun (l : Option (Nat × Int)) => match l with
    | some (tb, _) => tb == n || s.tbPrimary tb == n
    | none => false
  let onFrame := fun (fid : Nat) => match s.frameOf fid with
    | some f => on f.launch
    | none => false
  { s with
    cfl := { s.cfl with out := s.cfl.out.map fun o =>
      { o with queues := o.queues.map fun q => q.map fun e => if onFrame e.fid then { e with ripe := false } else e } }
    can := s.can.map fun c => { c with pend := c.pend.map fun p => if on p.launch then { p with ripe := false } else p } }

/-- A step of a signed amount (R214, R217, R219, R220). -/
def State.tbStep (s : State) (n : Nat) (amt : Int) : State :=
  match s.tbRefusers n amt with
  | [] =>
    ((s.tbUpd n fun t => { t with raw := ((Int.ofNat t.raw + amt) % Int.ofNat tbModulus).toNat, slewRem := 0 }).bump
      Fx.TB_CNT_STEPS 1 n).gateSeekAll n |>.launchAgain n
  | rs => rs.foldl (fun s t => s.tbRefuse amt t) s

/-- SET: a step of the new time minus the old. -/
def State.tbSet (s : State) (n : Nat) (t : Nat) : State := s.tbStep n (Int.ofNat t - Int.ofNat (s.tbOf n).raw)

/-- SLEW and SLEW_STOP: the remaining slew. -/
def State.tbSlew (s : State) (n : Nat) (amt : Int) : State := s.tbUpd n fun t => { t with slewRem := amt }

/-! ### Served time (R222 to R226) -/

/-- R223: move service to the other member, or refuse. -/
def State.tbSwitch (s : State) (n : Nat) : State :=
  let q := s.tbOther n
  let o : Int := (Int.ofNat (s.tbTime n) - Int.ofNat (s.tbOf q).raw) / 65536
  if 1000000000 * 65536 < o.natAbs then s.wf Fx.TB_STS_SW_REFUSED 1 n
  else (s.tbUpd n fun t => { t with ofs := o, ofsAcc := 0, primary := q }).post 3 0x31 n q 0

/-- OUT_OF_SERVICE, and the automatic switches it causes (R226, R227). -/
def State.tbOut (s : State) (n : Nat) : State :=
  let s1 := s.tbUpd n fun t => { t with oosCmd := true }
  let s2 := (List.range 8).foldl (fun s p =>
    if s.tbServed p && (s.tbOf p).primary == n && s.rb Fx.TB_CFG_AUTO p && !(s.tbOf (s.tbOther p)).oosCmd then s.tbSwitch p else s) s1
  s2.plsHold

/-- IN_SERVICE: gate lists and pulse trains on it resume (Table 06-3). -/
def State.tbIn (s : State) (n : Nat) : State :=
  ((s.tbUpd n fun t => { t with oosCmd := false }).gateSeekAll n).plsResume n

/-- SNAPSHOT: R212. -/
def State.tbSnap (s : State) : State :=
  { s with tb := Vector.ofFn fun (i : Fin 8) =>
      let t := s.tbOf i.val
      { t with snapRaw := t.raw, snapOfs := if s.tbServed i.val then t.ofs else 0, snapPrimary := s.tbPrimary i.val } }

/-! ### TB_CMD (R214, R215) -/

/-- R210, R215: an operation that is a reserved encoding on this time base now; `ns` is the ADJ_NS of a SET. -/
def State.tbCmdBad (s : State) (n op ns : Nat) : Bool :=
  (n == 0 && op != 8)
    || (op == 2 && decide (nsPerSec ≤ ns))
    || (op == 5 && (!s.tbServed n || (s.tbOf (s.tbOther n)).oosCmd))
    || (op == 6 && (s.tbOf n).oosCmd)
    || (op == 7 && !(s.tbOf n).oosCmd)

/-- The effect of an operation with these amounts. -/
def State.tbOp (s : State) (n op sec ns frac : Nat) : State :=
  match op with
  | 1 => s.tbStep n (stepAmount ns frac)
  | 2 => s.tbSet n (setTime sec ns frac)
  | 3 => s.tbSlew n (stepAmount ns frac)
  | 4 => s.tbSlew n 0
  | 5 => s.tbSwitch n
  | 6 => s.tbOut n
  | 7 => s.tbIn n
  | 8 => s.tbSnap
  | _ => s

/-- A write of TB_CMD, with the amounts that stand in TB_ADJ at the write. -/
def State.tbCmd (s : State) (m : Master) (n op : Nat) : State :=
  let ns := s.rf Fx.TB_ADJ_NS_NS n
  s.cmdWrite m .TB_CMD n 0 (BitVec.ofNat 32 op) (s.tbCmdBad n op ns) fun s =>
    s.tbOp n op (s.rf Fx.TB_ADJ_SEC_HI_SEC n * 2 ^ 32 + s.rf Fx.TB_ADJ_SEC_LO_SEC n) ns (s.rf Fx.TB_ADJ_FRAC_FRAC n)

/-- TB_STEP. -/
def execTbStep (m : Master) (n : Fin 8) (s : State) : Out State := .next (s.tbCmd m n.val 1)
/-- TB_SET. -/
def execTbSet (m : Master) (n : Fin 8) (s : State) : Out State := .next (s.tbCmd m n.val 2)
/-- TB_SLEW. -/
def execTbSlew (m : Master) (n : Fin 8) (s : State) : Out State := .next (s.tbCmd m n.val 3)
/-- TB_SLEW_STOP. -/
def execTbSlewStop (m : Master) (n : Fin 8) (s : State) : Out State := .next (s.tbCmd m n.val 4)
/-- TB_SERVE_SWITCH. -/
def execTbServeSwitch (m : Master) (n : Fin 8) (s : State) : Out State := .next (s.tbCmd m n.val 5)
/-- TB_OUT_OF_SERVICE. -/
def execTbOutOfService (m : Master) (n : Fin 8) (s : State) : Out State := .next (s.tbCmd m n.val 6)
/-- TB_IN_SERVICE. -/
def execTbInService (m : Master) (n : Fin 8) (s : State) : Out State := .next (s.tbCmd m n.val 7)
/-- TB_SNAPSHOT. -/
def execTbSnapshot (m : Master) (n : Fin 8) (s : State) : Out State := .next (s.tbCmd m n.val 8)

/-- TB_RATE_WRITE: R213; only 0 on TB0 (R210). -/
def execTbRateWrite (m : Master) (n : Fin 8) (adj : Word) (s : State) : Out State :=
  .next (s.cmdWrite m .TB_RATE n 0 adj (n.val == 0 && adj != 0#32) fun s => s.sg .TB_RATE n 0 adj)

/-- The reserved encodings of TB_CFG: R210, R221 and the layout of SHADOW. -/
def State.tbCfgBad (s : State) (n : Nat) (v : Word) : Bool :=
  let en := bits v 3 3 == 1
  let sh := bits v 6 4
  let bound := fun (x : Nat) => (List.range 8).any fun q => q != n && s.tbServed q && (q == x || s.tbShadow q == x)
  (n == 0 && (bits v 0 0 == 1 || en || bits v 7 7 == 1))
    || (en && (sh == n || sh == 0 || bound n || bound sh))
    || (!en && sh != 0)

/-- A write of TB_CFG: at the end of set-up the primary is the time base itself and O is 0 (R222). -/
def State.tbCfgWrite (s : State) (n : Nat) (v : Word) : State :=
  (s.sg .TB_CFG n 0 v).tbUpd n fun t => { t with primary := n, ofs := 0, ofsAcc := 0 }

/-! ### Reading (R211) -/

/-- The latches of a read of TB_NOW_NS. -/
def State.tbLatch (s : State) (m : Master) (n : Nat) : State :=
  let u := s.tbTime n
  s.tbUpd n fun t => match m with
    | .pcie => { t with latchPcie := ⟨tbSec u, tbFrac u⟩ }
    | .qspi => { t with latchQspi := ⟨tbSec u, tbFrac u⟩ }

/-- TB_NOW_READ. -/
def execTbNowRead (m : Master) (n : Fin 8) (s : State) : Out State :=
  if s.regDead .TB_NOW_NS n 0 then .next (s.emit (.readData m (RegId.addr .TB_NOW_NS n 0) 4 0))
  else .next ((s.emit (.readData m (RegId.addr .TB_NOW_NS n 0) 4 (tbNsOf (s.tbTime n.val)))).tbLatch m n.val)

/-! ### The clock edge and the ends of slews (R208, R214, R224) -/

/-- One edge of the 250 MHz clock on a time base: its advance, in 2^-32 ns, and its slew (DEDUCED, log entry 106). -/
def TimeBase.edge (t : TimeBase) (adj : Int) (slewMax : Nat) : TimeBase :=
  let q : Nat := 4 * unitsPerNs * slewMax / 1000000
  let k : Int := if 0 ≤ t.slewRem then min t.slewRem (Int.ofNat q) else max t.slewRem (-(Int.ofNat q))
  { t with raw := (Int.ofNat t.raw + Int.ofNat (4 * unitsPerNs) + 4 * adj + k).toNat % tbModulus, slewRem := t.slewRem - k }

/-- ADJ of a time base, signed. -/
def State.tbAdj (s : State) (n : Nat) : Int := sgn32 (s.rf Fx.TB_RATE_ADJ n)

/-- The advance of a primary's raw counter over one edge. -/
def advance (old new : Nat) : Nat := (new + tbModulus - old) % tbModulus

/-- R224: O moves toward 0 by SERVE_SLEW ppm of the primary's advance (DEDUCED, log entry 22). -/
def TimeBase.serveEdge (t : TimeBase) (adv slew : Nat) : TimeBase :=
  if t.ofs = 0 then { t with ofsAcc := 0 }
  else
    let a := t.ofsAcc + adv * slew
    let k := a / (1000000 * 65536)
    let rest := a % (1000000 * 65536)
    if t.ofs.natAbs ≤ k then { t with ofs := 0, ofsAcc := 0 }
    else { t with ofs := if 0 < t.ofs then t.ofs - Int.ofNat k else t.ofs + Int.ofNat k, ofsAcc := rest }

/-- One edge on all eight time bases. -/
def State.tbEdge (s : State) : State :=
  let moved : Vector TimeBase 8 := Vector.ofFn fun (i : Fin 8) =>
    (s.tbOf i.val).edge (s.tbAdj i.val) (s.rf Fx.TB_CFG_SLEW_MAX i.val)
  { s with tb := Vector.ofFn fun (i : Fin 8) =>
      let t := moved[i]
      if s.tbServed i.val then
        let p := t.primary
        t.serveEdge (advance (s.tbOf p).raw ((moved[p]?).getD t).raw) (s.rf Fx.TB_CFG_SERVE_SLEW i.val)
      else t }

/-- SLEW_COMPLETE: the rest of the slew has been run and the time base lands on it exactly (Table 06-1)
(DESIGN CHOICE, log entry 105). -/
def execSlewComplete (n : Fin 8) (s : State) : Out State :=
  .next (s.tbUpd n.val fun t => { t with raw := ((Int.ofNat t.raw + t.slewRem) % Int.ofNat tbModulus).toNat, slewRem := 0 })

/-- SERVE_SLEW_COMPLETE: O has reached exactly 0 (R224) (DESIGN CHOICE, log entry 105). -/
def execServeSlewComplete (n : Fin 8) (s : State) : Out State :=
  .next (s.tbUpd n.val fun t => { t with ofs := 0, ofsAcc := 0 })

/-! ### Event capture (R237, R238) -/

def State.capOf (s : State) (k : Nat) : Capture := (s.cap[k]?).getD Capture.reset
def State.capUpd (s : State) (k : Nat) (f : Capture → Capture) : State := { s with cap := vupd s.cap k f }

/-- TB_CAP_CFG: EDGE 0b00 is reserved in an enabled unit. -/
def tbCapCfgBad (v : Word) : Bool := bits v 31 31 == 1 && bits v 30 29 == 0

/-- CAPTURE_EDGE: a filtered edge of the unit's pin at time `t`, in 2^-16 ns of its time base. -/
def execCaptureEdge (k : Fin 4) (rising : Bool) (t : Nat) (s : State) : Out State :=
  let e := s.rf Fx.TB_CAP_CFG_EDGE k
  if !s.rb Fx.TB_CAP_CFG_EN k || !(e == 3 || e == (if rising then 1 else 2)) then .next s
  else if s.tbOos (s.rf Fx.TB_CAP_CFG_TB k) || decide (4 ≤ (s.capOf k).fifo.length) then
    .next (s.bump Fx.TB_CAP_STS_LOST 1 k)
  else .next (s.capUpd k fun c => { c with fifo := c.fifo ++ [t] })

/-- A read of TB_CAP_NS: the value, and the state after it. -/
def State.capRead (s : State) (k : Nat) : State × Nat :=
  match (s.capOf k).fifo with
  | [] => (s, 0xFFFFFFFF)
  | t :: rest =>
    (s.capUpd k fun _ => ⟨rest, t / 65536 / nsPerSec % 2 ^ 48, t % 65536⟩, t / 65536 % nsPerSec)

/-- TB_CAP_READ. -/
def execTbCapRead (m : Master) (k : Fin 4) (s : State) : Out State :=
  let r := if s.regDead .TB_CAP_NS k 0 then (s, 0) else s.capRead k.val
  .next (r.1.emit (.readData m (RegId.addr .TB_CAP_NS k 0) 4 r.2))

/-! ### Pulse outputs (R217, R239) -/

/-- PULSE_EDGE: the active edge when its instant is reached, once however many a step passed over; the inactive edge
WIDTH after the active one. -/
def execPulseEdge (k : Fin 4) (active : Bool) (s : State) : Out State :=
  let u := s.plsOf k.val
  let tb := s.plsTb k.val
  let now := s.tbNs tb
  let at_ := fun (j : Nat) => s.plsStart k.val + j * s.plsPeriod k.val
  if !u.running || s.tbOos tb then .next s
  else if active then
    if at_ u.nextK ≤ now then .next (s.plsUpd k.val fun x => { x with active := true, nextK := s.plsAhead k.val }) else .next s
  else
    if u.active && decide (at_ (u.nextK - 1) + s.rf Fx.TB_PLS_WIDTH_NS k.val ≤ now) then
      .next (s.plsUpd k.val fun x => { x with active := false })
    else .next s

end Sys2Proof.Machine
end

