-- ==== Sys2Proof/Machine/Host.lean ====
section
/-!
DEFINITION. The host ring manager (spec/02): polling, transmit descriptors and their validation and
completion, receive steering and delivery, event moderation, quiesce, ring halt and recovery.
-/
namespace Sys2Proof.Machine
open Sys2Proof

/-! ### Rings by number -/

def State.txOf (s : State) (n : Nat) : Ring := (s.hst.txr[n]?).getD Ring.reset
def State.txUpd (s : State) (n : Nat) (f : Ring → Ring) : State := { s with hst := { s.hst with txr := vupd s.hst.txr n f } }
def State.rxOf (s : State) (n : Nat) : Ring := (s.hst.rxr[n]?).getD Ring.reset
def State.rxUpd (s : State) (n : Nat) (f : Ring → Ring) : State := { s with hst := { s.hst with rxr := vupd s.hst.rxr n f } }
def State.txN (s : State) (n : Nat) : Nat := entriesOf (s.rf Fx.HST_TXR_CFG_SIZE n)
def State.rxN (s : State) (n : Nat) : Nat := entriesOf (s.rf Fx.HST_RXR_CFG_SIZE n)

/-- R41, R87, R524: device writes to host memory can be made. -/
def State.dmaOk (s : State) : Bool :=
  s.rb Fx.HST_CTL_EN && s.pcie.master && !s.hst.quiesced && !s.tph.fatal && !s.hst.dmaOff

/-- Polls and descriptor fetches can be made. -/
def State.fetchOk (s : State) : Bool := s.dmaOk && !s.hst.quiescing

/-- The ring of a kind is enabled, halted; its index; its entries; its word in the doorbell and shadow pages (Table 02-2). -/
def State.ringEn (s : State) : RingKind → Nat → Bool
  | .tx, n => s.rb Fx.HST_TXR_CFG_EN n
  | .rx, n => s.rb Fx.HST_RXR_CFG_EN n
  | .ev, n => s.rb Fx.HST_EVR_CFG_EN n
def State.ringHalted (s : State) : RingKind → Nat → Bool
  | .tx, n => (s.txOf n).halted
  | .rx, n => (s.rxOf n).halted
  | .ev, n => (s.evrOf n).halted
def State.ringIndex (s : State) : RingKind → Nat → Nat
  | .tx, n => (s.txOf n).cidx
  | .rx, n => (s.rxOf n).cidx
  | .ev, n => (s.evrOf n).pidx
def State.ringSize (s : State) : RingKind → Nat → Nat
  | .tx, n => s.txN n
  | .rx, n => s.rxN n
  | .ev, n => s.evrN n
def ringWord : RingKind → Nat → Nat
  | .tx, n => n
  | .rx, n => 32 + n
  | .ev, n => 64 + n
def kindCode : RingKind → Nat
  | .tx => 0
  | .rx => 1
  | .ev => 2
def kindCount : RingKind → Nat
  | .ev => 16
  | _ => 32
def ringCtlReg : RingKind → RegId
  | .tx => .HST_TXR_CTL
  | .rx => .HST_RXR_CTL
  | .ev => .HST_EVR_CTL

def State.ringDirty (s : State) (k : RingKind) (n : Nat) (d : Bool) : State :=
  match k with
  | .tx => s.txUpd n fun r => { r with dirty := d }
  | .rx => s.rxUpd n fun r => { r with dirty := d }
  | .ev => s.evrUpd n fun r => { r with dirty := d }
def State.ringIsDirty (s : State) : RingKind → Nat → Bool
  | .tx, n => (s.txOf n).dirty
  | .rx, n => (s.rxOf n).dirty
  | .ev, n => (s.evrOf n).dirty

/-- R44: write a ring's shadow word, or leave it owed while nothing can be written. -/
def State.shadow (s : State) (k : RingKind) (n : Nat) : State :=
  if s.dmaOk then
    (s.ringDirty k n false).emit (.hostWrite (s.base64 .HST_SH_BASE_LO .HST_SH_BASE_HI 0 + 4 * ringWord k n)
      (leBytes 4 (s.ringIndex k n + b2n (s.ringHalted k n) * 2 ^ 31)))
  else s.ringDirty k n true

/-! ### Halting a ring (R82, R83) -/

/-- Entries up to the last one that is in the switch; the later ones are discarded and fetched again. -/
def keepEnqueued (l : List TxEntry) : List TxEntry :=
  (l.reverse.dropWhile fun e => match e.phase with | .inSwitch _ => false | _ => true).reverse

/-- Descriptors fetched but not enqueued are discarded from the device. -/
def Ring.discard (r : Ring) : Ring := { r with prefetch := [], work := keepEnqueued r.work, fetchTry := 0, bufTry := 0 }

/-- The ring halts with a cause: STS, the shadow word at once, RING_HALT. -/
def State.haltRing (s : State) (k : RingKind) (n cause word : Nat) : State :=
  if s.ringHalted k n then s
  else
    let s1 := match k with
      | .tx => s.txUpd n fun r => { r.discard with halted := true, cause := cause }
      | .rx => s.rxUpd n fun r => { r with halted := true, cause := cause, fetchTry := 0 }
      | .ev => s.evrUpd n fun r => { r with halted := true, cause := cause }
    (s1.shadow k n).post 0 0x04 n (kindCode k * 16384 + cause) word

/-! ### Polling (R48 to R51) -/

/-- An enabled ring that is not halted has a word in a 64-byte line of the doorbell page. -/
def State.lineUsed (s : State) (line : Nat) : Bool :=
  (List.range 16).any fun i =>
    let w := 16 * line + i
    if w < 32 then s.ringEn .tx w && !s.ringHalted .tx w
    else if w < 64 then s.ringEn .rx (w - 32) && !s.ringHalted .rx (w - 32)
    else s.ringEn .ev (w - 64) && !s.ringHalted .ev (w - 64)

/-- The lines that a poll reads. -/
def State.pollLines (s : State) : List Nat := (List.range 5).filter s.lineUsed

/-- Issue the read of the doorbell lines. -/
def State.pollIssue (s : State) : State :=
  let b := s.base64 .HST_DB_BASE_LO .HST_DB_BASE_HI 0
  s.pollLines.foldl (fun s l => s.emit (.hostRead 0 (b + 64 * l) 64)) s

/-- The fault a doorbell word shows, in the order of R82; 0 none. -/
def State.dbCause (s : State) (k : RingKind) (n : Nat) (w : Word) : Nat :=
  let i := bits w 15 0
  let size := s.ringSize k n
  if bits w 31 16 != 0 then 2
  else if size ≤ i then 1
  else
    match k with
    | .ev =>
      let r := s.evrOf n
      if (r.pidx + size - r.head) % size < (i + size - r.head) % size then 6 else 0
    | .tx => let r := s.txOf n; if (i + size - r.cidx) % size < (r.tail + size - r.cidx) % size then 3 else 0
    | .rx => let r := s.rxOf n; if (i + size - r.cidx) % size < (r.tail + size - r.cidx) % size then 3 else 0

/-- Take up the word of one ring, or halt it. -/
def State.takeWord (s : State) (k : RingKind) (n : Nat) (w : Word) : State :=
  if !s.ringEn k n || s.ringHalted k n then s
  else
    let c := s.dbCause k n w
    if c != 0 then s.haltRing k n c w.toNat
    else
      match k with
      | .tx => s.txUpd n fun r => { r with tail := bits w 15 0, await := false }
      | .rx => s.rxUpd n fun r => { r with tail := bits w 15 0, await := false }
      | .ev => (s.evrUpd n fun r => { r with head := bits w 15 0 }).evrPayLost n

/-- Judge a completed poll: the empty-poll count and the interval in use (R49, R50) (DEDUCED, log entry 103). -/
def State.pollJudge (s : State) (empty : Bool) : State :=
  let c := s.rf Fx.HST_IDLE_POLLS_COUNT
  let e := if empty then min (s.hst.empty + 1) 0xFFFF else 0
  { s with hst := { s.hst with empty := e, idle := if empty then s.hst.idle || (c != 0 && decide (c ≤ e)) else false } }

/-- R81: a read that succeeded on its second attempt. -/
def State.retryOk (s : State) (kind addr : Nat) : State :=
  (s.bump Fx.HST_DMA_CNT_RETRY_OK).tlog 0x10 1 kind addr

/-- POLL_COMPLETION: the words 0 to 79 of the page as read (those of the lines read count). -/
def execPollCompletion (words : List Word) (s : State) : Out State :=
  if !s.hst.inFlight || !s.fetchOk then .next s
  else
    let lines := s.pollLines
    let ws := ((List.range 80).filter fun w => lines.contains (w / 16)).map fun w => (w, words.getD w 0)
    let empty := ws.all fun (x : Nat × Word) => sget (0#32) x.1 s.hst.db == x.2
    let s0 := { s with hst := { s.hst with inFlight := false, pollTry := 0,
                                           db := ws.foldl (fun d (x : Nat × Word) => sput (0#32) x.1 x.2 d) s.hst.db } }
    let s1 := if s.hst.pollTry = 1 then s0.retryOk 0 (s.base64 .HST_DB_BASE_LO .HST_DB_BASE_HI 0) else s0
    let s2 := ws.foldl (fun s x =>
      if x.1 < 32 then s.takeWord .tx x.1 x.2 else if x.1 < 64 then s.takeWord .rx (x.1 - 32) x.2
      else s.takeWord .ev (x.1 - 64) x.2) s1
    .next (s2.pollJudge empty)

/-! ### Transmit descriptors (R58 to R62, Table 02-4) -/

/-- A field of a descriptor: `n` bytes from byte `i`, little-endian. -/
def descLe (d : List Byte) (i n : Nat) : Nat := leNat ((List.range n).map fun k => d.getD (i + k) 0)
def dFirst (d : List Byte) : Bool := (byteAt d 10) % 2 == 1
def dLast (d : List Byte) : Bool := (byteAt d 10) / 2 % 2 == 1
def dEv (d : List Byte) : Bool := (byteAt d 10) / 4 % 2 == 1
def dTsReq (d : List Byte) : Bool := (byteAt d 10) / 8 % 2 == 1
def dLaunch (d : List Byte) : Bool := (byteAt d 10) / 16 % 2 == 1
def dClsMap (d : List Byte) : Bool := (byteAt d 10) / 32 % 2 == 1
def dLtb (d : List Byte) : Nat := byteAt d 11 / 16 % 8
def dTc (d : List Byte) : Nat := byteAt d 11 % 8
def dSwitch (d : List Byte) : Bool := byteAt d 15 / 128 == 1
def dMask (d : List Byte) : Nat := descLe d 12 4 % 2 ^ 17
def dLen (d : List Byte) : Nat := descLe d 8 2
def dTag (d : List Byte) : Nat := descLe d 20 4

/-- What stands at the start of the fetched descriptors. -/
inductive Chain where
  /-- Not yet decided: more descriptors are needed. -/
  | more
  /-- A group of this many descriptors that completes DESC_INVALID (rows 1 to 3). -/
  | invalid (n : Nat)
  /-- A chain of this many descriptors. -/
  | chain (n : Nat)
  deriving DecidableEq, Repr

/-- Rows 2 and 3 over the descriptors after the first; `k` have been seen. -/
def chainScan : Nat → List (List Byte) → Chain
  | k, [] => if 8 ≤ k then .invalid 8 else .more
  | k, d :: t =>
    if 8 ≤ k then .invalid 8
    else if dFirst d then .invalid k
    else if dLast d then .chain (k + 1)
    else chainScan (k + 1) t

/-- Rows 1 to 3 of Table 02-4. -/
def chainStart : List (List Byte) → Chain
  | [] => .more
  | d :: t => if !dFirst d then .invalid 1 else if dLast d then .chain 1 else chainScan 1 t

/-- R59, R58, row 4: a reserved bit or LEN of one descriptor. -/
def descBad (isFirst : Bool) (d : List Byte) : Bool :=
  dLen d == 0 || decide (9216 < dLen d) || byteAt d 10 / 64 != 0
    || (if isFirst then byteAt d 11 / 128 == 1 || byteAt d 11 / 8 % 2 == 1 || descLe d 12 4 / 2 ^ 17 % 2 ^ 14 != 0
        else byteAt d 10 / 4 % 16 != 0 || (List.range 9).any fun k => byteAt d (11 + k) != 0)

/-- The ports named in a mask, ascending. -/
def maskPorts (m : Nat) : List Nat := (List.range 17).filter fun p => m.testBit p

/-- Rows 4 to 8 of Table 02-4: the status with which the chain completes without its buffers being read. Row 7 takes the
maximum of a tagged frame, since the descriptors do not tell (log entry 24). -/
def State.chainStatus (s : State) (c : List (List Byte)) : Option Nat :=
  match c with
  | [] => some 1
  | d :: t =>
    let total := (c.map dLen).sum
    let ports := if dSwitch d then [14] else maskPorts (dMask d)
    if descBad true d || t.any (descBad false) || (dSwitch d && dMask d != 0) || (!dSwitch d && dMask d == 0)
        || (dMask d).testBit 14 then some 0x01
    else if ports.any (fun p => !s.variant.hasPort p) then some 0x02
    else if total < 14 then some 0x01
    else if ports.any (fun p => decide (s.maxLen p true < total + 4)) then some 0x03
    else if dLaunch d && s.tbOos (dLtb d) then some 0x0B
    else none

/-- The descriptors of a ring that the device holds. -/
def Ring.held (r : Ring) : Nat := r.prefetch.length + (r.work.map fun e => e.descs.length).sum

/-- Posted descriptors of a transmit ring not yet fetched (R45). -/
def State.txPosted (s : State) (n : Nat) : Nat :=
  let r := s.txOf n
  (r.tail + s.txN n - r.cidx) % s.txN n - r.held

/-- The reads of a chain's buffers, each at most 512 bytes (R40), issued one for each buffer. -/
def State.bufReads (s : State) (c : List (List Byte)) : State :=
  c.foldl (fun s d => s.emit (.hostRead 2 (descLe d 0 8) (dLen d))) s

/-- Group the fetched descriptors of a ring into chains, and validate them. -/
def State.txGroup (s : State) (n : Nat) : Nat → State
  | 0 => s
  | fuel + 1 =>
    let r := s.txOf n
    let idx := (r.cidx + (r.work.map fun e => e.descs.length).sum) % s.txN n
    let take := fun (s : State) (k : Nat) (ph : TxPhase) => s.txUpd n fun r =>
      { r with prefetch := r.prefetch.drop k, work := r.work ++ [TxEntry.mk idx (r.prefetch.take k) ph [] 0] }
    match chainStart r.prefetch with
    | .more => s
    | .invalid k => (take s k (.done 1)).txGroup n fuel
    | .chain k =>
      match s.chainStatus (r.prefetch.take k) with
      | some st => (take s k (.done st)).txGroup n fuel
      | none => ((take s k .reading).bufReads (r.prefetch.take k)).txGroup n fuel

/-- DESCRIPTOR_FETCH_DONE: bytes of posted descriptors, in ring order from the first not fetched yet. -/
def execDescriptorFetchDone (n : Fin 32) (descs : List (List Byte)) (s : State) : Out State :=
  let k := min descs.length (s.txPosted n)
  if !s.fetchOk || !s.ringEn .tx n || s.ringHalted .tx n || (s.txOf n).await || (s.inOf 14).bp || k == 0 then .next s
  else
    let s1 := if (s.txOf n).fetchTry = 1 then
        s.retryOk 1 (s.base64 .HST_TXR_BASE_LO .HST_TXR_BASE_HI n + 32 * (((s.txOf n).cidx + (s.txOf n).held) % s.txN n))
      else s
    let s2 := s1.txUpd n fun r => { r with prefetch := r.prefetch ++ descs.take k, fetchTry := 0 }
    .next (s2.txGroup n ((s2.txOf n).prefetch.length + 1))

/-- Replace the first entry whose buffers are being read. -/
def updReading (f : TxEntry → TxEntry) : List TxEntry → List TxEntry
  | [] => []
  | e :: t => match e.phase with
    | .reading => f e :: t
    | _ => e :: updReading f t
def findReading (l : List TxEntry) : Option TxEntry := l.find? fun e => match e.phase with | .reading => true | _ => false

/-- Offer a frame to the switch on SP14 (R61, R101, R105): it has these targets, or is discarded. -/
def State.hostFrame (s : State) (n : Nat) (e : TxEntry) (d0 : List Byte) (data : List Byte) : State :=
  let d := data ++ List.replicate (60 - data.length) 0
  let tb := if dLaunch d0 then dLtb d0 else s.rf Fx.HST_TXR_CFG_TS_TB n
  let launch := if dLaunch d0 then some (dLtb d0, extendNs (s.tbNs (dLtb d0)) (descLe d0 16 4)) else none
  let org := Origin.host n (s.txOf n).gen e.first
  let put := fun (s : State) (ph : TxPhase) => s.txUpd n fun r => { r with work := updReading (fun e => { e with phase := ph }) r.work, bufTry := 0 }
  let vp := s.classify 14 d
  let cls := if dClsMap d0 then none else some (dTc d0)
  if !s.rb Fx.CFL_CTL_EN then put s (.done 0x05)
  else if dSwitch d0 then
    match s.ingress 14 d cls with
    | .drop k => (put s (.done 0x05)).icnt 14 k
    | .fwd ts c vid pcp trap =>
      let s1 := if trap then s.icnt 14 6 else s
      if ts.isEmpty then put (s1.icnt 14 5) (.done 0x05)
      else (put s1 (.inSwitch ts.length)).storeComplete (mkFrame d 14 c vid pcp org launch false none tb) ts
  else if s.rf Fx.CFL_PORT_CFG_STATE 14 == 0 then (put s (.done 0x05)).icnt 14 3
  else
    let ts := maskPorts (dMask d0)
    (put s (.inSwitch ts.length)).storeComplete
      (mkFrame d 14 (cls.getD (s.classOf 14 vp.2)) vp.1 vp.2 org launch true none tb) ts

/-- TX_BUFFER_READ_DONE: the bytes of the buffers of the oldest chain whose buffers are being read. -/
def execTxBufferReadDone (n : Fin 32) (data : List Byte) (s : State) : Out State :=
  match findReading (s.txOf n).work with
  | none => .next s
  | some e =>
    match e.descs with
    | [] => .next s
    | d0 :: _ =>
      if !s.dmaOk || data.length != (e.descs.map dLen).sum then .next s
      else
        let s1 := if (s.txOf n).bufTry = 1 then s.retryOk 2 (descLe d0 0 8) else s
        .next (s1.hostFrame n e d0 data)

/-! ### Failed reads (R81, Table 02-9) -/

/-- A second failure is counted. -/
def State.dmaFail (s : State) : State := s.bump Fx.HST_DMA_CNT_FAIL

/-- DMA_COMPLETION_TIMEOUT: a read in flight fails: a poll, a descriptor fetch of a ring, or the read of buffer `b` of its chain. -/
def execDmaCompletionTimeout (kind : DmaKind) (rx : Bool) (n : Fin 32) (b : Fin 8) (s : State) : Out State :=
  if !s.dmaOk then .next s
  else
    match kind with
    | .poll =>
      if !s.hst.inFlight then .next s
      else if s.hst.pollTry = 0 then .next ({ s with hst := { s.hst with pollTry := 1 } }).pollIssue
      else .next (((({ s with hst := { s.hst with inFlight := false, pollTry := 0 } }).dmaFail).post 0 0x05 0 0
        (s.base64 .HST_DB_BASE_LO .HST_DB_BASE_HI 0)).pollJudge true)
    | .descriptor =>
      if rx then
        if s.ringHalted .rx n || !s.ringEn .rx n || (s.rxOf n).tail == (s.rxOf n).cidx then .next s
        else if (s.rxOf n).fetchTry = 0 then
          .next ((s.rxUpd n fun r => { r with fetchTry := 1 }).emit
            (.hostRead 1 (s.base64 .HST_RXR_BASE_LO .HST_RXR_BASE_HI n + 32 * (s.rxOf n).cidx) 16))
        else .next (s.dmaFail.haltRing .rx n 4 0)
      else
        if s.ringHalted .tx n || !s.ringEn .tx n || s.txPosted n == 0 then .next s
        else if (s.txOf n).fetchTry = 0 then
          .next ((s.txUpd n fun r => { r with fetchTry := 1 }).emit
            (.hostRead 1 (s.base64 .HST_TXR_BASE_LO .HST_TXR_BASE_HI n + 32 * (((s.txOf n).cidx + (s.txOf n).held) % s.txN n)) 24))
        else .next (s.dmaFail.haltRing .tx n 4 0)
    | .buffer =>
      match findReading (s.txOf n).work with
      | none => .next s
      | some e =>
        let d := e.descs.getD b.val []
        if (s.txOf n).bufTry = 0 then
          .next ((s.txUpd n fun r => { r with bufTry := 1 }).emit (.hostRead 2 (descLe d 0 8) (dLen d)))
        else
          .next (((s.txUpd n fun r =>
            { r with bufTry := 0, work := updReading (fun e => { e with phase := .done 0x04 }) r.work }).dmaFail).post 0 0x05 0 2
            (descLe d 0 8))

/-! ### Transmit completion (R60, R63 to R66) -/

/-- The targets that transmitted, and the lowest-numbered of a list of outcomes. -/
def lowest (l : List (Nat × TxResult)) : Option (Nat × TxResult) :=
  l.foldl (fun b x => match b with | none => some x | some y => if x.1 < y.1 then some x else some y) none
def sentOnes (l : List (Nat × TxResult)) : List (Nat × TxResult) :=
  l.filter fun x => match x.2 with | .sent _ _ => true | .unsent _ => false

/-- R64: STATUS from the outcomes at the targets. -/
def statusOf (l : List (Nat × TxResult)) : Nat :=
  if (sentOnes l).any (fun x => match x.2 with | .sent late _ => late | .unsent _ => false) then 0x07
  else if !(sentOnes l).isEmpty then 0x00
  else match lowest l with | some (_, .unsent st) => st | _ => 0x05

/-- The status of an entry that is complete. -/
def TxEntry.status (e : TxEntry) : Option Nat :=
  match e.phase with
  | .done st => some st
  | .inSwitch 0 => some (statusOf e.results)
  | _ => none

/-- The stamped port and its stamp: the lowest-numbered target that transmitted (R63). -/
def TxEntry.stamp (e : TxEntry) : Option (Nat × Nat) :=
  match lowest (sentOnes e.results) with
  | some (p, .sent _ (some t)) => some (p, t)
  | _ => none

/-- Bytes 24 to 29 of the LAST descriptor: the stamp, or free values beside TS_TB when there is none (log entry 25). -/
def State.tsBytes (s : State) (st : Option (Nat × Nat)) (tb : Nat) : List Byte :=
  match st with
  | some (p, t) => leBytes 4 (t / 256) ++ leBytes 1 t ++ leBytes 1 (p * 8 + tb)
  | none => leBytes 4 s.freeVal.toNat ++ leBytes 1 s.freeNext.freeVal.toNat
      ++ leBytes 1 (s.freeNext.freeVal.toNat / 256 % 32 * 8 + tb)

/-- The write-backs of one descriptor: bytes 24 to 30 as one write, then byte 31 (R54). -/
def State.writeBack (s : State) (base idx : Nat) (from_ : Nat) (body : List Byte) (b31 : Nat) : State :=
  (s.emit (.hostWrite (base + 32 * idx + from_) body)).emit (.hostWrite (base + 32 * idx + 31) [BitVec.ofNat 8 b31])

/-- Write back the oldest entry of a transmit ring where it is complete and can be written; `none` otherwise. -/
def State.txWriteHead (s : State) (n : Nat) : Option State :=
  match (s.txOf n).work with
  | [] => none
  | e :: _ =>
    match e.status with
    | none => none
    | some st =>
      if !s.dmaOk then none
      else
        let d0 := e.descs.getD 0 []
        let base := s.base64 .HST_TXR_BASE_LO .HST_TXR_BASE_HI n
        let k := e.descs.length
        let tb := if dFirst d0 && dLaunch d0 then dLtb d0 else s.rf Fx.HST_TXR_CFG_TS_TB n
        let ts := if dFirst d0 && dTsReq d0 then e.stamp else none
        let b31 := 128 + b2n ts.isSome * 64
        let s1 := (List.range k).foldl (fun s i =>
          let idx := (e.first + i) % s.txN n
          if i + 1 = k ∧ dLast (e.descs.getD i []) = true then
            s.writeBack base idx 24 (s.tsBytes ts tb ++ leBytes 1 st) b31
          else s.writeBack base idx 24 (List.replicate 6 0 ++ leBytes 1 st) b31) s
        let s2 := if ts.isNone then s1.freeNext.freeNext else s1
        let s3 := s2.txUpd n fun r => { r with cidx := (e.first + k) % s.txN n, work := r.work.drop 1, dirty := true }
        let s4 := if st = 0x01 then s3.bump Fx.HST_TXR_CNT_INVALID 1 n else if st ≠ 0 then s3.bump Fx.HST_TXR_CNT_OTHER 1 n else s3
        if (dFirst d0 && dEv d0) || s.rb Fx.HST_TXR_CFG_EV_ALL n then
          some ((s4.shadow .tx n).postTo (s.rf Fx.HST_TXR_CFG_EV_RING n) 0x01 n ((e.first + k + s.txN n - 1) % s.txN n) (dTag d0))
        else some s4

/-- TX_COMPLETION: the oldest frame or group of a ring is written back once every target has ended it. -/
def execTxCompletion (n : Fin 32) (s : State) : Out State :=
  match s.txWriteHead n with
  | some t => .next t
  | none => .next s

/-- Write back every complete entry of a ring in ring order. -/
def State.txWriteAll (s : State) (n : Nat) : Nat → State
  | 0 => s
  | fuel + 1 => match s.txWriteHead n with
    | some t => t.txWriteAll n fuel
    | none => s

/-- SHADOW_UPDATE: R56. -/
def execShadowUpdate (k : RingKind) (n : Fin 32) (s : State) : Out State :=
  if s.ringIsDirty k n && s.dmaOk && decide (n.val < kindCount k) then .next (s.shadow k n) else .next s

/-- MSIX_MODERATION_TIMEOUT: R78. -/
def execMsixModerationTimeout (n : Fin 16) (s : State) : Out State :=
  let us := s.rf Fx.HST_EVR_MOD_US n
  match (s.evrOf n).oldest with
  | none => .next s
  | some t => if us != 0 && decide (t + us * 1000 ≤ s.tbNs 0) then .next (s.evrSignal n) else .next s

/-! ### Reception (R67 to R73) -/

/-- R67: a receive descriptor breaks its rules. -/
def rxDescBad (d : List Byte) : Bool :=
  let bl := dLen d
  descLe d 0 8 % 8 != 0 || decide (bl < 256) || decide (16384 < bl) || bl % 64 != 0
    || (List.range 6).any fun k => byteAt d (10 + k) != 0

/-- How a frame of `len` bytes fits in the posted descriptors (R71). -/
inductive RxFit where
  /-- It takes this many descriptors, broken ones among them. -/
  | fits (n : Nat)
  | noDesc
  | tooBig
  deriving DecidableEq, Repr

def rxFit (len : Nat) : Nat → Nat → Nat → List (List Byte) → RxFit
  | taken, cap, _, [] => if len ≤ cap ∧ 0 < taken then .fits 0 else if 8 ≤ taken then .tooBig else .noDesc
  | taken, cap, seen, d :: t =>
    if rxDescBad d then rxFit len taken cap (seen + 1) t
    else if len ≤ cap + dLen d then .fits (seen + 1)
    else if 8 ≤ taken + 1 then .tooBig
    else rxFit len (taken + 1) (cap + dLen d) (seen + 1) t

/-- Bytes 18 to 28 of a receive write-back (Table 02-5). -/
def State.rxCommon (s : State) (f : Delivered) : List Byte :=
  leBytes 2 f.data.length ++ leBytes 1 f.inp ++ leBytes 1 f.core ++ leBytes 2 f.tci
    ++ (match f.stamp with
        | some t => leBytes 4 (t / 256) ++ leBytes 1 t
        | none => leBytes 4 s.freeVal.toNat ++ leBytes 1 s.freeNext.freeVal.toNat)

/-- Byte 29. -/
def rxByte29 (f : Delivered) (first last : Bool) : Nat :=
  b2n last * 64 + b2n first * 32 + b2n (isTagged f.data) * 16 + b2n f.stamp.isSome * 8 + f.stampTb % 8

/-- Bytes 18 to 29 of a descriptor that breaks R67: free values in the fields that nothing states. -/
def State.rxFree (s : State) : List Byte :=
  let a := s.freeVal.toNat
  let b := s.freeNext.freeVal.toNat
  let c := s.freeNext.freeNext.freeVal.toNat
  leBytes 2 a ++ leBytes 1 (a / 65536 % 32) ++ leBytes 1 (a / 2 ^ 21 % 16) ++ leBytes 2 b ++ leBytes 4 c
    ++ leBytes 1 (b / 65536) ++ leBytes 1 (b / 2 ^ 24 % 128)

/-- Write a frame into the descriptors that it takes, from ring index `idx` on, with the same bytes 18 to 28 in each; broken ones
complete DESC_INVALID (R68, R72). -/
def State.rxWrite (s : State) (n : Nat) (f : Delivered) (common : List Byte) : Nat → Nat → Bool → List (List Byte) → State
  | _, _, _, [] => s
  | idx, done, first, d :: t =>
    let base := s.base64 .HST_RXR_BASE_LO .HST_RXR_BASE_HI n
    let nx := (idx + 1) % s.rxN n
    if rxDescBad d then
      ((s.writeBack base idx 16 (leBytes 2 0 ++ s.rxFree ++ leBytes 1 0x01) 128).freeNext.freeNext.freeNext).rxWrite n f common nx done first t
    else
      let part := (f.data.drop done).take (dLen d)
      let s1 := s.emit (.hostWrite (descLe d 0 8) part)
      (s1.writeBack base idx 16 (leBytes 2 part.length ++ common ++ leBytes 1 (rxByte29 f first t.isEmpty) ++ leBytes 1 0) 128).rxWrite
        n f common nx (done + part.length) false t

/-- RX_DONE and the shadow word after a frame that took `k` descriptors. -/
def State.rxAfter (s : State) (n k len : Nat) : State :=
  let c := ((s.rxOf n).cidx + k) % s.rxN n
  let s1 := s.rxUpd n fun r => { r with cidx := c, dirty := true }
  if s.rb Fx.HST_RXR_CFG_EV_ALL n then (s1.shadow .rx n).postTo (s.rf Fx.HST_RXR_CFG_EV_RING n) 0x02 n c len else s1

/-- Deliver a frame of SP14 into the receive ring it is steered to (DEDUCED, log entry 107; DESIGN CHOICE, log entry 108). -/
def State.rxDeliver (s : State) (f : Delivered) (descs : List (List Byte)) : State :=
  let k := 8 * f.inp + f.cls
  let n := s.rf Fx.HST_RX_STEER_RING k
  if !s.rb Fx.HST_CTL_EN || !s.rb Fx.HST_RX_STEER_EN k then s.bump Fx.HST_RX_NOSTEER_COUNT
  else if !s.ringEn .rx n || s.ringHalted .rx n || s.hst.quiesced || s.hst.quiescing then s.bump Fx.HST_RXR_CNT_NODESC 1 n
  else
    let r := s.rxOf n
    let posted := if r.await then [] else descs.take ((r.tail + s.rxN n - r.cidx) % s.rxN n)
    let s0 := if r.fetchTry = 1 ∧ posted ≠ [] then
        (s.rxUpd n fun r => { r with fetchTry := 0 }).retryOk 1 (s.base64 .HST_RXR_BASE_LO .HST_RXR_BASE_HI n + 32 * r.cidx)
      else s
    if f.ecc then
      match posted with
      | [] => s0.bump Fx.HST_RXR_CNT_NODESC 1 n
      | _ :: _ =>
        let s1 := s0.writeBack (s.base64 .HST_RXR_BASE_LO .HST_RXR_BASE_HI n) r.cidx 16
          (leBytes 2 0 ++ s0.rxCommon f ++ leBytes 1 (rxByte29 f true true) ++ leBytes 1 0x0A) 128
        s1.freeNext.freeNext.rxAfter n 1 f.data.length
    else
      match rxFit f.data.length 0 0 0 posted with
      | .noDesc => s0.bump Fx.HST_RXR_CNT_NODESC 1 n
      | .tooBig => s0.bump Fx.HST_RXR_CNT_TOOBIG 1 n
      | .fits m => (s0.freeNext.freeNext.rxWrite n f (s0.rxCommon f) r.cidx 0 true (posted.take m)).rxAfter n m f.data.length

/-- Take the oldest frame that waits for delivery at SP14 + `k`. -/
def State.sinkOf (s : State) (k : Nat) : List Delivered := (s.cfl.sink[k]?).getD []
def State.sinkPop (s : State) (k : Nat) : State :=
  { s with cfl := { s.cfl with sink := vupd s.cfl.sink k fun l => l.drop 1 } }

/-- RX_FRAME_DELIVERY: with the posted descriptors of the ring from its consumer index on, as host memory holds them. -/
def execRxFrameDelivery (descs : List (List Byte)) (s : State) : Out State :=
  match s.sinkOf 0 with
  | [] => .next s
  | f :: _ => if s.noMaster || s.hst.dmaOff || s.tph.fatal then .next s else .next ((s.sinkPop 0).rxDeliver f descs)

/-! ### Quiesce and bus mastering (R41, R87) -/

def State.allTx (s : State) (f : Ring → Ring) : State := { s with hst := { s.hst with txr := s.hst.txr.map f } }

/-- QUIESCE acts. -/
def State.quiesce (s : State) : State :=
  if s.hst.quiesced || s.hst.quiescing then s
  else ({ s with hst := { s.hst with quiescing := true, inFlight := false, pollTry := 0 } }).allTx Ring.discard

/-- QUIESCE. -/
def execQuiesce (m : Master) (s : State) : Out State := .next (s.cmdWrite m .HST_CMD 0 0 1#32 false State.quiesce)

/-- QUIESCE_COMPLETE: the writes in flight have completed. -/
def execQuiesceComplete (s : State) : Out State :=
  if s.hst.quiescing then .next { s with hst := { s.hst with quiescing := false, quiesced := true } } else .next s

/-- Write what has been held back: write-backs in ring order and owed shadow words. -/
def State.writeHeld (s : State) : State :=
  let s1 := (List.range 32).foldl (fun s n => s.txWriteAll n ((s.txOf n).work.length)) s
  let sh := fun (s : State) (k : RingKind) (n : Nat) => if s.ringIsDirty k n && s.dmaOk then s.shadow k n else s
  let s2 := (List.range 32).foldl (fun s n => sh (sh s .tx n) .rx n) s1
  (List.range 16).foldl (fun s n => sh s .ev n) s2

/-! ### Poll instants (R48, R51) -/

/-- R41: the abandoned buffer reads of a ring are issued again from the first buffer of each frame (DEDUCED, log entry 204). -/
def State.readAgain (s : State) (n : Nat) : State :=
  (s.txOf n).work.foldl (fun s e => match e.phase with | .reading => s.bufReads e.descs | _ => s) s

/-- R41: at the first poll instant after a link and bus mastering are back, DMA resumes and what has been held is written
(DEDUCED, log entry 204). -/
def State.dmaResume (s : State) : State :=
  if s.hst.dmaOff && s.pcie.master && !s.hst.quiesced && !s.hst.quiescing && !s.tph.fatal && s.lock && s.pwr.state == 0 then
    let s1 := ({ s with hst := { s.hst with dmaOff := false } }).writeHeld
    (List.range 32).foldl (fun s n => s.readAgain n) s1
  else s

/-- Start a poll where one can take place and none is in flight. -/
def State.pollGo (s : State) : State :=
  if s.fetchOk && s.lock && s.pwr.state == 0 && !s.hst.inFlight && !s.pollLines.isEmpty then
    ({ s with hst := { s.hst with inFlight := true, pollTry := 0 } }).pollIssue
  else s

/-- A poll instant. -/
def State.pollStart (s : State) : State := s.dmaResume.pollGo

/-- DOORBELL_POLL: a due poll instant (R48). -/
def execDoorbellPoll (s : State) : Out State := .next s.pollStart

/-- POLL_NOW acts: R51. -/
def State.pollNow (s : State) : State :=
  ({ s with hst := { s.hst with empty := 0, idle := false } }).pollStart

/-- POLL_NOW. -/
def execPollNow (m : Master) (s : State) : Out State := .next (s.cmdWrite m .HST_CMD 0 0 4#32 false State.pollNow)

/-! ### Resuming and bus mastering -/

/-- RESUME of the host ring manager acts: the held writes are made and fetching goes on from the next poll. -/
def State.hostResume (s : State) : State :=
  if s.hst.quiesced || s.hst.quiescing then
    ({ s with hst := { s.hst with quiescing := false, quiesced := false } }).writeHeld
  else s

/-- HOST_RESUME. -/
def execHostResume (m : Master) (s : State) : Out State := .next (s.cmdWrite m .HST_CMD 0 0 2#32 false State.hostResume)

/-- Reads in flight are abandoned without an outcome: their work is taken up afresh (R41). -/
def State.abandonReads (s : State) : State :=
  let s1 := { s with hst := { s.hst with inFlight := false, pollTry := 0, rxr := s.hst.rxr.map (fun (r : Ring) => { r with fetchTry := 0 }) } }
  s1.allTx fun r => { r with fetchTry := 0, bufTry := 0 }

/-- BUS_MASTER_LOSS: the link goes down, or Bus Master Enable is cleared, or both. -/
def execBusMasterLoss (linkDown bmeOff : Bool) (s : State) : Out State :=
  let s1 := { s with pcie := { s.pcie with linkUp := s.pcie.linkUp && !linkDown, bme := s.pcie.bme && !bmeOff } }
  .next (if s1.pcie.master then s1 else s1.abandonReads)

/-- Pending vectors whose entry is unmasked are sent once (R79). -/
def State.msixFlush (s : State) : State :=
  if !s.pcie.master then s
  else (List.range 64).foldl (fun s v =>
    if s.pcie.pend.getLsbD v && !s.pcie.masked v then
      ({ s with pcie := { s.pcie with pend := s.pcie.pend &&& ~~~(BitVec.ofNat 64 (2 ^ v)) } }).msixSend v
    else s) s

/-- BUS_MASTER_RESTORE: the link comes up at a payload rate in kb/s (Table 03-1), or Bus Master Enable is set, or both. -/
def execBusMasterRestore (rate : Option Nat) (bmeOn : Bool) (s : State) : Out State :=
  let s1 := match rate with
    | some r => { s with pcie := { s.pcie with linkUp := true, rateKb := r } }
    | none => s
  let s2 := { s1 with pcie := { s1.pcie with bme := s1.pcie.bme || bmeOn } }
  .next (if s2.pcie.master then
      (if s.pcie.master then s2 else { s2 with hst := { s2.hst with dmaOff := s2.hst.dmaOff || s2.rb Fx.HST_CTL_EN } }).msixFlush
    else s2)

/-- MSIX_UNMASK: the mask bit of an entry is cleared, and a pending message is sent once (R79). -/
def execMsixUnmask (v : Fin 64) (s : State) : Out State :=
  let w := s.pcie.word (4 * v.val + 3)
  let k := 4 * v.val + 3
  let s1 := { s with pcie := { s.pcie with msix := sput (msixReset k) k (w &&& 0xFFFFFFFE#32) s.pcie.msix } }
  .next s1.msixFlush

/-! ### Ring recovery (R82 to R86) -/

/-- R86: a CTL value that is a reserved encoding now. -/
def State.ringCtlBad (s : State) (k : RingKind) (n : Nat) (v : Word) : Bool :=
  decide (1 < bits v 0 0 + bits v 1 1 + bits v 2 2)
    || ((bits v 0 0 == 1 || bits v 1 1 == 1) && !s.ringHalted k n && !s.hst.quiesced)

/-- RESET of a ring (R85) (DEDUCED, log entry 205). -/
def State.ringReset (s : State) (k : RingKind) (n : Nat) : State :=
  let s1 := match k with
    | .tx => s.txUpd n fun r => { Ring.reset with gen := r.gen + 1, await := true }
    | .rx => s.rxUpd n fun r => { Ring.reset with gen := r.gen + 1, await := true }
    | .ev => s.evrUpd n fun r => { r with pidx := 0, head := 0, phase := true, halted := false, cause := 0, unsig := 0, oldest := none }
  s1.ringDirty k n true

/-- RESUME of a halted ring (R84). -/
def State.ringResume (s : State) (k : RingKind) (n : Nat) : State :=
  if !s.ringHalted k n then s
  else
    let s1 := match k with
      | .tx => s.txUpd n fun r => { r with halted := false, cause := 0, await := true }
      | .rx => s.rxUpd n fun r => { r with halted := false, cause := 0, await := true }
      | .ev => s.evrUpd n fun r => { r with halted := false, cause := 0 }
    s1.ringDirty k n true

/-- A write of a ring's CTL acts. -/
def State.ringCtl (s : State) (k : RingKind) (n : Nat) (v : Word) : State :=
  if bits v 2 2 = 1 then s.haltRing k n 5 0
  else if bits v 1 1 = 1 then s.ringReset k n
  else if bits v 0 0 = 1 then s.ringResume k n
  else s

/-- A write of CTL of a ring; a ring that does not exist has no such register. -/
def State.ringCmd (s : State) (m : Master) (k : RingKind) (n : Nat) (v : Word) : State :=
  if n < kindCount k then s.cmdWrite m (ringCtlReg k) n 0 v (s.ringCtlBad k n v) fun s => s.ringCtl k n v
  else s.reject m .unmapped (RegId.addr (ringCtlReg k) n 0) v

/-- RING_HALT_CMD. -/
def execRingHaltCmd (m : Master) (k : RingKind) (n : Fin 32) (s : State) : Out State := .next (s.ringCmd m k n 4#32)
/-- RING_RESET. -/
def execRingReset (m : Master) (k : RingKind) (n : Fin 32) (s : State) : Out State := .next (s.ringCmd m k n 2#32)
/-- RING_RESUME. -/
def execRingResume (m : Master) (k : RingKind) (n : Fin 32) (s : State) : Out State := .next (s.ringCmd m k n 1#32)

/-! ### Set-up writes (R75, HST_POLL) -/

/-- A ring enabled afresh starts at index 0, an event ring with PHASE 1 (R75) (DEDUCED, log entry 205). -/
def State.ringEnabled (s : State) (k : RingKind) (n : Nat) : State :=
  match k with
  | .tx => s.txUpd n fun r => { Ring.reset with gen := r.gen + 1 }
  | .rx => s.rxUpd n fun r => { Ring.reset with gen := r.gen + 1 }
  | .ev => s.evrUpd n fun r => { EvRing.reset with lost := r.lost, owed := r.owed }

/-- HST_POLL and HST_POLL_IDLE must keep the idle interval at or above the fast one. -/
def State.hstPollBad (s : State) (v : Word) : Bool := decide (s.rf Fx.HST_POLL_IDLE_NS < bits v 19 0)
def State.hstPollIdleBad (s : State) (v : Word) : Bool := decide (bits v 23 0 < s.rf Fx.HST_POLL_NS)

/-- HST_CMD: QUIESCE with RESUME is a reserved encoding; the actions of a write. -/
def hstCmdBad (v : Word) : Bool := bits v 0 0 == 1 && bits v 1 1 == 1
def State.hstCmd (s : State) (v : Word) : State :=
  let s1 := if bits v 0 0 = 1 then s.quiesce else s
  let s2 := if bits v 1 1 = 1 then s1.hostResume else s1
  if bits v 2 2 = 1 then s2.pollNow else s2

/-- HST_STS. -/
def State.hstSts (s : State) : Nat :=
  s.hst.empty * 65536 + b2n s.noMaster * 8 + b2n s.hst.quiesced * 4 + b2n s.hst.idle * 2
    + b2n (s.fetchOk && s.lock && s.pwr.state == 0)

/-- STS of a ring. -/
def State.ringSts (s : State) (k : RingKind) (n : Nat) : Nat :=
  let cause := match k with | .tx => (s.txOf n).cause | .rx => (s.rxOf n).cause | .ev => (s.evrOf n).cause
  s.ringIndex k n * 65536 + cause * 16 + b2n (s.ringHalted k n) * 2
    + b2n (s.ringEn k n && !s.ringHalted k n && !s.hst.quiesced)

end Sys2Proof.Machine
end

