-- ==== Sys2Proof/Machine/CoreOps.lean ====
section
/-!
DEFINITION. The shared operations of an engine core (spec/09): its memory accesses (R314 to R318), the locks (R368 to R371),
the register window (R311 to R313), taking an exception or interrupt (R337, R339, R373) and returning from it (R338),
and the frame of one instruction (R319, R331 to R336).
-/
namespace Sys2Proof.Machine
open Sys2Proof

/-! ### Uncorrectable errors (R318, R486, R487) -/

/-- The row of a byte offset of a memory: 64 words of its width (R484). -/
def rowOf (m off : Nat) : Nat := if 32 ≤ m ∧ m < 48 then off / 2048 else off / 512

/-- R487: a row becomes suspect, when fewer than 16 wait. Memories 53 to 55 have no rows (Table 15-1). -/
def State.suspect (s : State) (m row : Nat) : State :=
  if 53 ≤ m || s.mem.suspects.contains (m, row) then s
  else if 16 ≤ s.mem.suspects.length then s.bump Fx.MEM_ECC_CNT_SUSPECT_LOST
  else { s with mem := { s.mem with suspects := s.mem.suspects ++ [(m, row)] } }

/-- The byte offset of the word of a memory that holds a byte (R486, Table 15-1) (DEDUCED, log entry 212). -/
def wordOff (m off : Nat) : Nat := off - off % (if 54 ≤ m then 1 else if m = 53 then 16 else if 32 ≤ m ∧ m < 48 then 32 else 8)

/-- R486: a good second read. -/
def State.eccRetry (s : State) (m off : Nat) : State := (s.bump Fx.MEM_UNCORR_CNT_RETRY_OK).tlog 0x71 1 m (wordOff m off)

/-- R486: a second read that fails. -/
def State.eccFail (s : State) (m off : Nat) : State :=
  (((s.bump Fx.MEM_UNCORR_CNT_FAIL).tlog 0x72 2 m (wordOff m off)).post 6 0x60 m 0 (wordOff m off)).suspect m (rowOf m off)

/-! ### Locks (R368 to R371) -/

/-- A lock is held as 0x8000_0000 OR the owner's ID. -/
def lockWord (id : Nat) : Nat := 2 ^ 31 + id

def State.lckOf (s : State) (n : Nat) : Nat := vget 0 s.lck n

/-- A read: a free lock is acquired by the reader and read as 0. -/
def State.lockRead (s : State) (id n : Nat) : State × Nat :=
  if s.lckOf n = 0 then ({ s with lck := vupd s.lck n fun _ => lockWord id }, 0) else (s, s.lckOf n)

/-- A write: 0 by the owner frees the lock, every other write is ignored and counted. -/
def State.lockWrite (s : State) (id n v : Nat) : State :=
  if v = 0 ∧ s.lckOf n = lockWord id then { s with lck := vupd s.lck n fun _ => 0 } else s.bump Fx.ENG_LOCK_CNT_BAD

/-! ### Memory of a core (Table 09-2) -/

/-- An exception: its cause code, INFO and BADADDR. -/
structure Exc where
  code : Nat
  info : Nat
  bad : Nat
  deriving DecidableEq, Repr

/-- What an access answers: an exception, or the state after it with a value. -/
inductive Mem where
  | bad (s : State) (x : Exc)
  | got (s : State) (v : Nat)

/-- The memory number and byte offset of a core address (Table 15-1). -/
def State.memAt (s : State) (k a : Nat) : Nat × Nat :=
  if a < 0x20000 then (16 + s.physOf k, a) else (poolBank (a - 0x100000), (a - 0x100000) % 131072)

/-- The core's own memory pair is ON. -/
def State.coreOn (s : State) (k : Nat) : Bool := s.bankSt (16 + s.physOf k) == 0

/-- Bytes at a core address, without any check. -/
def State.cBytes (s : State) (k a n : Nat) : List Byte :=
  if a < 0x10000 then rdBytes (s.coreOf (s.physOf k)).imem a n
  else if a < 0x20000 then rdBytes (s.coreOf (s.physOf k)).dmem (a - 0x10000) n
  else rdBytes s.pool (a - 0x100000) n

/-- Store bytes at a data memory or pool address, without any check but that of a mirror region (R317). -/
def State.cPut (s : State) (k a : Nat) (d : List Byte) : State :=
  if a < 0x20000 then s.coreUpd (s.physOf k) fun c => { c with dmem := wrBytes c.dmem (a - 0x10000) d }
  else if s.mirrorProt (a - 0x100000) d.length then s.bump Fx.MEM_MIRROR_WREJ_COUNT
  else { s with pool := wrBytes s.pool (a - 0x100000) d }

/-- A load of `size` bytes; `plain` for those of R369 that reach a lock. Alignment is judged before the map
(DEDUCED, log entry 116) (DEDUCED, log entry 212). -/
def State.cLoad (s : State) (k : Nat) (e : CoreEcc) (plain : Bool) (a size : Nat) : Mem :=
  if a % size ≠ 0 then .bad s ⟨3, 0, a⟩
  else
    let read := fun (_ : Unit) =>
      let w := s.memAt k a
      match e with
      | .dataFail => Mem.bad (s.eccFail w.1 w.2) ⟨7, 0, a - a % 4⟩
      | .dataRetry => Mem.got (s.eccRetry w.1 w.2) (leNat (s.cBytes k a size))
      | _ => Mem.got s (leNat (s.cBytes k a size))
    if a < 0x20000 then (if s.coreOn k then read () else .bad s ⟨2, 1, a⟩)
    else if 0x100000 ≤ a ∧ a < 0x300000 then
      let o := a - 0x100000
      if lockBase ≤ o then
        if plain ∧ size = 4 then
          let r := s.lockRead k ((o - lockBase) / 4)
          .got r.1 r.2
        else .bad s ⟨2, 1, a⟩
      else if s.bankSt (poolBank o) = 0 then read () else .bad s ⟨2, 1, a⟩
    else .bad s ⟨2, 1, a⟩

/-- A store of the low `size` bytes of a word (DEDUCED, log entry 116) (DESIGN CHOICE, log entry 219). -/
def State.cStore (s : State) (k a size v : Nat) : Mem :=
  if a % size ≠ 0 then .bad s ⟨3, 0, a⟩
  else if a < 0x10000 then .bad s ⟨2, 2, a⟩
  else if a < 0x20000 then (if s.coreOn k then .got (s.cPut k a (leBytes size v)) 0 else .bad s ⟨2, 1, a⟩)
  else if 0x100000 ≤ a ∧ a < 0x300000 then
    let o := a - 0x100000
    if lockBase ≤ o then
      if size = 4 then .got (s.lockWrite k ((o - lockBase) / 4) v) 0 else .bad s ⟨2, 1, a⟩
    else if s.bankSt (poolBank o) = 0 then .got (s.cPut k a (leBytes size v)) 0 else .bad s ⟨2, 1, a⟩
  else .bad s ⟨2, 1, a⟩

/-! ### The window (R311 to R313) -/

/-- The distance from the oldest resident bank to the one that holds v8 to v15, 1 to 15. -/
def CStatus.span (x : CStatus) : Nat := (x.cwp + 17 - x.wbot) % 16

/-- R313: 32 bytes at this address can be spilled or filled: in the data memory or the pool, and in no mirror region. -/
def State.spillOk (s : State) (k a : Nat) : Bool :=
  if 0x10000 ≤ a ∧ a + 32 ≤ 0x20000 then s.coreOn k
  else decide (0x100000 ≤ a) && decide (a + 32 ≤ 0x100000 + lockBase) && s.bankSt (poolBank (a - 0x100000)) == 0
    && !(List.range 32).any fun j => s.inMirror (a - 0x100000 + j)

/-- Spill the oldest bank. -/
def State.spill1 (s : State) (k : Nat) : State :=
  let c := s.ctxOf k
  (s.cPut k c.spillPtr (c.bankBytes c.st.wbot)).ctxUpd k fun c =>
    { c with spillPtr := c.spillPtr + 32, st := { c.st with wbot := (c.st.wbot + 1) % 16 } }

/-- Fill the bank below the oldest. -/
def State.fill1 (s : State) (k : Nat) : State :=
  let c := s.ctxOf k
  let w := (c.st.wbot + 15) % 16
  s.ctxUpd k fun c =>
    let c1 := c.setBank w (s.cBytes k (c.spillPtr - 32) 32)
    { c1 with spillPtr := c.spillPtr - 32, st := { c1.st with wbot := w } }

/-- What a run of spills or fills answers. -/
inductive Win where
  | bad (x : Exc)
  | ok (s : State)

/-- Spill `n` banks; `reserve` bytes below SPILL_LIMIT are kept (R312: 64 for a call, 0 for an entry). A call meets R312 before R313,
an entry R313 before R312. -/
def State.spills (s : State) (k reserve : Nat) : Nat → Win
  | 0 => .ok s
  | n + 1 =>
    let c := s.ctxOf k
    let full := decide (c.spillLimit < c.spillPtr + 32 + reserve) || decide (0 < reserve) && decide (c.spillLimit < c.spillBase + 64)
    let off := !s.spillOk k c.spillPtr
    if full && (decide (0 < reserve) || !off) then .bad ⟨4, 0, 0⟩
    else if off then .bad ⟨2, 8, c.spillPtr⟩
    else (s.spill1 k).spills k reserve n

/-- Fill `n` banks (DEDUCED, log entry 31). -/
def State.fills (s : State) (k : Nat) : Nat → Win
  | 0 => .ok s
  | n + 1 =>
    let c := s.ctxOf k
    if c.spillPtr < c.spillBase + 32 then .bad ⟨5, 0, 0⟩
    else if !s.spillOk k (c.spillPtr - 32) then .bad ⟨2, 8, c.spillPtr - 32⟩
    else (s.fill1 k).fills k n

/-- Slide the window forward by `n` banks; the banks newly taken into use read 0 (R310, R337). -/
def Ctx.forward (c : Ctx) (n : Nat) : Ctx :=
  let p := (c.st.cwp + n) % 16
  let c1 := { c with st := { c.st with cwp := p } }
  if n = 1 then c1.zeroBank (p + 1) else (c1.zeroBank p).zeroBank (p + 1)

/-! ### Halts (R339, R373) -/

/-- The cluster halts on an exception: R373, with CORE_EXCEPTION (R339) and CORE_HALT, or CORE_FAILED where it halts again within
the restart window (R374) (DEDUCED, log entry 64). -/
def State.haltCore (s : State) (k : Nat) (x : Exc) (pc : Nat) : State :=
  let w := causeWord false x.info x.code
  let again := (s.cluOf k).inWindow
  let s1 := s.cluUpd k fun c => { c with
    st := 3, failed := c.failed || again, inWindow := false, autoDue := s.rb Fx.ENG_CFG_AUTO_RESTART k && !c.failed && !again,
    ctx := { c.ctx with cause := w, badaddr := x.bad, wait := none } }
  let s2 := (((s1.sg .ENG_HALT_CAUSE k 0 w).sg .ENG_HALT_PC k 0 (BitVec.ofNat 32 pc)).sg .ENG_HALT_ADDR k 0
    (BitVec.ofNat 32 x.bad)).bump Fx.ENG_CNT_HALTS 1 k
  let data := x.code * 2 ^ 24 + x.info % 256 * 65536 + pc % 65536
  let s3 := (s2.post 1 0x11 k (x.code + x.info % 256 * 256) pc).tlog 0x50 2 k data
  if again then s3.tlog 0x52 2 k data else s3

/-! ### Taking an exception or interrupt (R337) -/

/-- Entry at a vector: STATUS, EPC, EREP and the loops saved, CAUSE and BADADDR written, the window slid by two banks,
STATUS.LDEPTH 0 and EXL 1. A spill that fails halts the core (R339) (DEDUCED, log entry 64). -/
def State.enter (s : State) (k : Nat) (int : Bool) (vector : Nat) (x : Exc) : State :=
  let c := s.ctxOf k
  match s.spills k 0 (c.st.span + 2 - 15) with
  | .bad y => s.haltCore k y c.pc
  | .ok s1 =>
    s1.ctxUpd k fun d =>
      let d1 := d.forward 2
      { d1 with
        est := c.st, epc := c.pc, erep := c.rep.getD 0, el0 := c.l0, el1 := c.l1,
        cause := causeWord int x.info x.code, badaddr := x.bad,
        l0 := LoopLvl.reset, l1 := LoopLvl.reset, rep := none, wait := none,
        st := { d1.st with ldepth := 0, exl := true }, pc := c.vbase + 16 * vector }

/-- An exception: it enters its vector, or halts the core when it is raised in a handler (R339). -/
def State.raise (s : State) (k : Nat) (x : Exc) : State :=
  if (s.ctxOf k).st.exl then s.haltCore k x (s.ctxOf k).pc else s.enter k false x.code x

/-- The lowest set bit of a mask of lines. -/
def lowLine (m : Nat) : Nat := ((List.range 12).find? fun i => m.testBit i).getD 0

/-- R337: at the next instruction boundary an interrupt is taken (DEDUCED, log entry 62). -/
def State.intDue (s : State) (k : Nat) : Bool := (s.ctxOf k).st.ie && !(s.ctxOf k).st.exl && s.wanted k != 0

/-- An interrupt on the lowest pending enabled line, where STATUS allows it (DEDUCED, log entry 117). -/
def State.interrupt (s : State) (k : Nat) : State :=
  if s.intDue k then
    let l := lowLine (s.wanted k)
    let s1 := s.enter k true (16 + l) ⟨16 + l, 0, 0⟩
    if l = 9 then s1.cluUpd k fun c => { c with portLine := false } else s1
  else s

/-! ### The end of an instruction (R331, R333, R334) -/

/-- One loop level meets the end of its body: its count falls, and the core continues at its start or closes it. -/
def Ctx.atEnd (c : Ctx) (l : LoopLvl) : Bool := l.isOpen && l.last == c.pc && l.cwp == c.st.cwp

/-- R331: loop-back after the instruction at `pc`, level 1 first; otherwise the next instruction (DEDUCED, log entry 72). -/
def Ctx.loopBack (c : Ctx) : Ctx :=
  let nxt := c.pc + 4
  let outer := fun (c : Ctx) =>
    if c.atEnd c.l0 then
      if c.l0.count = 1 then { c with l0 := { c.l0 with count := 0, isOpen := false }, pc := nxt }
      else { c with l0 := { c.l0 with count := c.l0.count - 1 }, pc := c.l0.start }
    else { c with pc := nxt }
  (if c.atEnd c.l1 then
    if c.l1.count = 1 then outer { c with l1 := { c.l1 with count := 0, isOpen := false } }
    else { c with l1 := { c.l1 with count := c.l1.count - 1 }, pc := c.l1.start }
  else outer c).depth

/-- An instruction, or one repetition of it, has completed in sequence. -/
def Ctx.retire (c : Ctx) : Ctx :=
  let c1 := { c with instret := c.instret + 1 }
  match c1.rep with
  | some n => if 1 < n then { c1 with rep := some (n - 1) } else { c1 with rep := none }.loopBack
  | none => c1.loopBack

/-- R333: close a level recorded at the current CWP whose body does not contain the target. -/
def Ctx.closeAway (c : Ctx) (t : Nat) : Ctx :=
  let f := fun (l : LoopLvl) =>
    if l.isOpen && l.cwp == c.st.cwp && !(decide (l.start ≤ t) && decide (t ≤ l.last)) then { l with isOpen := false } else l
  { c with l0 := f c.l0, l1 := f c.l1 }.depth

/-- R333: close every level recorded at the CWP that RET leaves. -/
def Ctx.closeFrame (c : Ctx) : Ctx :=
  let f := fun (l : LoopLvl) => if l.isOpen && l.cwp == c.st.cwp then { l with isOpen := false } else l
  { c with l0 := f c.l0, l1 := f c.l1 }.depth

/-- A transfer of control completes at `t`. -/
def Ctx.jumpTo (c : Ctx) (t : Nat) : Ctx := { c with instret := c.instret + 1, rep := none, pc := t }

/-! ### One instruction of a cluster -/

/-- What the body of an instruction answers. -/
inductive Eff where
  /-- An exception: nothing else has changed (error counters apart). -/
  | exc (s : State) (x : Exc)
  /-- It completes; the next instruction in sequence, a loop-back or a repetition follows. -/
  | done (s : State)
  /-- It completes and control has been transferred. -/
  | went (s : State)
  /-- It begins to wait. -/
  | hold (s : State)

/-- The cluster executes an instruction now: its core is present and clocked, it is RUNNING and does not wait, and no interrupt is to
be taken first (R337, log entry 62). -/
def State.coreRuns (s : State) (k : Nat) : Bool :=
  decide (k < s.variant.cores) && s.pll pllCore && (s.cluOf k).st == 1 && (s.ctxOf k).wait.isNone && !s.intDue k

/-- The instruction word at the cluster's pc. -/
def State.word (s : State) (k : Nat) : Word := BitVec.ofNat 32 (leNat (s.cBytes k (s.ctxOf k).pc 4))

/-- R332: the instruction at pc is the last of an open body at its recorded CWP. -/
def Ctx.endsBody (c : Ctx) : Bool := c.atEnd c.l0 || c.atEnd c.l1

/-- Finish an instruction by what its body answers. -/
def State.finish (k : Nat) : Eff → State
  | .exc s x => s.raise k x
  | .done s => s.ctxUpd k Ctx.retire
  | .went s => s
  | .hold s => s

/-- Cluster `k` executes the instruction at its pc. `row` is the row that the command names: where the word at pc is another
defined instruction, the command names nothing that happens and nothing changes; an undefined word traps whatever the command
names (R319) (DEDUCED, log entries 62 and 63; DESIGN CHOICE, log entry 114). -/
def State.core1 (s : State) (k : Nat) (e : CoreEcc) (row : Nat) (body : State → Word → Eff) : State :=
  if !s.coreRuns k then s
  else
    let c := s.ctxOf k
    if c.pc % 4 ≠ 0 then s.raise k ⟨3, 0, c.pc⟩
    else if 0x10000 ≤ c.pc || !s.coreOn k then s.raise k ⟨2, 1, c.pc⟩
    else if e = .fetchFail then (s.eccFail (16 + s.physOf k) c.pc).raise k ⟨7, 0, c.pc⟩
    else
      let s1 := if e = .fetchRetry then s.eccRetry (16 + s.physOf k) c.pc else s
      let w := s.word k
      match insRow w with
      | none => s1.raise k ⟨1, 0, 0⟩
      | some r =>
        if r ≠ row then s
        else if zeroBad w then s1.raise k ⟨1, 1, 0⟩
        else if loopEndBad w && c.endsBody then s1.raise k ⟨1, 3, 0⟩
        else State.finish k (body s1 w)

/-- The registers that a word names. -/
def State.ra (s : State) (k : Nat) (w : Word) : Word := (s.ctxOf k).reg (fRa w)
def State.rbv (s : State) (k : Nat) (w : Word) : Word := (s.ctxOf k).reg (fRb w)
def State.rdv (s : State) (k : Nat) (w : Word) : Word := (s.ctxOf k).reg (fRd w)

/-- Write rd. -/
def State.setRd (s : State) (k : Nat) (w : Word) (v : Word) : State := s.ctxUpd k fun c => c.setReg (fRd w) v

end Sys2Proof.Machine
end

