-- ==== Sys2Proof/Machine/Ilutas.lean ====
section
/-!
DEFINITION. The meanings of the Ilutas instructions (spec/09): arithmetic, memory, bit fields, checksums, atomics, time base
and Rill FIFO instructions, control registers, system instructions, branches, calls, loops and the repeat prefix, and the
events of a core: interrupt entry, the timer and the ends of waits. Mailbox and frame queue instructions are in Engine.
-/
namespace Sys2Proof.Machine
open Sys2Proof

/-! ### Arithmetic (Table 09-4, Table 09-5) -/

/-- A result that depends on ra and rb. -/
def aluBody (k : Nat) (f : Word → Word → Word) (s : State) (w : Word) : Eff := .done (s.setRd k w (f (s.ra k w) (s.rbv k w)))

/-- A result that depends on ra and the immediate. -/
def immBody (k : Nat) (f : Word → Nat → Word) (s : State) (w : Word) : Eff := .done (s.setRd k w (f (s.ra k w) (fImm w)))

/-- Saturation to 32 bits signed. -/
def satWord (i : Int) : Word := wordOf (sat32 i)

/-- A shift of `a` by an amount of which bits 4:0 count (R321): SHL, SHR, SAR, ROR. -/
def shiftOp (kind : Nat) (a : Word) (n : Nat) : Word :=
  match kind with
  | 0 => a <<< (n % 32)
  | 1 => a >>> (n % 32)
  | 2 => a.sshiftRight (n % 32)
  | _ => a.rotateRight (n % 32)

/-- DIV, truncated toward 0; the corners as Table 09-4 states them. -/
def divOp (a b : Word) : Word := if b = 0#32 then 0xFFFFFFFF#32 else wordOf (a.toInt.tdiv b.toInt)
/-- REM, with the sign of ra. -/
def remOp (a b : Word) : Word := if b = 0#32 then a else wordOf (a.toInt.tmod b.toInt)

/-- Leading zeros, from bit `n` - 1 down. -/
def clzFrom (a : Word) : Nat → Nat
  | 0 => 0
  | n + 1 => if a.getLsbD n then 0 else 1 + clzFrom a n

/-- Set bits below bit `n`. -/
def popFrom (a : Word) : Nat → Nat
  | 0 => 0
  | n + 1 => b2n (a.getLsbD n) + popFrom a n

/-- The four bytes reversed. -/
def rev8 (a : Word) : Word :=
  BitVec.ofNat 32 (bits a 7 0 * 2 ^ 24 + bits a 15 8 * 2 ^ 16 + bits a 23 16 * 2 ^ 8 + bits a 31 24)

/-- Bits LSB + WM1 to LSB of a word. -/
def fieldOf (a : Word) (lsb wm1 : Nat) : Nat := a.toNat / 2 ^ lsb % 2 ^ (wm1 + 1)

/-- A word with those bits replaced. -/
def fieldPut (d : Word) (lsb wm1 v : Nat) : Word := putBits d (lsb + wm1) lsb v

/-- The immediate, sign-extended. -/
def simm (w : Word) : Int := sext 16 (fImm w)

/-! ### Checksums (R323, Table 09-6) -/

/-- One bit of a reflected CRC. -/
def crcBit (poly crc : Nat) : Nat := if crc % 2 = 1 then Nat.xor (crc / 2) poly else crc / 2

/-- One byte of a reflected CRC. -/
def crcOf (poly crc b : Nat) : Nat :=
  crcBit poly (crcBit poly (crcBit poly (crcBit poly (crcBit poly (crcBit poly (crcBit poly (crcBit poly (Nat.xor crc b))))))))

/-- One byte under algorithm FN[3:0]. -/
def sumByte (alg crc b : Nat) : Nat :=
  match alg with
  | 0 => crcOf 0xEDB88320 crc b
  | 1 => crcOf 0x82F63B78 crc b
  | 2 => crcOf 0xA001 (crc % 65536) b
  | 3 => crcOf 0x8408 (crc % 65536) b
  | 4 => Nat.xor (crc % 256) b
  | _ => (crc % 256 + b) % 256

/-- `n` bytes of a value, least significant first. -/
def sumBytes (alg : Nat) : Nat → Nat → Nat → Nat
  | 0, crc, _ => crc
  | n + 1, crc, v => sumBytes alg n (sumByte alg crc (v % 256)) (v / 256)

/-- The width in bytes that FN[5:4] gives. -/
def sumWidth (w : Word) : Nat := 2 ^ (fFn w / 16)

/-- CRC: rd takes the update of ra by the low bytes of rb (DEDUCED, log entry 143). -/
def crcBody (k : Nat) (s : State) (w : Word) : Eff :=
  .done (s.setRd k w (BitVec.ofNat 32 (sumBytes (fFn w % 16) (sumWidth w) (s.ra k w).toNat (s.rbv k w).toNat)))

/-- CRCM: rd is updated by the bytes at address ra, and ra advances. -/
def crcmBody (k : Nat) (e : CoreEcc) (s : State) (w : Word) : Eff :=
  let a := (s.ra k w).toNat
  match s.cLoad k e false a (sumWidth w) with
  | .bad s x => .exc s x
  | .got s v =>
    .done (s.ctxUpd k fun c =>
      (c.setReg (fRd w) (BitVec.ofNat 32 (sumBytes (fFn w % 16) (sumWidth w) (c.reg (fRd w)).toNat v))).setReg (fRa w)
        (BitVec.ofNat 32 (a + sumWidth w)))

/-! ### Loads and stores -/

/-- The value of a load, extended: signed or not. -/
def extend (signed : Bool) (size v : Nat) : Word :=
  if signed then wordOf (sext (8 * size) v) else BitVec.ofNat 32 v

/-- LW to LBU: at ra plus the sign-extended immediate. -/
def loadBody (k : Nat) (e : CoreEcc) (size : Nat) (signed : Bool) (s : State) (w : Word) : Eff :=
  match s.cLoad k e true (addrPlus (s.ra k w).toNat (simm w)) size with
  | .bad s x => .exc s x
  | .got s v => .done (s.setRd k w (extend signed size v))

/-- SW, SH and SB. -/
def storeBody (k : Nat) (size : Nat) (s : State) (w : Word) : Eff :=
  match s.cStore k (addrPlus (s.ra k w).toNat (simm w)) size (s.rdv k w).toNat with
  | .bad s x => .exc s x
  | .got s _ => .done s

/-- The increment of MEMP: imm16[12:0], sign-extended. -/
def mempStep (w : Word) : Int := sext 13 (bits w 12 0)

/-- The loads of MEMP: at ra, which then moves. -/
def loadPBody (k : Nat) (e : CoreEcc) (size : Nat) (s : State) (w : Word) : Eff :=
  let a := (s.ra k w).toNat
  match s.cLoad k e true a size with
  | .bad s x => .exc s x
  | .got s v =>
    .done (s.ctxUpd k fun c =>
      (c.setReg (fRd w) (BitVec.ofNat 32 v)).setReg (fRa w) (BitVec.ofNat 32 (addrPlus a (mempStep w))))

/-- The stores of MEMP. -/
def storePBody (k : Nat) (size : Nat) (s : State) (w : Word) : Eff :=
  let a := (s.ra k w).toNat
  match s.cStore k a size (s.rdv k w).toNat with
  | .bad s x => .exc s x
  | .got s _ => .done (s.ctxUpd k fun c => c.setReg (fRa w) (BitVec.ofNat 32 (addrPlus a (mempStep w))))

/-- AADD and ASWP: one indivisible access to a pool word; another address gives ACCESS_FAULT INFO 0x0004, the lock range INFO
0x0001 (R369). In a mirror region of a STANDBY or SYNCING member the store part is dropped (R317). -/
def atomBody (k : Nat) (e : CoreEcc) (f : Nat → Nat → Nat) (s : State) (w : Word) : Eff :=
  let a := (s.ra k w).toNat
  if a % 4 ≠ 0 then .exc s ⟨3, 0, a⟩
  else if a < 0x100000 ∨ 0x300000 ≤ a then .exc s ⟨2, 4, a⟩
  else
    let b := (s.rbv k w).toNat
    match s.cLoad k e false a 4 with
    | .bad s x => .exc s x
    | .got s v => .done ((s.cPut k a (leBytes 4 (f v b))).setRd k w (BitVec.ofNat 32 v))

/-! ### Time base instructions (R326, R327) -/

/-- The time base that IDX names. -/
def fTb (w : Word) : Nat := fIdx w % 8

/-- R347: the cluster may adjust a time base. -/
def State.tbAllowed (s : State) (k n : Nat) : Bool := (s.rg .ENG_TB_PERM k).getLsbD n

/-- An adjustment: permitted, then done with an answer in rd. -/
def adjBody (k : Nat) (f : State → Nat → Word → State × Nat) (s : State) (w : Word) : Eff :=
  if !s.tbAllowed k (fTb w) then .exc s ⟨2, 7, 0⟩
  else
    let r := f s (fTb w) (s.ra k w)
    .done (r.1.setRd k w (BitVec.ofNat 32 r.2))

/-- TBSTEP: answer 1 where a guard refuses it (DEDUCED, log entry 65). -/
def coreStep (s : State) (n : Nat) (v : Word) : State × Nat :=
  let amt := stepAmount v.toNat 0
  (s.tbStep n amt, b2n (!(s.tbRefusers n amt).isEmpty))

/-- TBSLEW (DEDUCED, log entry 65). -/
def coreSlew (s : State) (n : Nat) (v : Word) : State × Nat := (s.tbSlew n (stepAmount v.toNat 0), 0)

/-- TBRATE: answer 2 outside the range of R213. -/
def coreRate (s : State) (n : Nat) (v : Word) : State × Nat :=
  if encBadFields .TB_RATE v then (s, 2) else (s.sg .TB_RATE n 0 v, 0)

/-- TBRD. -/
def tbrdBody (k : Nat) (s : State) (w : Word) : Eff :=
  let u := s.tbTime (fTb w)
  .done (s.ctxUpd k fun c =>
    { c.setReg (fRd w) (BitVec.ofNat 32 (u / unitsPerNs)) with
      tbns := BitVec.ofNat 32 (tbNsOf u), tbfrac := BitVec.ofNat 32 (tbFrac u),
      tbsecLo := BitVec.ofNat 32 (tbSec u), tbsecHi := BitVec.ofNat 32 (tbSec u / 2 ^ 32) })

/-- TBWAIT: done at once at a distance of 0 or less, or with TO when the time base is out of service. -/
def tbwaitBody (k : Nat) (s : State) (w : Word) : Eff :=
  let n := fTb w
  let t := extendNs (s.tbNs n) (s.ra k w).toNat
  if s.tbOos n then .done (s.ctxUpd k fun c => c.setTo true)
  else if t ≤ Int.ofNat (s.tbNs n) then .done (s.ctxUpd k fun c => c.setTo false)
  else .hold (s.ctxUpd k fun c => { c with wait := some (.tb n t) })

/-! ### Rill FIFO instructions (R328) -/

/-- The engine is present and its group is bound to the cluster (R324, R346). -/
def State.rillAllowed (s : State) (k e : Nat) : Bool := decide (e < s.variant.engines) && s.boundEngine k e

/-- A push into the FIFO toward the engine, tagged with the last tick (R394). -/
def State.rillPush (s : State) (e : Nat) (v : Word) : State := s.rilUpd e fun r => { r with tx := r.tx ++ [(v, s.cyc.ticks)] }

/-- RFPUSH. -/
def rfpushBody (k : Nat) (s : State) (w : Word) : Eff :=
  let e := fIdx w
  if !s.rillAllowed k e then .exc s ⟨2, 6, 0⟩
  else if (s.rilOf e).tx.length < 4 then .done ((s.rillPush e (s.ra k w)).ctxUpd k fun c => c.setTo false)
  else if (s.ctxOf k).fifoTo = 0 then .done (s.ctxUpd k fun c => c.setTo true)
  else .hold (s.ctxUpd k fun c => { c with wait := some (.push e (c.reg (fRa w))) })

/-- RFPOP. -/
def rfpopBody (k : Nat) (s : State) (w : Word) : Eff :=
  let e := fIdx w
  if !s.rillAllowed k e then .exc s ⟨2, 6, 0⟩
  else
    match (s.rilOf e).rx with
    | v :: t => .done (((s.rilUpd e fun r => { r with rx := t }).setRd k w v).ctxUpd k fun c => c.setTo false)
    | [] =>
      if (s.ctxOf k).fifoTo = 0 then .done (s.ctxUpd k fun c => c.setTo true)
      else .hold (s.ctxUpd k fun c => { c with wait := some (.pop e (fRd w)) })

/-- RFLVL. -/
def rflvlBody (k : Nat) (s : State) (w : Word) : Eff :=
  let e := fIdx w
  if !s.rillAllowed k e then .exc s ⟨2, 6, 0⟩
  else .done (s.setRd k w (BitVec.ofNat 32 ((s.rilOf e).rx.length * 256 + (4 - (s.rilOf e).tx.length))))

/-! ### Control and status registers (R340, Table 09-10) -/

/-- The core clocks and instructions completed, 64 bits (DESIGN CHOICE, log entry 115). -/
def Ctx.cycles (c : Ctx) : Nat := c.clk5 / 5 % 2 ^ 64

/-- The value of a CSR; `none` where the number is undefined. -/
def State.csrRead (s : State) (k n : Nat) : Option Word :=
  let c := s.ctxOf k
  let nat := fun (v : Nat) => some (BitVec.ofNat 32 v)
  match n with
  | 0x000 => some c.st.word
  | 0x001 => some c.est.word
  | 0x002 => nat c.epc
  | 0x003 => some c.cause
  | 0x004 => nat c.badaddr
  | 0x005 => nat c.vbase
  | 0x006 => nat c.imask
  | 0x007 => nat (s.ipend k)
  | 0x008 => nat c.erep
  | 0x009 => nat c.timer
  | 0x010 => nat c.l0.count
  | 0x011 => some (c.l0.word c.l0.start)
  | 0x012 => some (c.l0.word c.l0.last)
  | 0x013 => nat c.l1.count
  | 0x014 => some (c.l1.word c.l1.start)
  | 0x015 => some (c.l1.word c.l1.last)
  | 0x018 => nat c.el0.count
  | 0x019 => some (c.el0.word c.el0.start)
  | 0x01A => some (c.el0.word c.el0.last)
  | 0x01B => nat c.el1.count
  | 0x01C => some (c.el1.word c.el1.start)
  | 0x01D => some (c.el1.word c.el1.last)
  | 0x020 => nat c.spillBase
  | 0x021 => nat c.spillLimit
  | 0x022 => nat c.spillPtr
  | 0x030 => some c.mbtag
  | 0x031 => some c.tbns
  | 0x032 => some c.tbfrac
  | 0x033 => some c.tbsecLo
  | 0x034 => some c.tbsecHi
  | 0x038 => nat c.fifoTo
  | 0x039 => nat c.waitTo
  | 0x040 => nat c.cycles
  | 0x041 => nat c.clkHi
  | 0x042 => nat c.instret
  | 0x043 => nat c.insHi
  | 0x0F0 => nat (s.physOf k)
  | 0x0F1 => nat k
  | 0xF00 => some 0x01000000#32
  | 0xF01 => some 0x000000FF#32
  | 0xF02 => some 0x404010C8#32
  | _ => none

/-- What a read of CYCLE_LO or INSTRET_LO latches. -/
def Ctx.csrLatch (c : Ctx) (n : Nat) : Ctx :=
  match n with
  | 0x040 => { c with clkHi := c.cycles / 2 ^ 32 }
  | 0x042 => { c with insHi := c.instret / 2 ^ 32 % 2 ^ 32 }
  | _ => c

/-- The bits of a writable CSR that are not reserved; `none` for one that is read-only. -/
def csrMask (n : Nat) : Option Word :=
  match n with
  | 0x000 => some 0x000FFC07#32
  | 0x005 => some 0x0000FE00#32
  | 0x006 => some 0x00000FFF#32
  | 0x007 => some 0x00000FFF#32
  | 0x009 => some 0xFFFFFFFF#32
  | 0x020 => some 0xFFFFFFE0#32
  | 0x021 => some 0xFFFFFFE0#32
  | 0x038 => some 0x0000FFFF#32
  | 0x039 => some 0x000FFFFF#32
  | _ => none

/-- The INFO with which a CSR write traps, when it does: a read-only CSR and a SPILL_BASE that the spill pointer has left 0x0004,
a reserved bit or value 0x0005. -/
def Ctx.csrBad (c : Ctx) (n : Nat) (v : Word) : Option Nat :=
  match csrMask n with
  | none => some 4
  | some m =>
    if n = 0x020 ∧ c.spillPtr ≠ c.spillBase then some 4
    else if v &&& ~~~m ≠ 0#32 ∨ (n = 0x039 ∧ (v.toNat = 0 ∨ 1000000 < v.toNat)) then some 5
    else none

/-- The effect of a CSR write; of STATUS only TO and IE, of IPEND only the latched lines. -/
def Ctx.csrWrite (c : Ctx) (n : Nat) (v : Word) : Ctx :=
  let x := v.toNat
  match n with
  | 0x000 => { c with st := { c.st with timedOut := v.getLsbD 2, ie := v.getLsbD 0 } }
  | 0x005 => { c with vbase := x }
  | 0x006 => { c with imask := x }
  | 0x007 => { c with latched := Nat.land x 0xC07 }
  | 0x009 => { c with timer := x }
  | 0x020 => { c with spillBase := x, spillPtr := x }
  | 0x021 => { c with spillLimit := x }
  | 0x038 => { c with fifoTo := x }
  | 0x039 => { c with waitTo := x }
  | _ => c

/-- CRD. -/
def crdBody (k : Nat) (s : State) (w : Word) : Eff :=
  match s.csrRead k (fCsr w) with
  | none => .exc s ⟨1, 4, 0⟩
  | some v => .done (s.ctxUpd k fun c => (c.csrLatch (fCsr w)).setReg (fRd w) v)

/-- CWR, CSET and CCLR: rd takes the CSR, then the CSR takes `f` of it and ra. -/
def csrBody (k : Nat) (f : Word → Word → Word) (s : State) (w : Word) : Eff :=
  let n := fCsr w
  match s.csrRead k n with
  | none => .exc s ⟨1, 4, 0⟩
  | some v =>
    let x := f v (s.ra k w)
    match (s.ctxOf k).csrBad n x with
    | some i => .exc s ⟨1, i, 0⟩
    | none =>
      let s1 := s.ctxUpd k fun c => (c.csrWrite n x).setReg (fRd w) v
      -- R350: firmware that clears bit 0 of IPEND has completed its cycle work
      .done (if n = 0x007 ∧ v.getLsbD 0 ∧ ¬ x.getLsbD 0 then s1.wdgCluster k else s1)

/-! ### System instructions (Table 09-7) -/

/-- WAIT: done at once where an enabled line is pending. -/
def waitBody (k : Nat) (s : State) (_w : Word) : Eff :=
  if s.wanted k ≠ 0 then .done (s.ctxUpd k fun c => c.setTo false)
  else .hold (s.ctxUpd k fun c => { c with wait := some .wait })

/-- RETI: R338. The window is filled back to the banks that were resident at the entry (log entry 31); a fill that fails halts
the core (R339). -/
def retiBody (k : Nat) (s : State) (_w : Word) : Eff :=
  let c := s.ctxOf k
  if !c.st.exl then .exc s ⟨1, 6, 0⟩
  else
    let back := (c.st.cwp + 16 - c.est.cwp) % 16
    match s.fills k (back + c.est.span - c.st.span) with
    | .bad x => .exc s x
    | .ok s1 =>
      .went (s1.ctxUpd k fun d =>
        { d with
          st := { c.est with timedOut := d.st.timedOut, wbot := d.st.wbot }, l0 := d.el0, l1 := d.el1,
          instret := d.instret + 1, pc := d.epc, rep := if d.erep = 0 then none else some d.erep })

/-! ### Branches, jumps and calls (R310, R320, R322) -/

/-- A branch, jump or call to `t`, or ACCESS_FAULT INFO 0x0003 outside the instruction memory. -/
def State.transfer (s : State) (t : Nat) (go : State → Nat → Eff) : Eff :=
  if 0x10000 ≤ t then .exc s ⟨2, 3, t⟩ else go s t

/-- A taken branch or jump. -/
def jumpEff (k : Nat) (s : State) (t : Nat) : Eff := .went (s.ctxUpd k fun c => (c.closeAway t).jumpTo t)

/-- The target of a relative transfer. -/
def State.target (s : State) (k n v : Nat) : Nat := addrPlus (s.ctxOf k).pc (4 * sext n v)

/-- A branch on a condition. -/
def branchBody (k : Nat) (cond : State → Word → Bool) (s : State) (w : Word) : Eff :=
  if cond s w then s.transfer (s.target k 13 (bits w 12 0)) (jumpEff k) else .done s

/-- The comparisons of COND 0b000 to 0b101. -/
def compareOp (c : Nat) (a b : Word) : Bool :=
  match c with
  | 0 => a == b
  | 1 => a != b
  | 2 => decide (a.toInt < b.toInt)
  | 3 => decide (b.toInt ≤ a.toInt)
  | 4 => decide (a.toNat < b.toNat)
  | _ => decide (b.toNat ≤ a.toNat)

/-- BCC: ra in bits 25:21, rb in bits 20:16. -/
def bccCond (k : Nat) (s : State) (w : Word) : Bool :=
  let c := bits w 15 13
  if c = 6 then (s.ctxOf k).st.timedOut else if c = 7 then !(s.ctxOf k).st.timedOut else compareOp c (s.rdv k w) (s.ra k w)

/-- BCCI: imm5 in bits 20:16, sign-extended for COND 0b000 to 0b011. -/
def bcciCond (k : Nat) (s : State) (w : Word) : Bool :=
  let c := bits w 15 13
  let i := bits w 20 16
  let a := s.rdv k w
  if c = 6 then a.getLsbD i else if c = 7 then !a.getLsbD i
  else compareOp c a (if c ≤ 3 then wordOf (sext 5 i) else BitVec.ofNat 32 i)

/-- A call to `t`: the window slides by one bank, v7 takes the return address, v8 to v15 read 0 (R310). -/
def callEff (k : Nat) (s : State) (t : Nat) : Eff :=
  let c := s.ctxOf k
  match s.spills k 64 (c.st.span + 1 - 15) with
  | .bad x => .exc s x
  | .ok s1 => .went (s1.ctxUpd k fun d => ((d.forward 1).setReg 23 (BitVec.ofNat 32 (c.pc + 4))).jumpTo t)

/-- RET: the window slides back by one bank and execution continues at v7. R320 names branches, jumps and calls only: where v7 does not
address the instruction memory, the fetch there faults (R314). -/
def retBody (k : Nat) (s : State) (_w : Word) : Eff :=
  let c := s.ctxOf k
  match s.fills k (2 - c.st.span) with
  | .bad x => .exc s x
  | .ok s1 => .went (s1.ctxUpd k fun d =>
      let d1 := d.closeFrame
      { d1 with st := { d1.st with cwp := (d1.st.cwp + 15) % 16 } }.jumpTo (c.reg 23).toNat)

/-! ### Loops and the repeat prefix (R330 to R335) -/

/-- A level with this count and body. -/
def Ctx.openLoop (c : Ctx) (n last : Nat) : Ctx :=
  let l : LoopLvl := ⟨n, c.pc + 4, last, c.st.cwp, true⟩
  (if c.l0.isOpen then { c with l1 := l } else { c with l0 := l }).depth

/-- LOOP and LOOPI with a count. A body beyond the instruction memory is ILLEGAL_OPCODE (log entry 32) (DEDUCED, log entry 73). -/
def loopBody (k : Nat) (count : State → Word → Nat) (s : State) (w : Word) : Eff :=
  let c := s.ctxOf k
  let last := c.pc + 4 + 4 * bits w 11 0
  let n := count s w
  if 0x10000 ≤ last then .exc s ⟨1, 0, 0⟩
  else if c.l0.isOpen && c.l1.isOpen then .exc s ⟨6, 0, 0⟩
  else if n = 0 then .went (s.ctxUpd k fun c => c.jumpTo (last + 4))
  else .done (s.ctxUpd k fun c => c.openLoop n last)

/-- REP and REPI: the next instruction is run that many times, a count of 0 skips it (R334, R335) (DEDUCED, log entry 72). -/
def repBody (k : Nat) (count : State → Word → Nat) (s : State) (w : Word) : Eff :=
  let c := s.ctxOf k
  let next : Word := BitVec.ofNat 32 (leNat (s.cBytes k (c.pc + 4) 4))
  let n := count s w
  if 0x10000 ≤ c.pc + 4 || !repeatable next then .exc s ⟨1, 2, 0⟩
  else if n = 0 then .went (s.ctxUpd k fun c => ({ c with instret := c.instret + 1, pc := c.pc + 4 } : Ctx).loopBack)
  else .went (s.ctxUpd k fun c => { c with instret := c.instret + 1, pc := c.pc + 4, rep := some n })

/-- The count in ra. -/
def raCount (k : Nat) (s : State) (w : Word) : Nat := (s.ra k w).toNat

/-! ### The meanings -/


/-- ADD: Table 09-4, FN 0x00. -/
def execAdd (k : Fin 16) (e : CoreEcc) (s : State) : Out State :=
  .next (s.core1 k e 0x000 (aluBody k.val (fun a b => a + b)))

/-- SUB: Table 09-4, FN 0x01. -/
def execSub (k : Fin 16) (e : CoreEcc) (s : State) : Out State :=
  .next (s.core1 k e 0x001 (aluBody k.val (fun a b => a - b)))

/-- AND: Table 09-4, FN 0x02. -/
def execAnd (k : Fin 16) (e : CoreEcc) (s : State) : Out State :=
  .next (s.core1 k e 0x002 (aluBody k.val (fun a b => a &&& b)))

/-- OR: Table 09-4, FN 0x03. -/
def execOr (k : Fin 16) (e : CoreEcc) (s : State) : Out State :=
  .next (s.core1 k e 0x003 (aluBody k.val (fun a b => a ||| b)))

/-- XOR: Table 09-4, FN 0x04. -/
def execXor (k : Fin 16) (e : CoreEcc) (s : State) : Out State :=
  .next (s.core1 k e 0x004 (aluBody k.val (fun a b => a ^^^ b)))

/-- ANDN: Table 09-4, FN 0x05. -/
def execAndn (k : Fin 16) (e : CoreEcc) (s : State) : Out State :=
  .next (s.core1 k e 0x005 (aluBody k.val (fun a b => a &&& ~~~b)))

/-- SHL: Table 09-4, FN 0x06. -/
def execShl (k : Fin 16) (e : CoreEcc) (s : State) : Out State :=
  .next (s.core1 k e 0x006 (aluBody k.val (fun a b => shiftOp 0 a b.toNat)))

/-- SHR: Table 09-4, FN 0x07. -/
def execShr (k : Fin 16) (e : CoreEcc) (s : State) : Out State :=
  .next (s.core1 k e 0x007 (aluBody k.val (fun a b => shiftOp 1 a b.toNat)))

/-- SAR: Table 09-4, FN 0x08. -/
def execSar (k : Fin 16) (e : CoreEcc) (s : State) : Out State :=
  .next (s.core1 k e 0x008 (aluBody k.val (fun a b => shiftOp 2 a b.toNat)))

/-- ROR: Table 09-4, FN 0x09. -/
def execRor (k : Fin 16) (e : CoreEcc) (s : State) : Out State :=
  .next (s.core1 k e 0x009 (aluBody k.val (fun a b => shiftOp 3 a b.toNat)))

/-- SLT: Table 09-4, FN 0x0A. -/
def execSlt (k : Fin 16) (e : CoreEcc) (s : State) : Out State :=
  .next (s.core1 k e 0x00A (aluBody k.val (fun a b => BitVec.ofNat 32 (b2n (decide (a.toInt < b.toInt))))))

/-- SLTU: Table 09-4, FN 0x0B. -/
def execSltu (k : Fin 16) (e : CoreEcc) (s : State) : Out State :=
  .next (s.core1 k e 0x00B (aluBody k.val (fun a b => BitVec.ofNat 32 (b2n (decide (a.toNat < b.toNat))))))

/-- MIN: Table 09-4, FN 0x0C. -/
def execMin (k : Fin 16) (e : CoreEcc) (s : State) : Out State :=
  .next (s.core1 k e 0x00C (aluBody k.val (fun a b => if a.toInt ≤ b.toInt then a else b)))

/-- MAX: Table 09-4, FN 0x0D. -/
def execMax (k : Fin 16) (e : CoreEcc) (s : State) : Out State :=
  .next (s.core1 k e 0x00D (aluBody k.val (fun a b => if a.toInt ≤ b.toInt then b else a)))

/-- MINU: Table 09-4, FN 0x0E. -/
def execMinu (k : Fin 16) (e : CoreEcc) (s : State) : Out State :=
  .next (s.core1 k e 0x00E (aluBody k.val (fun a b => if a.toNat ≤ b.toNat then a else b)))

/-- MAXU: Table 09-4, FN 0x0F. -/
def execMaxu (k : Fin 16) (e : CoreEcc) (s : State) : Out State :=
  .next (s.core1 k e 0x00F (aluBody k.val (fun a b => if a.toNat ≤ b.toNat then b else a)))

/-- MUL: Table 09-4, FN 0x10. -/
def execMul (k : Fin 16) (e : CoreEcc) (s : State) : Out State :=
  .next (s.core1 k e 0x010 (aluBody k.val (fun a b => a * b)))

/-- MULH: Table 09-4, FN 0x11. -/
def execMulh (k : Fin 16) (e : CoreEcc) (s : State) : Out State :=
  .next (s.core1 k e 0x011 (aluBody k.val (fun a b => wordOf (a.toInt * b.toInt / 4294967296))))

/-- MULHU: Table 09-4, FN 0x12. -/
def execMulhu (k : Fin 16) (e : CoreEcc) (s : State) : Out State :=
  .next (s.core1 k e 0x012 (aluBody k.val (fun a b => BitVec.ofNat 32 (a.toNat * b.toNat / 4294967296))))

/-- DIV: Table 09-4, FN 0x13. -/
def execDiv (k : Fin 16) (e : CoreEcc) (s : State) : Out State :=
  .next (s.core1 k e 0x013 (aluBody k.val divOp))

/-- DIVU: Table 09-4, FN 0x14. -/
def execDivu (k : Fin 16) (e : CoreEcc) (s : State) : Out State :=
  .next (s.core1 k e 0x014 (aluBody k.val (fun a b => if b = 0#32 then 0xFFFFFFFF#32 else BitVec.ofNat 32 (a.toNat / b.toNat))))

/-- REM: Table 09-4, FN 0x15. -/
def execRem (k : Fin 16) (e : CoreEcc) (s : State) : Out State :=
  .next (s.core1 k e 0x015 (aluBody k.val remOp))

/-- REMU: Table 09-4, FN 0x16. -/
def execRemu (k : Fin 16) (e : CoreEcc) (s : State) : Out State :=
  .next (s.core1 k e 0x016 (aluBody k.val (fun a b => if b = 0#32 then a else BitVec.ofNat 32 (a.toNat % b.toNat))))

/-- CLZ: Table 09-4, FN 0x18. -/
def execClz (k : Fin 16) (e : CoreEcc) (s : State) : Out State :=
  .next (s.core1 k e 0x018 (aluBody k.val (fun a _ => BitVec.ofNat 32 (clzFrom a 32))))

/-- POPC: Table 09-4, FN 0x19. -/
def execPopc (k : Fin 16) (e : CoreEcc) (s : State) : Out State :=
  .next (s.core1 k e 0x019 (aluBody k.val (fun a _ => BitVec.ofNat 32 (popFrom a 32))))

/-- REV8: Table 09-4, FN 0x1A. -/
def execRev8 (k : Fin 16) (e : CoreEcc) (s : State) : Out State :=
  .next (s.core1 k e 0x01A (aluBody k.val (fun a _ => rev8 a)))

/-- SEXTB: Table 09-4, FN 0x1B. -/
def execSextb (k : Fin 16) (e : CoreEcc) (s : State) : Out State :=
  .next (s.core1 k e 0x01B (aluBody k.val (fun a _ => wordOf (sext 8 a.toNat))))

/-- SEXTH: Table 09-4, FN 0x1C. -/
def execSexth (k : Fin 16) (e : CoreEcc) (s : State) : Out State :=
  .next (s.core1 k e 0x01C (aluBody k.val (fun a _ => wordOf (sext 16 a.toNat))))

/-- MULQ: Table 09-4, FN 0x20. -/
def execMulq (k : Fin 16) (e : CoreEcc) (s : State) : Out State :=
  .next (s.core1 k e 0x020 (aluBody k.val (fun a b => satWord (a.toInt * b.toInt / 65536))))

/-- SADD: Table 09-4, FN 0x21. -/
def execSadd (k : Fin 16) (e : CoreEcc) (s : State) : Out State :=
  .next (s.core1 k e 0x021 (aluBody k.val (fun a b => satWord (a.toInt + b.toInt))))

/-- SSUB: Table 09-4, FN 0x22. -/
def execSsub (k : Fin 16) (e : CoreEcc) (s : State) : Out State :=
  .next (s.core1 k e 0x022 (aluBody k.val (fun a b => satWord (a.toInt - b.toInt))))
/-- ADDI: Table 09-5. -/
def execAddi (k : Fin 16) (e : CoreEcc) (s : State) : Out State :=
  .next (s.core1 k e 0x040 (immBody k.val (fun a i => a + wordOf (sext 16 i))))
/-- ANDI: Table 09-5. -/
def execAndi (k : Fin 16) (e : CoreEcc) (s : State) : Out State :=
  .next (s.core1 k e 0x080 (immBody k.val (fun a i => a &&& BitVec.ofNat 32 i)))
/-- ORI: Table 09-5. -/
def execOri (k : Fin 16) (e : CoreEcc) (s : State) : Out State :=
  .next (s.core1 k e 0x0C0 (immBody k.val (fun a i => a ||| BitVec.ofNat 32 i)))
/-- XORI: Table 09-5. -/
def execXori (k : Fin 16) (e : CoreEcc) (s : State) : Out State :=
  .next (s.core1 k e 0x100 (immBody k.val (fun a i => a ^^^ BitVec.ofNat 32 i)))
/-- LIH: Table 09-5. -/
def execLih (k : Fin 16) (e : CoreEcc) (s : State) : Out State :=
  .next (s.core1 k e 0x140 (immBody k.val (fun _ i => BitVec.ofNat 32 (i * 65536))))
/-- SHI: Table 09-5. -/
def execShi (k : Fin 16) (e : CoreEcc) (s : State) : Out State :=
  .next (s.core1 k e 0x180 (immBody k.val (fun a i => shiftOp (i / 16384) a i)))
/-- SLTI: Table 09-5. -/
def execSlti (k : Fin 16) (e : CoreEcc) (s : State) : Out State :=
  .next (s.core1 k e 0x1C0 (immBody k.val (fun a i => BitVec.ofNat 32 (b2n (decide (a.toInt < sext 16 i))))))
/-- LW: Table 09-5. -/
def execLw (k : Fin 16) (e : CoreEcc) (s : State) : Out State :=
  .next (s.core1 k e 0x200 (loadBody k.val e 4 false))
/-- LH: Table 09-5. -/
def execLh (k : Fin 16) (e : CoreEcc) (s : State) : Out State :=
  .next (s.core1 k e 0x240 (loadBody k.val e 2 true))
/-- LHU: Table 09-5. -/
def execLhu (k : Fin 16) (e : CoreEcc) (s : State) : Out State :=
  .next (s.core1 k e 0x280 (loadBody k.val e 2 false))
/-- LB: Table 09-5. -/
def execLb (k : Fin 16) (e : CoreEcc) (s : State) : Out State :=
  .next (s.core1 k e 0x2C0 (loadBody k.val e 1 true))
/-- LBU: Table 09-5. -/
def execLbu (k : Fin 16) (e : CoreEcc) (s : State) : Out State :=
  .next (s.core1 k e 0x300 (loadBody k.val e 1 false))
/-- SW: Table 09-5. -/
def execSw (k : Fin 16) (e : CoreEcc) (s : State) : Out State :=
  .next (s.core1 k e 0x340 (storeBody k.val 4))
/-- SH: Table 09-5. -/
def execSh (k : Fin 16) (e : CoreEcc) (s : State) : Out State :=
  .next (s.core1 k e 0x380 (storeBody k.val 2))
/-- SB: Table 09-5. -/
def execSb (k : Fin 16) (e : CoreEcc) (s : State) : Out State :=
  .next (s.core1 k e 0x3C0 (storeBody k.val 1))
/-- LWP: MEMP KIND 0. -/
def execLwp (k : Fin 16) (e : CoreEcc) (s : State) : Out State :=
  .next (s.core1 k e 0x400 (loadPBody k.val e 4))
/-- LHUP: MEMP KIND 1. -/
def execLhup (k : Fin 16) (e : CoreEcc) (s : State) : Out State :=
  .next (s.core1 k e 0x401 (loadPBody k.val e 2))
/-- LBUP: MEMP KIND 2. -/
def execLbup (k : Fin 16) (e : CoreEcc) (s : State) : Out State :=
  .next (s.core1 k e 0x402 (loadPBody k.val e 1))
/-- SWP: MEMP KIND 3. -/
def execSwp (k : Fin 16) (e : CoreEcc) (s : State) : Out State :=
  .next (s.core1 k e 0x403 (storePBody k.val 4))
/-- SHP: MEMP KIND 4. -/
def execShp (k : Fin 16) (e : CoreEcc) (s : State) : Out State :=
  .next (s.core1 k e 0x404 (storePBody k.val 2))
/-- SBP: MEMP KIND 5. -/
def execSbp (k : Fin 16) (e : CoreEcc) (s : State) : Out State :=
  .next (s.core1 k e 0x405 (storePBody k.val 1))
/-- BFXU. -/
def execBfxu (k : Fin 16) (e : CoreEcc) (s : State) : Out State :=
  .next (s.core1 k e 0x440 (fun s w => .done (s.setRd k w (BitVec.ofNat 32 (fieldOf (s.ra k w) (fLsb w) (fWm1 w))))))
/-- BFXS. -/
def execBfxs (k : Fin 16) (e : CoreEcc) (s : State) : Out State :=
  .next (s.core1 k e 0x441 (fun s w => .done (s.setRd k w (wordOf (sext (fWm1 w + 1) (fieldOf (s.ra k w) (fLsb w) (fWm1 w)))))))
/-- BFI. -/
def execBfi (k : Fin 16) (e : CoreEcc) (s : State) : Out State :=
  .next (s.core1 k e 0x442 (fun s w => .done (s.setRd k w (fieldPut (s.rdv k w) (fLsb w) (fWm1 w) (s.ra k w).toNat))))
/-- BFCLR. -/
def execBfclr (k : Fin 16) (e : CoreEcc) (s : State) : Out State :=
  .next (s.core1 k e 0x443 (fun s w => .done (s.setRd k w (fieldPut (s.ra k w) (fLsb w) (fWm1 w) 0))))
/-- CRC: R323. -/
def execCrc (k : Fin 16) (e : CoreEcc) (s : State) : Out State :=
  .next (s.core1 k e 0x480 (crcBody k.val))
/-- CRCM: R323. -/
def execCrcm (k : Fin 16) (e : CoreEcc) (s : State) : Out State :=
  .next (s.core1 k e 0x4C0 (crcmBody k.val e))
/-- AADD: Table 09-5, R488. -/
def execAadd (k : Fin 16) (e : CoreEcc) (s : State) : Out State :=
  .next (s.core1 k e 0x500 (atomBody k.val e fun v b => v + b))
/-- ASWP: Table 09-5, R488. -/
def execAswp (k : Fin 16) (e : CoreEcc) (s : State) : Out State :=
  .next (s.core1 k e 0x501 (atomBody k.val e fun _ b => b))
/-- TBRD: R326. -/
def execTbrd (k : Fin 16) (e : CoreEcc) (s : State) : Out State :=
  .next (s.core1 k e 0x580 (tbrdBody k.val))
/-- TBSTEP: R326. -/
def execTbstep (k : Fin 16) (e : CoreEcc) (s : State) : Out State :=
  .next (s.core1 k e 0x581 (adjBody k.val coreStep))
/-- TBSLEW: R326. -/
def execTbslew (k : Fin 16) (e : CoreEcc) (s : State) : Out State :=
  .next (s.core1 k e 0x582 (adjBody k.val coreSlew))
/-- TBRATE: R326. -/
def execTbrate (k : Fin 16) (e : CoreEcc) (s : State) : Out State :=
  .next (s.core1 k e 0x583 (adjBody k.val coreRate))
/-- TBWAIT: R327. -/
def execTbwait (k : Fin 16) (e : CoreEcc) (s : State) : Out State :=
  .next (s.core1 k e 0x584 (tbwaitBody k.val))
/-- RFPUSH: R328. -/
def execRfpush (k : Fin 16) (e : CoreEcc) (s : State) : Out State :=
  .next (s.core1 k e 0x5C0 (rfpushBody k.val))
/-- RFPOP: R328. -/
def execRfpop (k : Fin 16) (e : CoreEcc) (s : State) : Out State :=
  .next (s.core1 k e 0x5C1 (rfpopBody k.val))
/-- RFLVL: R328. -/
def execRflvl (k : Fin 16) (e : CoreEcc) (s : State) : Out State :=
  .next (s.core1 k e 0x5C2 (rflvlBody k.val))
/-- CRD: R340. -/
def execCrd (k : Fin 16) (e : CoreEcc) (s : State) : Out State :=
  .next (s.core1 k e 0x640 (crdBody k.val))
/-- CWR: R340. -/
def execCwr (k : Fin 16) (e : CoreEcc) (s : State) : Out State :=
  .next (s.core1 k e 0x641 (csrBody k.val fun _ a => a))
/-- CSET: R340. -/
def execCset (k : Fin 16) (e : CoreEcc) (s : State) : Out State :=
  .next (s.core1 k e 0x642 (csrBody k.val fun v a => v ||| a))
/-- CCLR: R340. -/
def execCclr (k : Fin 16) (e : CoreEcc) (s : State) : Out State :=
  .next (s.core1 k e 0x643 (csrBody k.val fun v a => v &&& ~~~a))
/-- NOP. -/
def execNop (k : Fin 16) (e : CoreEcc) (s : State) : Out State :=
  .next (s.core1 k e 0x680 (fun s _ => .done s))
/-- FENCE: every earlier load and store has been served, since the model serves each at its instruction (R316)
(DESIGN CHOICE, log entry 219). -/
def execFence (k : Fin 16) (e : CoreEcc) (s : State) : Out State :=
  .next (s.core1 k e 0x681 (fun s _ => .done s))
/-- WAIT. -/
def execWait (k : Fin 16) (e : CoreEcc) (s : State) : Out State :=
  .next (s.core1 k e 0x682 (waitBody k.val))
/-- ECALL: the exception with CODE in CAUSE.INFO. -/
def execEcall (k : Fin 16) (e : CoreEcc) (s : State) : Out State :=
  .next (s.core1 k e 0x683 (fun s w => .exc s ⟨8, bits w 25 10, 0⟩))
/-- BREAK. -/
def execBreak (k : Fin 16) (e : CoreEcc) (s : State) : Out State :=
  .next (s.core1 k e 0x684 (fun s _ => .exc s ⟨9, 0, 0⟩))
/-- RETI: R338. -/
def execReti (k : Fin 16) (e : CoreEcc) (s : State) : Out State :=
  .next (s.core1 k e 0x685 (retiBody k.val))
/-- EI. -/
def execEi (k : Fin 16) (e : CoreEcc) (s : State) : Out State :=
  .next (s.core1 k e 0x686 (fun s _ => .done (s.ctxUpd k fun c => { c with st := { c.st with ie := true } })))
/-- DI. -/
def execDi (k : Fin 16) (e : CoreEcc) (s : State) : Out State :=
  .next (s.core1 k e 0x687 (fun s _ => .done (s.ctxUpd k fun c => { c with st := { c.st with ie := false } })))
/-- BCC: R322. -/
def execBcc (k : Fin 16) (e : CoreEcc) (s : State) : Out State :=
  .next (s.core1 k e 0x800 (branchBody k.val (bccCond k.val)))
/-- BCCI: R322. -/
def execBcci (k : Fin 16) (e : CoreEcc) (s : State) : Out State :=
  .next (s.core1 k e 0x840 (branchBody k.val (bcciCond k.val)))
/-- J: R320. -/
def execJ (k : Fin 16) (e : CoreEcc) (s : State) : Out State :=
  .next (s.core1 k e 0x880 (fun s w => s.transfer (s.target k 26 (bits w 25 0)) (jumpEff k.val)))
/-- CALL: R310. -/
def execCall (k : Fin 16) (e : CoreEcc) (s : State) : Out State :=
  .next (s.core1 k e 0x8C0 (fun s w => s.transfer (s.target k 26 (bits w 25 0)) (callEff k.val)))
/-- JR. -/
def execJr (k : Fin 16) (e : CoreEcc) (s : State) : Out State :=
  .next (s.core1 k e 0x900 (fun s w => s.transfer (s.ra k w).toNat (jumpEff k.val)))
/-- CALLR: ra is read before the slide. -/
def execCallr (k : Fin 16) (e : CoreEcc) (s : State) : Out State :=
  .next (s.core1 k e 0x901 (fun s w => s.transfer (s.ra k w).toNat (callEff k.val)))
/-- RET: R310. -/
def execRet (k : Fin 16) (e : CoreEcc) (s : State) : Out State :=
  .next (s.core1 k e 0x902 (retBody k.val))
/-- LOOP: R330. -/
def execLoop (k : Fin 16) (e : CoreEcc) (s : State) : Out State :=
  .next (s.core1 k e 0xA00 (loopBody k.val (raCount k.val)))
/-- LOOPI: R330. -/
def execLoopi (k : Fin 16) (e : CoreEcc) (s : State) : Out State :=
  .next (s.core1 k e 0xA40 (loopBody k.val fun _ w => bits w 25 14))
/-- REP: R334. -/
def execRep (k : Fin 16) (e : CoreEcc) (s : State) : Out State :=
  .next (s.core1 k e 0xA80 (repBody k.val (raCount k.val)))
/-- REPI: R334. -/
def execRepi (k : Fin 16) (e : CoreEcc) (s : State) : Out State :=
  .next (s.core1 k e 0xAC0 (repBody k.val fun _ w => bits w 11 0))

/-! ### Events of a core -/

/-- INTERRUPT_ENTRY: at an instruction boundary, or in a wait, which ends for it (R337). A WAIT has then ended on the line
(DEDUCED, log entry 30). -/
def execInterruptEntry (k : Fin 16) (s : State) : Out State :=
  let c := s.ctxOf k
  if !(decide (k.val < s.variant.cores) && s.pll pllCore && (s.cluOf k).st == 1) then .next s
  else if s.intDue k then
    let s1 := match c.wait with
      | some .wait => s.ctxUpd k fun c => ({ c with wait := none } : Ctx).setTo false |>.retire
      | _ => s
    .next (s1.interrupt k)
  else .next s

/-- CORE_TIMER_EXPIRY: TIMER counts from 1 to 0. -/
def execCoreTimerExpiry (k : Fin 16) (s : State) : Out State :=
  if (s.ctxOf k).timer = 1 then .next ((s.ctxUpd k fun c => { c with timer := 0 }).raiseLine k 10) else .next s

/-- A wait ends, with TO set or cleared. -/
def State.endWait (s : State) (k : Nat) (ended : Bool) : State :=
  s.ctxUpd k fun c => (({ c with wait := none } : Ctx).setTo ended).retire

/-- WAIT_WAKE: on an enabled pending line, or when WAIT_TO has passed. -/
def execWaitWake (k : Fin 16) (expired : Bool) (s : State) : Out State :=
  match (s.ctxOf k).wait with
  | some .wait =>
    if (s.cluOf k).st ≠ 1 then .next s
    else if s.wanted k ≠ 0 then .next (s.endWait k false)
    else if expired then .next (s.endWait k true) else .next s
  | _ => .next s

/-- TBWAIT_END. -/
def execTbwaitEnd (k : Fin 16) (s : State) : Out State :=
  match (s.ctxOf k).wait with
  | some (.tb n t) =>
    if (s.cluOf k).st ≠ 1 then .next s
    else if s.tbOos n then .next (s.endWait k true)
    else if t ≤ Int.ofNat (s.tbNs n) then .next (s.endWait k false) else .next s
  | _ => .next s

/-- RFIFO_WAIT_END: the access completes, or FIFO_TO has passed. -/
def execRfifoWaitEnd (k : Fin 16) (expired : Bool) (s : State) : Out State :=
  if (s.cluOf k).st ≠ 1 then .next s
  else
    match (s.ctxOf k).wait with
    | some (.push e v) =>
      if (s.rilOf e).tx.length < 4 then .next ((s.rillPush e v).endWait k false)
      else if expired then .next (s.endWait k true) else .next s
    | some (.pop e rd) =>
      match (s.rilOf e).rx with
      | v :: t =>
        .next (((s.rilUpd e fun r => { r with rx := t }).ctxUpd k fun c => c.setReg rd v).endWait k false)
      | [] => if expired then .next (s.endWait k true) else .next s
    | _ => .next s

end Sys2Proof.Machine
end

