-- ==== Sys2Proof/Machine/Engine.lean ====
section
/-!
DEFINITION. The meanings of the engine run time (spec/10): mailboxes and locks, the frame queues toward SP15, cluster
commands, halts and restarts, migration, and cores in and out of service.
-/
namespace Sys2Proof.Machine
open Sys2Proof

/-! ### Mailboxes (R362 to R367) -/

/-- The endpoints of a mailbox: 0 to 15 a cluster, 16 the host. -/
def State.mbxSnd (s : State) (m : Nat) : Nat := s.rf Fx.MBX_CFG_SND m
def State.mbxRcv (s : State) (m : Nat) : Nat := s.rf Fx.MBX_CFG_RCV m
def State.mbxEn (s : State) (m : Nat) : Bool := s.rb Fx.MBX_CFG_EN m

/-- AGE in microseconds on TB0, saturating. -/
def State.mbxAge (s : State) (m : Nat) : Nat :=
  match (s.mbxOf m).ageFrom with
  | some t => min ((s.tbNs 0 - t) / 1000) 0xFFFFFF
  | none => (s.mbxOf m).age

/-- MBX_STS. -/
def State.mbxSts (s : State) (m : Nat) : Word :=
  let x := s.mbxOf m
  BitVec.ofNat 32 (b2n x.valid * 2 ^ 31 + b2n x.coll * 2 ^ 30 + b2n x.ackValid * 2 ^ 29 + b2n x.ackColl * 2 ^ 28 + s.mbxAge m)

/-- R362: a send; MBX_NOTICE for the host (R366), line 11 with SOFT (R352). -/
def State.mbxSend (s : State) (m : Nat) (ptr : Word) (tag : Nat) : State :=
  let s1 := s.mbxUpd m fun x =>
    { x with ptr := ptr, tag := tag, valid := true, coll := x.valid, ageFrom := some (s.tbNs 0), age := 0 }
  if s.mbxRcv m = 16 then s1.post 5 0x50 m tag ptr.toNat
  else if s.rb Fx.MBX_CFG_SOFT m then s1.raiseLine (s.mbxRcv m) 11 else s1

/-- R363: a take. -/
def State.mbxTake (s : State) (m : Nat) : State := s.mbxUpd m fun x => { x with valid := false, coll := false }

/-- R364: an ACK; MBX_ACK for the host. -/
def State.mbxAck (s : State) (m code : Nat) : State :=
  let age := s.mbxAge m
  let s1 := s.mbxUpd m fun x => { x with code := code, ackValid := true, ackColl := x.ackValid, ageFrom := none, age := age }
  if s.mbxSnd m = 16 then s1.post 5 0x51 m code 0 else s1

/-- R364: the ACK is consumed. -/
def State.mbxConsume (s : State) (m : Nat) : State := s.mbxUpd m fun x => { x with ackValid := false, ackColl := false }

/-- A mailbox instruction where R348 permits it: ACCESS_FAULT INFO 0x0005 otherwise. -/
def mbxBody (_k : Nat) (ok : State → Nat → Bool) (act : State → Nat → Word → Eff) (s : State) (w : Word) : Eff :=
  let m := fIdx w
  if s.mbxEn m && ok s m then act s m w else .exc s ⟨2, 5, 0⟩

/-- The cluster sends on, or receives on, a mailbox. -/
def sendsOn (k : Nat) (s : State) (m : Nat) : Bool := s.mbxSnd m == k
def takesFrom (k : Nat) (s : State) (m : Nat) : Bool := s.mbxRcv m == k

/-- MBSEND: R325. -/
def execMbsend (k : Fin 16) (e : CoreEcc) (s : State) : Out State :=
  .next (s.core1 k e (64 * 0x15) (mbxBody k (sendsOn k) fun s m w =>
    .done ((s.mbxSend m (s.ra k w) (bits (s.rbv k w) 15 0)).setRd k w (BitVec.ofNat 32 (b2n (s.mbxOf m).valid)))))

/-- MBTAKE: R325, R363. -/
def execMbtake (k : Fin 16) (e : CoreEcc) (s : State) : Out State :=
  .next (s.core1 k e (64 * 0x15 + 1) (mbxBody k (takesFrom k) fun s m w =>
    let x := s.mbxOf m
    .done ((s.mbxTake m).ctxUpd k fun c =>
      { c.setReg (fRd w) (if x.valid then x.ptr else 0#32) with
        mbtag := if x.valid then BitVec.ofNat 32 (2 ^ 31 + b2n x.coll * 2 ^ 30 + x.tag) else 0#32 })))

/-- MBACK: R325. -/
def execMback (k : Fin 16) (e : CoreEcc) (s : State) : Out State :=
  .next (s.core1 k e (64 * 0x15 + 2) (mbxBody k (takesFrom k) fun s m w => .done (s.mbxAck m (bits (s.ra k w) 15 0))))

/-- MBACKR: R325. -/
def execMbackr (k : Fin 16) (e : CoreEcc) (s : State) : Out State :=
  .next (s.core1 k e (64 * 0x15 + 3) (mbxBody k (sendsOn k) fun s m w =>
    .done ((s.mbxConsume m).setRd k w (BitVec.ofNat 32 (b2n (s.mbxOf m).ackValid * 2 ^ 31 + (s.mbxOf m).code)))))

/-- MBSTAT: R325. -/
def execMbstat (k : Fin 16) (e : CoreEcc) (s : State) : Out State :=
  .next (s.core1 k e (64 * 0x15 + 4) (mbxBody k (fun s m => sendsOn k s m || takesFrom k s m) fun s m w =>
    .done (s.setRd k w (s.mbxSts m))))

/-- R367: a host command that its mailbox does not admit: SEND and ACK_CLR for the sender, TAKE and ACK for the receiver. -/
def State.mbxCmdBad (s : State) (m op : Nat) : Bool :=
  !s.mbxEn m || ((op == 1 || op == 4) && s.mbxSnd m != 16) || ((op == 2 || op == 3) && s.mbxRcv m != 16)

/-- The effect of a host command. -/
def State.mbxOp (s : State) (m op data : Nat) : State :=
  match op with
  | 1 => s.mbxSend m (s.rg .MBX_HOST_PTR) data
  | 2 => s.mbxTake m
  | 3 => s.mbxAck m data
  | 4 => s.mbxConsume m
  | _ => s

/-- A write of MBX_CMD. -/
def State.mbxCmd (s : State) (src : Master) (m op data : Nat) : State :=
  s.cmdWrite src .MBX_CMD m 0 (BitVec.ofNat 32 (data * 65536 + op)) (s.mbxCmdBad m op) fun s => s.mbxOp m op data

/-- MBX_CMD_SEND. -/
def execMbxCmdSend (src : Master) (m : Fin 64) (data : BitVec 16) (s : State) : Out State := .next (s.mbxCmd src m 1 data.toNat)
/-- MBX_CMD_TAKE. -/
def execMbxCmdTake (src : Master) (m : Fin 64) (data : BitVec 16) (s : State) : Out State := .next (s.mbxCmd src m 2 data.toNat)
/-- MBX_CMD_ACK. -/
def execMbxCmdAck (src : Master) (m : Fin 64) (data : BitVec 16) (s : State) : Out State := .next (s.mbxCmd src m 3 data.toNat)
/-- MBX_CMD_ACK_CLR. -/
def execMbxCmdAckClr (src : Master) (m : Fin 64) (data : BitVec 16) (s : State) : Out State := .next (s.mbxCmd src m 4 data.toNat)

/-- The reserved encodings of MBX_CFG: an absent cluster, a sender that is the receiver, SOFT toward the host
(DEDUCED, log entry 126). -/
def mbxCfgBad (v : Variant) (w : Word) : Bool :=
  let snd := bits w 4 0
  let rcv := bits w 12 8
  let absent := fun (x : Nat) => x < 16 && v.cores ≤ x
  bits w 31 31 == 1 && (snd == rcv || absent snd || absent rcv || (bits w 30 30 == 1 && rcv == 16))

/-- MBX_HOST_RX and MBX_HOST_ACK: the host's mailboxes from `lo` on that hold a notice, or an ACK. -/
def State.mbxHostRx (s : State) (lo : Nat) : Nat :=
  ((List.range 32).map fun i =>
    if s.mbxEn (lo + i) && s.mbxRcv (lo + i) == 16 && (s.mbxOf (lo + i)).valid then 2 ^ i else 0).sum
def State.mbxHostAck (s : State) (lo : Nat) : Nat :=
  ((List.range 32).map fun i =>
    if s.mbxEn (lo + i) && s.mbxSnd (lo + i) == 16 && (s.mbxOf (lo + i)).ackValid then 2 ^ i else 0).sum

/-! ### Locks (R368 to R372) -/

/-- The ID of a user in a lock word. -/
def lockId : LockUser → Nat
  | .cluster k => k.val
  | .host .pcie => 0x10
  | .host .qspi => 0x11

/-- LOCK_READ: the host is answered on its bus; a core's load answers its register. -/
def execLockRead (who : LockUser) (n : Fin 64) (s : State) : Out State :=
  match who with
  | .cluster _ => .next (s.lockRead (lockId who) n.val).1
  | .host m =>
    let r := if s.regDead .MEM_LOCK n 0 then (s, 0) else s.lockRead (lockId who) n.val
    .next (r.1.emit (.readData m (0xA0F00 + 4 * n.val) 4 r.2))

/-- LOCK_WRITE. -/
def execLockWrite (who : LockUser) (n : Fin 64) (v : Word) (s : State) : Out State :=
  match who with
  | .cluster _ => .next (s.lockWrite (lockId who) n.val v.toNat)
  | .host _ => .next (if s.regDead .MEM_LOCK n 0 then s else s.lockWrite (lockId who) n.val v.toNat)

/-- Free a lock and count it, when it is held. -/
def State.lockFree (s : State) (n : Nat) : State :=
  if s.lckOf n = 0 then s else ({ s with lck := vupd s.lck n fun _ => 0 }).bump Fx.ENG_LOCK_CNT_FREED

/-- LOCK_FORCE: R372. -/
def execLockForce (m : Master) (n : Fin 64) (s : State) : Out State :=
  .next (s.cmdWrite m .ENG_LOCK_FORCE 0 0 (BitVec.ofNat 32 n.val) false fun s => s.lockFree n.val)

/-- R372: free every lock that a cluster owns. -/
def State.freeLocks (s : State) (k : Nat) : State :=
  (List.range 64).foldl (fun s n => if s.lckOf n = lockWord k then s.lockFree n else s) s

/-! ### Starts and restarts (R374, R375) -/

/-- R359: the receive buffers of a cluster, all free in ascending order. -/
def State.fqBuffers (s : State) (k : Nat) : List Nat :=
  (List.range (s.rf Fx.ENG_FQ_RXGEO_COUNT k)).map fun i =>
    s.rf Fx.ENG_FQ_RXBASE_BASE k * 8 + i * (s.rf Fx.ENG_FQ_RXGEO_BUFSZ k * 64)

/-- A cluster begins at vector 0 with registers as at core start. -/
def State.startAt0 (s : State) (k : Nat) : State :=
  (s.cluUpd k fun c => { c with st := 1, autoDue := false, portLine := false, ctx := Ctx.reset }).fqUpd k fun q =>
    { q with free := s.fqBuffers k, ready := [], held := [], refused := false, line7 := false }

/-- R374: the restart of a cluster on the same core; IPEND is cleared (DEDUCED, log entry 121). -/
def State.restart (s : State) (k : Nat) : State :=
  ((s.cluUpd k fun c => { c with st := 1, autoDue := false, inWindow := true, portLine := false, ctx := Ctx.reset }).fqUpd k fun q =>
    { q with line7 := false }).freeLocks k

/-- A cluster stops at an instruction boundary: a wait is cut and repeated when it goes on (Table 10-5, step 1). -/
def State.stopCluster (s : State) (k : Nat) : State :=
  s.cluUpd k fun c => { c with st := 2, ctx := { c.ctx with wait := none } }

/-- A physical core is free: in service, and the cluster it runs is IDLE. -/
def State.coreFree (s : State) (n : Nat) : Bool :=
  decide (n < s.variant.cores) && !(s.coreOf n).oos && !(s.coreOf n).init
    && (List.range 16).any fun k => s.physOf k == n && (s.cluOf k).st == 0

/-- The lowest free core. -/
def State.lowFree (s : State) : Option Nat := (List.range 16).find? fun n => s.coreFree n

/-- GLB_CYC_STS.TICK_RUN: in RUN and ON, a source is selected, its time base is guarded (R22) and, for a time base, in service
(Table 06-3). -/
def State.tickRun (s : State) : Bool :=
  let src := s.rf Fx.GLB_CYC_CFG_SRC
  let tb := s.rf Fx.GLB_CYC_CFG_TB
  s.lock && s.pwr.state == 0 && src != 0 && s.rb Fx.TB_CFG_GUARDED tb && (src != 1 || !s.tbOos tb)

/-- R375, R376 and the layout of ENG_CMD: reserved combinations. -/
def State.engCmdBad (s : State) (k op target : Nat) : Bool :=
  let st := (s.cluOf k).st
  (op != 4 && target != 0)
    || (op == 1 && !((st == 0 && (s.cluOf k).loaded && !(s.coreOf (s.physOf k)).oos) || st == 2))
    || (op == 2 && st != 1)
    || ((op == 3 || op == 4) && !(st == 1 || st == 2 || st == 3))
    || (op == 4 && (target == s.physOf k || (s.cluOf k).migPending || !s.tickRun))

/-! ### Migration (R376 to R381) -/

/-- R380: the end of a migration, whatever its result. -/
def State.migDone (s : State) (r : MigReq) (result fromC toC ns : Nat) : State :=
  let w : Nat := result * 2 ^ 28 + r.cluster * 2 ^ 20 + fromC * 2 ^ 16 + toC % 16 * 4096 + min ((ns + 9) / 10) 0xFFF
  let s1 := ((((s.sg .ENG_MIG_STS 0 0 (BitVec.ofNat 32 w)).cluUpd r.cluster fun c => { c with migPending := false }).maintDone 1
    result).tlog 0x53 0 r.cluster w)
  match r.oosCore with
  | some n => if result = 1 then s1.coreUpd n fun c => { c with oos := true } else s1
  | none => s1

/-- R376: a migration is requested. -/
def State.migRequest (s : State) (r : MigReq) : State :=
  if r.target < 16 ∧ s.variant.cores ≤ r.target then s.migDone r 3 (s.physOf r.cluster) r.target 0
  else
    match s.tokAns with
    | .busy => (s.tokReq 1).migDone r 6 (s.physOf r.cluster) r.target 0
    | _ =>
      let s1 := (s.tokReq 1).cluUpd r.cluster fun c => { c with migPending := true }
      { s1 with mig := s1.mig ++ [r] }

/-- The migration that holds the token ends. -/
def State.migEnd (s : State) (r : MigReq) (result toC ns : Nat) : State :=
  (({ s with mig := s.mig.drop 1 }).migDone r result (s.physOf r.cluster) toC ns).tokRelease

/-- The effect of ENG_CMD. -/
def State.engOp (s : State) (k op target : Nat) : State :=
  match op with
  | 1 => if (s.cluOf k).st = 0 then s.startAt0 k else s.cluUpd k fun c => { c with st := 1 }
  | 2 => s.stopCluster k
  | 3 => (s.cluUpd k fun c => { c with failed := false }).restart k
  | 4 => s.migRequest ⟨k, target, none, none⟩
  | 5 => s.raiseLine k 11
  | _ => s

/-- A write of ENG_CMD. -/
def State.engCmd (s : State) (m : Master) (k op target : Nat) : State :=
  s.cmdWrite m .ENG_CMD k 0 (BitVec.ofNat 32 (target * 256 + op)) (s.engCmdBad k op target) fun s => s.engOp k op target

/-- ENG_START. -/
def execEngStart (m : Master) (k : Fin 16) (s : State) : Out State := .next (s.engCmd m k 1 0)
/-- ENG_STOP. -/
def execEngStop (m : Master) (k : Fin 16) (s : State) : Out State := .next (s.engCmd m k 2 0)
/-- ENG_RESTART. -/
def execEngRestart (m : Master) (k : Fin 16) (s : State) : Out State := .next (s.engCmd m k 3 0)
/-- ENG_MIGRATE: TARGET 0 to 15 a core, 0x10 the lowest free one. -/
def execEngMigrate (m : Master) (k : Fin 16) (target : Fin 32) (s : State) : Out State := .next (s.engCmd m k 4 target.val)
/-- ENG_SOFT. -/
def execEngSoft (m : Master) (k : Fin 16) (s : State) : Out State := .next (s.engCmd m k 5 0)

/-- AUTO_RESTART: 1 µs after the halt. -/
def execAutoRestart (k : Fin 16) (s : State) : Out State :=
  if (s.cluOf k).st == 3 && (s.cluOf k).autoDue then .next (s.restart k) else .next s

/-- RESTART_WINDOW_EXPIRY: the fault was transient. -/
def execRestartWindowExpiry (k : Fin 16) (s : State) : Out State :=
  if (s.cluOf k).inWindow then
    .next (((s.cluUpd k fun c => { c with inWindow := false }).bump Fx.ENG_CNT_RESTART_OK 1 k).tlog 0x51 1 k 0)
  else .next s

/-- MIGRATION_RUN: at the first tick with the token held, the source stops, or the target is not free (DEDUCED, log entry 118). -/
def execMigrationRun (s : State) : Out State :=
  match s.mig with
  | [] => .next s
  | r :: rest =>
    if s.tok.holder != 1 || r.running.isSome || !s.tickRun then .next s
    else
      let t := if r.target = 16 then s.lowFree else if s.coreFree r.target then some r.target else none
      match t with
      | none => .next (s.migEnd r 2 r.target 0)
      | some n =>
        let s1 := s.cluUpd r.cluster fun c => { c with st := 4, migFrom := c.st, ctx := { c.ctx with wait := none } }
        .next { s1 with mig := { r with running := some n } :: rest }

/-- The receive record of a frame (Table 10-3); the stamp fields of a frame without a stamp are free values (log entry 25). -/
def recordBytes (s : State) (f : Delivered) : List Byte :=
  leBytes 2 f.data.length ++ leBytes 1 (f.cls % 8 * 32 + f.inp % 32)
    ++ leBytes 1 (b2n (isTagged f.data) * 16 + b2n f.stamp.isSome * 8 + f.stampTb % 8) ++ leBytes 2 f.tci ++ leBytes 2 0
    ++ (match f.stamp with
        | some t => leBytes 4 (t / 256) ++ leBytes 1 t
        | none => leBytes 4 s.freeVal.toNat ++ leBytes 1 s.freeNext.freeVal.toNat) ++ leBytes 3 0

/-- A write of the frame queue engine at a core address of a cluster (R345, R491); bytes outside the data memory and the pool go
nowhere (DEDUCED, log entry 122). -/
def State.fqWrite (s : State) (k a : Nat) (d : List Byte) : State :=
  if 0x10000 ≤ a ∧ a < 0x20000 then
    if s.coreOn k then s.coreUpd (s.physOf k) fun c => { c with dmem := wrBytes c.dmem (a - 0x10000) (d.take (0x20000 - a)) }
    else s.bump Fx.MEM_OFF_ACC_COUNT
  else if 0x100000 ≤ a ∧ a < lockBase + 0x100000 then s.poolWrProt (a - 0x100000) (d.take (lockBase + 0x100000 - a))
  else s

/-- A read of the frame queue engine: 0 where the memory is not ON (DEDUCED, log entry 122). -/
def State.fqRead (s : State) (k a n : Nat) : List Byte :=
  if a < 0x20000 then (if s.coreOn k then s.cBytes k a n else List.replicate n 0) else s.poolRd (a - 0x100000) n

/-- Deliver a frame into the receive area of a cluster (R359, R360) (DEDUCED, log entry 125). -/
def State.fqDeliver (s : State) (k : Nat) (f : Delivered) : State :=
  let st := (s.cluOf k).st
  let size := s.rf Fx.ENG_FQ_RXGEO_BUFSZ k * 64
  if st = 4 then
    if (s.fqOf k).aside.length < 32 then s.fqUpd k fun q => { q with aside := q.aside ++ [f] }
    else s.bump Fx.ENG_FQ_CNT_NOBUF 1 k
  else
    match (s.fqOf k).free with
    | [] => s.bump Fx.ENG_FQ_CNT_NOBUF 1 k
    | b :: rest =>
      if st = 0 ∨ st = 3 ∨ s.rf Fx.ENG_FQ_RXGEO_COUNT k = 0 then s.bump Fx.ENG_FQ_CNT_NOBUF 1 k
      else if size < f.data.length + 16 then s.bump Fx.ENG_FQ_CNT_TOOBIG 1 k
      else
        let s1 := (s.fqWrite k (b + 16) f.data).fqWrite k b (recordBytes s f)
        (if f.stamp.isNone then s1.freeNext.freeNext else s1).fqUpd k fun q => { q with free := rest, ready := q.ready ++ [b] }

/-- Deliver the frames that were set aside. -/
def State.fqAside (s : State) (k : Nat) : State :=
  let l := (s.fqOf k).aside
  l.foldl (fun s f => s.fqDeliver k f) (s.fqUpd k fun q => { q with aside := [] })

/-- The cores of the two clusters are exchanged and the memories copied (Table 10-5, steps 3 and 4) (DEDUCED, log entry 120). -/
def State.migExchange (s : State) (r : MigReq) (n : Nat) : State :=
  let src := s.physOf r.cluster
  let was := s.coreOf src
  let s1 := (List.range 16).foldl (fun s j =>
    if j != r.cluster && s.physOf j == n then s.cluUpd j fun c => { c with phys := src, loaded := false } else s) s
  (s1.coreUpd n fun c => { c with imem := was.imem, dmem := was.dmem }).cluUpd r.cluster fun c => { c with phys := n }

/-- MIGRATION_COMPLETE: `ns` after the tick; `eccAbort` when a word stayed uncorrectable (R379)
(DEDUCED, log entry 213; DESIGN CHOICE, log entry 217). -/
def execMigrationComplete (eccAbort : Bool) (ns : Nat) (s : State) : Out State :=
  match s.mig with
  | [] => .next s
  | r :: _ =>
    match r.running with
    | none => .next s
    | some n =>
      let k := r.cluster
      let back := fun (s : State) => s.cluUpd k fun c => { c with st := c.migFrom }
      let src := s.physOf k
      if eccAbort then .next (((back s).migEnd r 4 n ns).fqAside k)
      else
        let s1 := back (s.migExchange r n)
        let s2 := if (s1.cluOf k).st = 3 then s1.restart k else s1
        .next ((((({ s2 with mig := s2.mig.drop 1 }).migDone r 1 src n ns)).tokRelease).fqAside k)

/-- MIGRATION_TIMEOUT: 25 µs after its tick. -/
def execMigrationTimeout (s : State) : Out State :=
  match s.mig with
  | [] => .next s
  | r :: _ =>
    match r.running with
    | none => .next s
    | some n =>
      .next (((s.cluUpd r.cluster fun c => { c with st := c.migFrom }).migEnd r 5 n 25000).fqAside r.cluster)

/-! ### Cores in and out of service (R381) -/

/-- The cluster that a core runs. -/
def State.clusterOn (s : State) (n : Nat) : Nat := ((List.range 16).find? fun k => s.physOf k == n).getD n

/-- The reserved cases of ENG_CORE_CMD (DEDUCED, log entry 119). -/
def State.coreCmdBad (s : State) (n op : Nat) : Bool :=
  let k := s.clusterOn n
  let runs := (s.cluOf k).st != 0
  (op == 1 && ((s.coreOf n).oos
      || (runs && ((s.cluOf k).migPending || !s.tickRun || !(List.range 16).any fun j => j != n && s.coreFree j))))
    || (op == 2 && !(s.coreOf n).oos)

/-- The effect of ENG_CORE_CMD (DEDUCED, log entry 119). -/
def State.coreOp (s : State) (n op : Nat) : State :=
  let k := s.clusterOn n
  match op with
  | 1 => if (s.cluOf k).st = 0 then s.coreUpd n fun c => { c with oos := true } else s.migRequest ⟨k, 16, some n, none⟩
  | 2 => s.coreUpd n fun c => { c with init := true }
  | _ => s

/-- A write of ENG_CORE_CMD. -/
def State.coreCmd (s : State) (m : Master) (n op : Nat) : State :=
  s.cmdWrite m .ENG_CORE_CMD n 0 (BitVec.ofNat 32 op) (s.coreCmdBad n op) fun s => s.coreOp n op

/-- CORE_OUT_OF_SERVICE. -/
def execCoreOutOfService (m : Master) (n : Fin 16) (s : State) : Out State := .next (s.coreCmd m n 1)
/-- CORE_IN_SERVICE. -/
def execCoreInService (m : Master) (n : Fin 16) (s : State) : Out State := .next (s.coreCmd m n 2)

/-- CORE_INIT_DONE: both memories are 0, the core memory is ON (R493), and the core is free (DEDUCED, log entry 120). -/
def execCoreInitDone (n : Fin 16) (s : State) : Out State :=
  if (s.coreOf n).init then
    let s1 := (s.coreUpd n fun _ => PCore.reset).cluUpd (s.clusterOn n) fun c => { c with loaded := false }
    .next { s1 with bank := vupd s1.bank (16 + n.val) fun _ => 0 }
  else .next s

/-! ### Frame queues (R353 to R361) -/

/-- `n` bytes from `a` on lie wholly in the data memory, or in the pool off the locks. -/
def inDataOrPool (a n : Nat) : Bool :=
  (decide (0x10000 ≤ a) && decide (a + n ≤ 0x20000)) || (decide (0x100000 ≤ a) && decide (a + n ≤ 0x100000 + lockBase))

/-- Fields of a transmit request (Table 10-2). -/
def qAddr (d : List Byte) : Nat := descLe d 0 4
def qLen (d : List Byte) : Nat := descLe d 4 2
def qLaunch (d : List Byte) : Bool := (byteAt d 6).testBit 0
def qTsReq (d : List Byte) : Bool := (byteAt d 6).testBit 1
def qClsMap (d : List Byte) : Bool := (byteAt d 6).testBit 2
def qLtb (d : List Byte) : Nat := byteAt d 7 / 16 % 8
def qTc (d : List Byte) : Nat := byteAt d 7 % 8
def qSwitch (d : List Byte) : Bool := (byteAt d 11).testBit 7
def qMask (d : List Byte) : Nat := descLe d 8 4 % 2 ^ 17

/-- R354: the request is invalid. -/
def reqBad (d : List Byte) : Bool :=
  byteAt d 6 / 8 != 0 || (byteAt d 7).testBit 7 || (byteAt d 7).testBit 3 || descLe d 8 4 / 2 ^ 17 % 2 ^ 14 != 0
    || (qMask d).testBit 15 || descLe d 20 4 != 0 || qLen d < 14 || 9216 < qLen d || !inDataOrPool (qAddr d) (qLen d)
    || (qSwitch d && qMask d != 0) || (!qSwitch d && qMask d == 0)

/-- Rows 5, 7 and 8 of Table 02-4 with SP15 in place of SP14 (DEDUCED, log entry 123). -/
def State.reqStatus (s : State) (d : List Byte) : Option Nat :=
  let ports := if qSwitch d then [15] else maskPorts (qMask d)
  if ports.any (fun p => !s.variant.hasPort p) then some 0x02
  else if ports.any (fun p => decide (s.maxLen p true < qLen d + 4)) then some 0x03
  else if qLaunch d && s.tbOos (qLtb d) then some 0x0B
  else none

/-- Write a completion into a request: bytes 24 to 30, then byte 31 (R355). -/
def State.reqWriteBack (s : State) (k a : Nat) (d : List Byte) (st : Nat) (stamp : Option (Nat × Nat)) : State :=
  let ts := if qTsReq d then stamp else none
  let s1 := (s.fqWrite k (a + 24) (s.tsBytes ts (qLtb d) ++ leBytes 1 st)).fqWrite k (a + 31) (leBytes 1 (128 + b2n ts.isSome * 64))
  if ts.isNone then s1.freeNext.freeNext else s1

/-- FQTX: R329, R354 (DEDUCED, log entry 123). -/
def execFqtx (k : Fin 16) (e : CoreEcc) (s : State) : Out State :=
  .next (s.core1 k e (64 * 0x18) fun s w =>
    let a := (s.ra k w).toNat
    let d := s.fqRead k a 32
    let s0 := s.fqUpd k fun q => { q with refused := false, line7 := false }
    let ans := fun (s : State) (v : Nat) => Eff.done (s.setRd k w (BitVec.ofNat 32 v))
    if a % 8 != 0 || !inDataOrPool a 32 || reqBad d then ans (s0.bump Fx.ENG_FQ_TXCNT_INVALID 1 k) 2
    else if decide (16 ≤ (s.fqOf k).work.length) || (s.inOf 15).bp then
      ans ((s0.fqUpd k fun q => { q with refused := true }).bump Fx.ENG_FQ_TXCNT_REFUSED 1 k) 1
    else
      match s.reqStatus d with
      | some st => ans (s0.reqWriteBack k a d st none) 0
      | none => ans (s0.fqUpd k fun q =>
          { q with work := q.work ++ [⟨q.nextReq, [d], .reading, [], a⟩], nextReq := q.nextReq + 1 }) 0)

/-- FQRX: R329, R359. -/
def execFqrx (k : Fin 16) (e : CoreEcc) (s : State) : Out State :=
  .next (s.core1 k e (64 * 0x18 + 1) fun s w =>
    match (s.fqOf k).ready with
    | [] => .done (s.setRd k w 0#32)
    | b :: rest => .done ((s.fqUpd k fun q => { q with ready := rest, held := q.held ++ [b] }).setRd k w (BitVec.ofNat 32 b)))

/-- FQFREE: R361 (DEDUCED, log entry 124). -/
def execFqfree (k : Fin 16) (e : CoreEcc) (s : State) : Out State :=
  .next (s.core1 k e (64 * 0x18 + 2) fun s w =>
    let a := (s.ra k w).toNat
    if (s.fqOf k).held.contains a then .done (s.fqUpd k fun q => { q with held := q.held.erase a, free := q.free ++ [a] })
    else .done (s.bump Fx.ENG_FQ_CNT_BADFREE 1 k))

/-- FQLVL: R329. -/
def execFqlvl (k : Fin 16) (e : CoreEcc) (s : State) : Out State :=
  .next (s.core1 k e (64 * 0x18 + 3) fun s w =>
    .done (s.setRd k w (BitVec.ofNat 32 ((16 - (s.fqOf k).work.length) * 65536 + (s.fqOf k).ready.length))))

/-- The frame of a request enters SP15 (R101, R105, R355). -/
def State.coreFrame (s : State) (k : Nat) (x : TxEntry) (d data : List Byte) : State :=
  let b := data ++ List.replicate (60 - data.length) 0
  let launch := if qLaunch d then some (qLtb d, extendNs (s.tbNs (qLtb d)) (descLe d 12 4)) else none
  let org := Origin.core k x.first k
  let put := fun (s : State) (ph : TxPhase) => s.fqUpd k fun q => { q with work := updReading (fun e => { e with phase := ph }) q.work }
  let vp := s.classify 15 b
  let cls := if qClsMap d then none else some (qTc d)
  if !s.rb Fx.CFL_CTL_EN then put s (.done 0x05)
  else if qSwitch d then
    match s.ingress 15 b cls with
    | .drop j => (put s (.done 0x05)).icnt 15 j
    | .fwd ts c vid pcp trap =>
      let s1 := if trap then s.icnt 15 6 else s
      if ts.isEmpty then put (s1.icnt 15 5) (.done 0x05)
      else (put s1 (.inSwitch ts.length)).storeComplete (mkFrame b 15 c vid pcp org launch false none (qLtb d)) ts
  else if s.rf Fx.CFL_PORT_CFG_STATE 15 == 0 then (put s (.done 0x05)).icnt 15 3
  else
    let ts := maskPorts (qMask d)
    (put s (.inSwitch ts.length)).storeComplete
      (mkFrame b 15 (cls.getD (s.classOf 15 vp.2)) vp.1 vp.2 org launch true none (qLtb d)) ts

/-- FQ_FRAME_READ_DONE: the oldest accepted request whose frame is being read; `eccFail` is R356 (DESIGN CHOICE, log entry 217). -/
def execFqFrameReadDone (k : Fin 16) (eccFail : Bool) (s : State) : Out State :=
  match findReading (s.fqOf k).work with
  | none => .next s
  | some x =>
    let d := x.descs.getD 0 []
    if (s.cluOf k).st = 4 then .next s
    else if eccFail then
      .next (s.fqUpd k fun q => { q with work := updReading (fun e => { e with phase := .done 0x04 }) q.work })
    else .next (s.coreFrame k x d (s.fqRead k (qAddr d) (qLen d)))

/-- FQ_TX_COMPLETION: the oldest request is written back once every target has ended it; line 7 after a refusal (R357). -/
def execFqTxCompletion (k : Fin 16) (s : State) : Out State :=
  match (s.fqOf k).work with
  | [] => .next s
  | x :: rest =>
    match x.status with
    | none => .next s
    | some st =>
      if (s.cluOf k).st = 4 then .next s
      else
        .next ((s.reqWriteBack k x.addr (x.descs.getD 0 []) st x.stamp).fqUpd k fun q =>
          { q with work := rest, line7 := q.line7 || q.refused })

/-- The EtherType by which a frame is steered (R358). -/
def steerType (d : List Byte) : Nat := if be16 d 12 = 0x8100 then be16 d 16 else be16 d 12

/-- The cluster a frame of SP15 is steered to (R358). -/
def State.steer (s : State) (f : Delivered) : Option Nat :=
  match (List.range 16).find? fun r => s.rb Fx.ENG_FQ_ETYPE_EN r && s.rf Fx.ENG_FQ_ETYPE_ETYPE r == steerType f.data with
  | some r => some (s.rf Fx.ENG_FQ_ETYPE_CLUSTER r)
  | none =>
    let j := 8 * f.inp + f.cls
    if s.rb Fx.ENG_FQ_STEER_EN j then some (s.rf Fx.ENG_FQ_STEER_CLUSTER j) else none

/-- FQ_RX_DELIVERY: the oldest frame that waits at SP15. A frame that an uncorrectable buffer word has spoiled is discarded (R154). -/
def execFqRxDelivery (s : State) : Out State :=
  match s.sinkOf 1 with
  | [] => .next s
  | f :: _ =>
    let s1 := s.sinkPop 1
    if f.ecc then .next s1
    else
      match s1.steer f with
      | none => .next (s1.bump Fx.ENG_FQ_NOSTEER_COUNT)
      | some k => .next (s1.fqDeliver k f)

/-! ### Register checks and values -/

/-- R346: a port or group is absent, or bound to another cluster. -/
def State.bindBad (s : State) (k : Nat) (v : Word) : Bool :=
  (List.range 24).any fun p =>
    v.getLsbD p && ((p < 2 && !s.variant.full) || (List.range 16).any fun j => j != k && s.boundPort j p)
def State.bindAuxBad (s : State) (k : Nat) (v : Word) : Bool :=
  (List.range 6).any fun i =>
    v.getLsbD i && (!s.variant.full || (List.range 16).any fun j => j != k && (s.rg .ENG_BIND_AUX j).getLsbD i)

/-- ENG_FQ_RXGEO: BUFSZ 4 to 144 when COUNT is not 0. -/
def rxGeoBad (v : Word) : Bool := bits v 22 16 != 0 && !(4 ≤ bits v 7 0 && bits v 7 0 ≤ 144)

/-- ENG_STS of a cluster. -/
def State.engSts (s : State) (k : Nat) : Word :=
  let c := s.cluOf k
  BitVec.ofNat 32 (b2n (c.st == 1 && c.ctx.wait.isSome) * 4096 + c.phys * 256 + b2n c.migPending * 16 + b2n c.failed * 8 + c.st)

/-- ENG_CORE_STS of a physical core. -/
def State.coreSts (s : State) (n : Nat) : Word :=
  let c := s.coreOf n
  BitVec.ofNat 32 (b2n c.init * 1024 + b2n (s.coreFree n) * 512 + b2n c.oos * 256 + s.clusterOn n)

end Sys2Proof.Machine
end

