-- ==== Sys2Proof/Machine/Rill.lean ====
section
/-!
DEFINITION. The meanings of the Rill pin engines (spec/11): the program instructions (Table 11-2), the compare, the FIFOs,
starts and stops, the synchronous commands and groups out of service. An engine executes the word that its program memory
holds at PC; the levels of its slots at a tick come with the command.
-/
namespace Sys2Proof.Machine
open Sys2Proof

/-! ### Slots and the instruction word (Table 11-1, R390) -/

/-- The set-up word of a slot. -/
def State.slotCfg (s : State) (e j : Nat) : Word := s.rg .RIL_SLOT e j
/-- The slot is enabled; it is an enabled output slot. -/
def State.slotEn (s : State) (e j : Nat) : Bool := (s.slotCfg e j).getLsbD 31
def State.slotOut (s : State) (e j : Nat) : Bool := s.slotEn e j && (s.slotCfg e j).getLsbD 30

/-- Update a slot of an engine. -/
def Ril.slotUpd (r : Ril) (j : Nat) (f : Slot → Slot) : Ril := { r with slots := vupd r.slots j f }

/-- The word at an engine's PC. -/
def State.rillWord (s : State) (e : Nat) : Word := s.rg .RIL_PROG e (s.rilOf e).pc

def rOp (w : Word) : Nat := bits w 31 28
def rCl (w : Word) : Nat := bits w 27 26
def rStretch (w : Word) : Nat := bits w 25 22
/-- TEST, EVENT or SEL in bits 21:19; DIRS or DEST in bits 21:20; SLOT in bits 18:17. -/
def rSel (w : Word) : Nat := bits w 21 19
def rDirs (w : Word) : Nat := bits w 21 20
def rSlot (w : Word) : Nat := bits w 18 17
def rIslot (w : Word) : Nat := bits w 19 18
def rOslot (w : Word) : Nat := bits w 17 16

/-- R390: the instruction is undefined, or a bit that must be 0 is not. -/
def rillUndef (w : Word) : Bool :=
  let t := rSel w
  let d := rDirs w
  let sl := rSlot w != 0
  match rOp w with
  | 0 => t == 7 || (t != 2 && t != 3 && sl) || bits w 16 5 != 0
  | 1 => 6 ≤ t || (4 ≤ t && sl) || bits w 16 0 != 0
  | 2 => d == 0 || (d == 2 && rIslot w != 0) || (d == 1 && rOslot w != 0) || bits w 15 5 != 0
  | 3 => bits w 20 0 != 0
  | 4 => bits w 18 0 != 0
  | 5 => d == 3 || bits w 19 19 != 0 || bits w 16 16 != 0 || (d == 2 && sl) || (d != 2 && bits w 15 1 != 0)
  | 6 => 4 ≤ t || bits w 18 0 != 0
  | 7 => bits w 21 19 != 0 || bits w 15 5 != 0
  | 15 => bits w 27 0 != 0
  | _ => true

/-- R390: a slot is used in a way its set-up does not allow. -/
def State.rillForbid (s : State) (e : Nat) (w : Word) : Bool :=
  let t := rSel w
  let d := rDirs w
  (rCl w != 0 && !s.slotOut e 3)
    || (rOp w == 0 && (t == 2 || t == 3) && !s.slotEn e (rSlot w))
    || (rOp w == 1 && t ≤ 3 && !s.slotEn e (rSlot w))
    || (rOp w == 2 && (d == 1 || d == 3) && !s.slotEn e (rIslot w))
    || (rOp w == 2 && (d == 2 || d == 3) && !s.slotOut e (rOslot w))
    || (rOp w == 2 && d == 3 && s.rb Fx.RIL_ECFG_IN_SHR e != s.rb Fx.RIL_ECFG_OUT_SHR e)
    || (rOp w == 5 && d ≤ 1 && !s.slotOut e (rSlot w))
    || (rOp w == 7 && !s.slotEn e (rSlot w))

/-! ### Stops and starts (R398, R401, R404) -/

/-- Release output slots: those that `which` names (DEDUCED, log entry 198). -/
def State.relSlots (s : State) (e : Nat) (which : Nat → Bool) : State :=
  (List.range 4).foldl (fun s j =>
    if s.slotOut e j && which j then s.rilUpd e fun r => r.slotUpd j fun x => { x with released := true, drive := false } else s) s

/-- The engine is STOPPED: slots with REL_STOP are released (R398). -/
def State.rillStop (s : State) (e : Nat) : State :=
  (s.relSlots e fun j => (s.slotCfg e j).getLsbD 27).rilUpd e fun r => { r with st := 0, waiting := false }

/-- R391: the compare of an engine for a value of SR. -/
def State.rillCmp (s : State) (e : Nat) (sr : Word) : Bool :=
  ((sr ^^^ s.rg .RIL_CMP_VAL e) &&& s.rg .RIL_CMP_MASK e) == 0#32

/-- SR changes; a change of the compare from false to true latches the stamp `ts`, in 2^-16 ns of TS_TB (R391). -/
def State.rillSr (s : State) (e : Nat) (v : Word) (ts : Nat) : State :=
  let was := s.rillCmp e (s.rilOf e).sr
  let s1 := s.rilUpd e fun r => { r with sr := v }
  if !was && s.rillCmp e v then
    (s1.wf Fx.RIL_STS_CMP_EV 1 e).rilUpd e fun r =>
      { r with tsNs := ts / 65536 % 2 ^ 32, tsFrac := ts % 65536, tsValid := !s.tbOos (s.rf Fx.RIL_ECFG_TS_TB e) }
  else s1

/-- The present instant on TS_TB, in 2^-16 ns. -/
def State.rillNow (s : State) (e : Nat) : Nat := s.tbTime (s.rf Fx.RIL_ECFG_TS_TB e) / 65536

/-- R404: the engine starts at ENTRY; released output slots take OE_INIT and LVL_INIT. -/
def State.rillStart (s : State) (e : Nat) (clr flush : Bool) : State :=
  let s1 := (List.range 4).foldl (fun s j =>
    if s.slotOut e j then s.rilUpd e fun r => r.slotUpd j fun x =>
      if x.released then ⟨(s.slotCfg e j).getLsbD 28, (s.slotCfg e j).getLsbD 29, false⟩ else x
    else s) s
  let s2 := s1.rilUpd e fun r =>
    { r with st := 1, pc := s.rf Fx.RIL_ECFG_ENTRY e, bc := 0, acc := 0, waiting := false,
             tx := if flush then [] else r.tx, rx := if flush then [] else r.rx }
  if clr then s2.rillSr e 0#32 (s.rillNow e) else s2

/-- The group of an engine is out of service. -/
def State.groupOos (s : State) (g : Nat) : Bool := (s.rilOf (4 * g)).st == 3

/-! ### One instruction (R386, R387) -/

/-- The divider runs through `n` ticks (R385) (DESIGN CHOICE, log entry 216). -/
def State.rillTicks (s : State) (e n : Nat) : State :=
  s.rilUpd e fun r => { r with acc := (r.acc + s.rf Fx.RIL_DIV_FRAC e * n) % 256 }

/-- The engine continues at `pc` after `n` ticks and the STRETCH of the word. -/
def State.rillGo (s : State) (e : Nat) (w : Word) (n pc : Nat) : State :=
  (s.rillTicks e (n + rStretch w)).rilUpd e fun r => { r with pc := pc % 32, waiting := false }

/-- The engine continues at the next address. -/
def State.rillNext (s : State) (e : Nat) (w : Word) (n : Nat) : State := s.rillGo e w n ((s.rilOf e).pc + 1)

/-- The engine waits in its instruction. -/
def State.rillHold (s : State) (e : Nat) : State := s.rilUpd e fun r => { r with waiting := true }

/-- The control-line action on S3 at the first tick (R386). -/
def State.rillCl (s : State) (e : Nat) (w : Word) : State :=
  match rCl w with
  | 1 => s.rilUpd e fun r => r.slotUpd 3 fun x => { x with level := false }
  | 2 => s.rilUpd e fun r => r.slotUpd 3 fun x => { x with level := true }
  | 3 => s.rilUpd e fun r => r.slotUpd 3 fun x => { x with level := !x.level }
  | _ => s

/-- R390: the engine stops on a fault. -/
def State.rillFault (s : State) (e : Nat) : State :=
  ((s.rillStop e).wf Fx.RIL_STS_FAULT 1 e).tlog 0x61 2 e (s.rilOf e).pc

/-- A RUNNING engine starts the instruction at PC. `op` is the operation that the command names: where the word at PC is another
one, the command names nothing that happens; a word under R390 stops the engine whatever the command names
(DESIGN CHOICE, log entry 114). -/
def State.rill1 (s : State) (e op : Nat) (body : State → Word → State) : State :=
  let r := s.rilOf e
  let w := s.rillWord e
  if !(decide (e < s.variant.engines) && s.pll pllRill && r.st == 1 && !r.waiting) then s
  else if rillUndef w || s.rillForbid e w then s.rillFault e
  else if rOp w ≠ op then s
  else body (s.rillCl e w) w

/-- R394: the head word toward the engine, when it is eligible. -/
def State.rillHead (s : State) (e : Nat) : Option Word :=
  match (s.rilOf e).tx with
  | [] => none
  | (v, t) :: _ => if !s.rb Fx.RIL_ECFG_CYC_SYNC e || t < s.cyc.ticks then some v else none

/-- RILL_GOTO: with the filtered levels of the slots at the tick (DESIGN CHOICE, log entry 219). -/
def execRillGoto (e : Fin 48) (lv : BitVec 4) (s : State) : Out State :=
  .next (s.rill1 e 0 fun s w =>
    let r := s.rilOf e
    let addr := bits w 4 0
    let go := fun (s : State) (b : Bool) => if b then s.rillGo e w 1 addr else s.rillNext e w 1
    match rSel w with
    | 0 => go s true
    | 1 => if r.ctr = 0 then go s false else go (s.rilUpd e fun r => { r with ctr := r.ctr - 1 }) (r.ctr != 1)
    | 2 => go s (lv.getLsbD (rSlot w))
    | 3 => go s (!lv.getLsbD (rSlot w))
    | 4 => go s (s.rillCmp e r.sr)
    | 5 => go s (!s.rillCmp e r.sr)
    | _ => go s (s.rillHead e).isSome)

/-- The event of AWAIT holds at a tick with these levels, and these at the tick before; CYCLE only at its release (R400). -/
def State.rillEvent (s : State) (e : Nat) (w : Word) (lv before : BitVec 4) : Bool :=
  let j := rSlot w
  match rSel w with
  | 0 => !lv.getLsbD j
  | 1 => lv.getLsbD j
  | 2 => !lv.getLsbD j && before.getLsbD j
  | 3 => lv.getLsbD j && !before.getLsbD j
  | 4 => s.rillCmp e (s.rilOf e).sr
  | _ => false

/-- RILL_AWAIT. -/
def execRillAwait (e : Fin 48) (lv before : BitVec 4) (s : State) : Out State :=
  .next (s.rill1 e 1 fun s w => if s.rillEvent e w lv before then s.rillNext e w 1 else s.rillHold e)

/-- One bit of a SHIFT: the bit driven leaves SR, the bit sampled enters (R388). -/
def State.shiftBit (s : State) (e : Nat) (w : Word) (b : Bool) (ts : Nat) : State :=
  let sr := (s.rilOf e).sr
  let inp := rDirs w % 2 = 1
  let out := 2 ≤ rDirs w
  let right := if out then s.rb Fx.RIL_ECFG_OUT_SHR e else s.rb Fx.RIL_ECFG_IN_SHR e
  let driven := if right then sr.getLsbD 0 else sr.getLsbD 31
  let moved := if right then sr >>> 1 else sr <<< 1
  let v := if inp ∧ b = true then moved ||| (if right then 0x80000000#32 else 1#32) else moved
  let s1 := if out then s.rilUpd e fun r => r.slotUpd (rOslot w) fun x => { x with level := driven } else s
  (s1.rillSr e v (if inp then ts else s.rillNow e)).rilUpd e fun r => { r with bc := min 32 (r.bc + 1) }

/-- R401, R404: the bits of a SHIFT that a STOP cuts, shifted at the ticks before the stop; the engine does not resume it
(DESIGN CHOICE, log entry 215). -/
def State.rillCut (s : State) (e : Nat) (samples : List (Bool × Nat)) : State :=
  let w := s.rillWord e
  if decide (e < s.variant.engines) && s.pll pllRill && !rillUndef w && !s.rillForbid e w && !samples.isEmpty then
    (samples.foldl (fun s x => s.shiftBit e w x.1 x.2) (s.rillCl e w)).rillTicks e samples.length
  else s

/-- RILL_SHIFT: with the level sampled at each of its ticks and the instant of the pin's last accepted transition, in 2^-16 ns of
TS_TB. A list of another length is no sampling of this instruction, but for the shorter one of a SHIFT that a STOP cuts
(DESIGN CHOICE, log entry 215). -/
def execRillShift (e : Fin 48) (samples : List (Bool × Nat)) (s : State) : Out State :=
  let n := bits (s.rillWord e) 4 0 + 1
  if rOp (s.rillWord e) = 2 ∧ (s.rilOf e).st = 2 ∧ samples.length < n then .next (s.rillCut e samples)
  else if rOp (s.rillWord e) = 2 ∧ samples.length ≠ n then .next s
  else .next (s.rill1 e 2 fun s w => (samples.foldl (fun s x => s.shiftBit e w x.1 x.2) s).rillNext e w n)

/-- The word of FETCH is taken (DEDUCED, log entry 127). -/
def State.rillTake (s : State) (e : Nat) (w : Word) (v : Word) : State :=
  ((s.rilUpd e fun r => { r with tx := r.tx.drop 1, last := v, bc := 0 }).rillSr e v (s.rillNow e)).rillNext e w 1

/-- RILL_FETCH: R387, R395. -/
def execRillFetch (e : Fin 48) (s : State) : Out State :=
  .next (s.rill1 e 3 fun s w =>
    match s.rillHead e with
    | some v => s.rillTake e w v
    | none =>
      if w.getLsbD 21 then ((s.rillSr e (s.rilOf e).last (s.rillNow e)).wf Fx.RIL_STS_REUSED 1 e).rillNext e w 1
      else s.rillHold e)

/-- The end of POST: BC and SR, then the next address (DEDUCED, log entry 128). -/
def State.rillPosted (s : State) (e : Nat) (w : Word) : State :=
  let s1 := if w.getLsbD 21 then s else s.rilUpd e fun r => { r with bc := 0 }
  (if w.getLsbD 19 then s1.rillSr e 0#32 (s.rillNow e) else s1).rillNext e w 1

/-- The word of POST enters the FIFO toward the core. -/
def State.rillPut (s : State) (e : Nat) (w : Word) : State :=
  s.rilUpd e fun r => { r with rx := r.rx ++ [if w.getLsbD 21 then BitVec.ofNat 32 r.tsNs else r.sr] }

/-- RILL_POST. -/
def execRillPost (e : Fin 48) (s : State) : Out State :=
  .next (s.rill1 e 4 fun s w =>
    if (s.rilOf e).rx.length < 4 then (s.rillPut e w).rillPosted e w
    else if w.getLsbD 20 then (s.bump Fx.RIL_CNT_RX_OVF 1 e).rillPosted e w
    else s.rillHold e)

/-- RILL_LOAD. A driver released by DEST 0b01 leaves its slot released (R398) (DEDUCED, log entry 214). -/
def execRillLoad (e : Fin 48) (s : State) : Out State :=
  .next (s.rill1 e 5 fun s w =>
    let s1 := match rDirs w with
      | 0 => s.rilUpd e fun r => r.slotUpd (rSlot w) fun x => { x with level := w.getLsbD 0 }
      | 1 => s.rilUpd e fun r => r.slotUpd (rSlot w) fun x => { x with drive := w.getLsbD 0, released := !w.getLsbD 0 }
      | _ => s.rilUpd e fun r => { r with ctr := bits w 15 0 }
    s1.rillNext e w 1)

/-- RILL_COPY: with the levels of the slots. -/
def execRillCopy (e : Fin 48) (lv : BitVec 4) (s : State) : Out State :=
  .next (s.rill1 e 6 fun s w =>
    let r := s.rilOf e
    let s1 := match rSel w with
      | 0 => s.rilUpd e fun r => { r with ctr := bits r.sr 15 0 }
      | 1 => s.rillSr e (BitVec.ofNat 32 r.ctr) (s.rillNow e)
      | 2 => s.rillSr e (BitVec.ofNat 32 lv.toNat) (s.rillNow e)
      | _ => s.rilUpd e fun r => { r with ctr := r.bc }
    s1.rillNext e w 1)

/-- RILL_VERIFY: the level at the tick, and that RESAMPLE Rill clocks later (R389). -/
def execRillVerify (e : Fin 48) (lvl lvl2 : Bool) (s : State) : Out State :=
  .next (s.rill1 e 7 fun s w =>
    let want := w.getLsbD 16
    if lvl == want then s.rillNext e w 1
    else if s.rf Fx.RIL_ECFG_RESAMPLE e != 0 && lvl2 == want then
      ((s.bump Fx.RIL_CNT_RESAMPLE_OK 1 e).tlog 0x60 1 e 0).rillNext e w 1
    else (s.bump Fx.RIL_CNT_FRAME_ERR 1 e).rillGo e w 1 (bits w 4 0))

/-- RILL_HALT. -/
def execRillHalt (e : Fin 48) (s : State) : Out State :=
  .next (s.rill1 e 15 fun s _ => (s.rillStop e).wf Fx.RIL_STS_DONE 1 e)

/-- RILL_WAIT_END: the condition of a waiting AWAIT, FETCH or POST comes to hold. -/
def execRillWaitEnd (e : Fin 48) (lv before : BitVec 4) (s : State) : Out State :=
  let r := s.rilOf e
  let w := s.rillWord e
  if !(r.st == 1 && r.waiting) then .next s
  else
    match rOp w with
    | 1 => if s.rillEvent e w lv before then .next (s.rillNext e w 1) else .next s
    | 3 => match s.rillHead e with
      | some v => .next (s.rillTake e w v)
      | none => .next s
    | 4 => if r.rx.length < 4 then .next ((s.rillPut e w).rillPosted e w) else .next s
    | _ => .next s

/-! ### Commands (R399 to R406) -/

/-- R405, R497. -/
def State.rilCtlBad (s : State) (e : Nat) (v : Word) : Bool :=
  let start := v.getLsbD 0
  (start && (s.pllStopped pllRill || (s.rilOf e).st != 0)) || (start && v.getLsbD 1) || ((v.getLsbD 2 || v.getLsbD 3) && !start)

/-- The effect of RIL_CTL. -/
def State.rilCtl (s : State) (e : Nat) (v : Word) : State :=
  if v.getLsbD 0 then s.rillStart e (v.getLsbD 2) (v.getLsbD 3)
  else if v.getLsbD 1 ∧ (s.rilOf e).st = 1 then s.rilUpd e fun r => { r with st := 2 }
  else s

/-- A write of RIL_CTL. -/
def State.rilCmd (s : State) (m : Master) (e : Nat) (v : Word) : State :=
  s.cmdWrite m .RIL_CTL e 0 v (s.rilCtlBad e v) fun s => s.rilCtl e v

/-- RIL_START. -/
def execRilStart (m : Master) (e : Fin 48) (clrSr flush : Bool) (s : State) : Out State :=
  .next (s.rilCmd m e (BitVec.ofNat 32 (b2n flush * 8 + b2n clrSr * 4 + 1)))
/-- RIL_STOP. -/
def execRilStop (m : Master) (e : Fin 48) (s : State) : Out State := .next (s.rilCmd m e 2#32)

/-- RIL_STOP_EFFECT: at the engine's next tick. -/
def execRilStopEffect (e : Fin 48) (s : State) : Out State :=
  if (s.rilOf e).st = 2 then .next (s.rillStop e) else .next s

/-- The engines that RIL_SYNC_LO and bits 15:0 of a command name. -/
def State.syncNames (s : State) (v : Word) (e : Nat) : Bool :=
  if e < 32 then s.rilSyncLo.testBit e else v.getLsbD (e - 32)

/-- R399: a named engine is absent or in a group out of service, or for START not STOPPED; R497. -/
def State.syncBad (s : State) (v : Word) : Bool :=
  s.pllStopped pllRill || (List.range 48).any fun e =>
    s.syncNames v e && (decide (s.variant.engines ≤ e) || (s.rilOf e).st == 3 || (bits v 31 30 == 1 && (s.rilOf e).st != 0))

/-- An AWAIT CYCLE in progress. -/
def State.inAwaitCycle (s : State) (e : Nat) : Bool :=
  (s.rilOf e).waiting && rOp (s.rillWord e) == 1 && rSel (s.rillWord e) == 5

/-- A phase restart (R385). -/
def State.rillPhase (s : State) (e : Nat) : State := s.rilUpd e fun r => { r with acc := 0 }

/-- The effect of RIL_SYNC_CMD; the held names are used up (DEDUCED, log entry 130). -/
def State.syncOp (s : State) (v : Word) : State :=
  let s1 := (List.range 48).foldl (fun t e =>
    if s.syncNames v e then
      if bits v 31 30 = 1 then t.rillStart e false false
      else
        let t1 := t.rillPhase e
        if !t1.rb Fx.RIL_ECFG_CYC_SYNC e && t1.inAwaitCycle e && (t1.rilOf e).st == 1 then t1.rillNext e (t1.rillWord e) 1 else t1
    else t) s
  { s1 with rilSyncLo := 0 }

/-- A write of RIL_SYNC_CMD. -/
def State.syncCmd (s : State) (m : Master) (v : Word) : State := s.cmdWrite m .RIL_SYNC_CMD 0 0 v (s.syncBad v) fun s => s.syncOp v

/-- SYNC_START. -/
def execSyncStart (m : Master) (hi : BitVec 16) (s : State) : Out State := .next (s.syncCmd m (BitVec.ofNat 32 (2 ^ 30 + hi.toNat)))
/-- SYNC_PHASE. -/
def execSyncPhase (m : Master) (hi : BitVec 16) (s : State) : Out State := .next (s.syncCmd m (BitVec.ofNat 32 (2 ^ 31 + hi.toNat)))

/-- RILL_SYNC_RELEASE: once after each tick, while ticks are generated (R400) (DEDUCED, log entry 129). -/
def execRillSyncRelease (s : State) : Out State :=
  if s.cyc.rillDone || !s.tickRun then .next s
  else
    let s1 := (List.range 48).foldl (fun s e =>
      if s.rb Fx.RIL_ECFG_CYC_SYNC e && ((s.rilOf e).st == 1 || (s.rilOf e).st == 2) then
        let t := s.rillPhase e
        if s.inAwaitCycle e && (s.rilOf e).st == 1 then t.rillNext e (s.rillWord e) 1
        else if s.inAwaitCycle e then t
        else t.bump Fx.RIL_CNT_SYNC_MISS 1 e
      else s) s
    .next { s1 with cyc := { s1.cyc with rillDone := true } }

/-- The reserved cases of RIL_GRP_CMD: an absent group, and the two of R406 (DEDUCED, log entry 131). -/
def State.grpBad (s : State) (v : Word) : Bool :=
  let g := bits v 3 0
  decide (s.variant.engines ≤ 4 * g) || (bits v 31 30 == 1 && s.groupOos g) || (bits v 31 30 == 2 && !s.groupOos g)

/-- The effect of RIL_GRP_CMD (DEDUCED, log entry 132). -/
def State.grpOp (s : State) (v : Word) : State :=
  let g := bits v 3 0
  (List.range 4).foldl (fun s j =>
    let e := 4 * g + j
    if bits v 31 30 = 1 then
      (s.rillStop e |>.relSlots e fun _ => true).rilUpd e fun r => { r with st := 3 }
    else s.rilUpd e fun r => { r with st := 0 }) s

/-- A write of RIL_GRP_CMD. -/
def State.grpCmd (s : State) (m : Master) (v : Word) : State := s.cmdWrite m .RIL_GRP_CMD 0 0 v (s.grpBad v) fun s => s.grpOp v

/-- GROUP_OUT_OF_SERVICE. -/
def execGroupOutOfService (m : Master) (g : Fin 16) (s : State) : Out State := .next (s.grpCmd m (BitVec.ofNat 32 (2 ^ 30 + g.val)))
/-- GROUP_IN_SERVICE. -/
def execGroupInService (m : Master) (g : Fin 16) (s : State) : Out State := .next (s.grpCmd m (BitVec.ofNat 32 (2 ^ 31 + g.val)))

/-- The effect of a program word write: R402. -/
def State.progWrite (s : State) (e i : Nat) (v : Word) : State :=
  if (s.rilOf e).st = 0 then s.sg .RIL_PROG e i v else s.wf Fx.RIL_STS_PROG_REJ 1 e

/-- PROGRAM_WORD_WRITE. -/
def execProgramWordWrite (m : Master) (e : Fin 48) (i : Fin 32) (v : Word) (s : State) : Out State :=
  .next (s.cmdWrite m .RIL_PROG e i v false fun s => s.progWrite e i v)

/-! ### Register checks and values -/

/-- R403: the engine is not STOPPED. -/
def State.rilBusy (s : State) (e : Nat) : Bool := (s.rilOf e).st != 0

/-- RIL_ECFG and RIL_DIV: R403, and the ranges of RXT and TXT. -/
def State.rilEcfgBad (s : State) (e : Nat) (v : Word) : Bool := s.rilBusy e || decide (s.rf Fx.RIL_DIV_INT e ≤ bits v 13 4)
def State.rilDivBad (s : State) (e : Nat) (v : Word) : Bool := s.rilBusy e || decide (bits v 23 8 ≤ s.rf Fx.RIL_ECFG_RESAMPLE e)

/-- Another enabled output slot drives a pin. -/
def State.pinDriven (s : State) (pin : Nat) (e0 j0 : Nat) : Bool :=
  (List.range 48).any fun e => (List.range 4).any fun j =>
    !(e == e0 && j == j0) && s.slotOut e j && bits (s.slotCfg e j) 5 0 == pin

/-- An enabled pulse unit, other than `k`, drives a pin. -/
def State.pinPulsed (s : State) (pin k : Nat) : Bool :=
  (List.range 4).any fun q => q != k && s.rb Fx.TB_PLS_CFG_EN q && s.rf Fx.TB_PLS_CFG_PIN q == pin

/-- RIL_SLOT: R396, R403. -/
def State.rilSlotBad (s : State) (e j : Nat) (v : Word) : Bool :=
  s.rilBusy e || (v.getLsbD 31 && v.getLsbD 30 && (s.pinDriven (bits v 5 0) e j || s.pinPulsed (bits v 5 0) 4))

/-- TB_PLS_CFG: R239, R497. -/
def State.plsCfgBad (s : State) (k : Nat) (v : Word) : Bool :=
  bits v 31 31 == 1
    && (s.pllStopped pllRill || s.pinDriven (bits v 5 0) 48 0 || s.pinPulsed (bits v 5 0) k || decide (s.rf Fx.TB_PLS_WIDTH_NS k < 10)
      || decide (s.rf Fx.TB_PLS_PERIOD_NS k < s.rf Fx.TB_PLS_WIDTH_NS k + 10))

/-- RIL_STS: the held flags and what the engine shows. -/
def State.rilSts (s : State) (e : Nat) : Word :=
  let r := s.rilOf e
  s.rg .RIL_STS e ||| BitVec.ofNat 32 (r.pc * 65536 + r.rx.length * 8192 + r.tx.length * 1024 + b2n (s.rillCmp e r.sr) * 512
    + b2n r.waiting * 256 + r.bc * 4 + r.st)

/-- RIL_GRP_STS. -/
def State.grpSts (s : State) : Nat := ((List.range 12).map fun g => if s.groupOos g then 2 ^ g else 0).sum

end Sys2Proof.Machine
end

