-- ==== Sys2Proof/Machine/Can.lean ====
section
/-!
DEFINITION. The meanings of the CAN FD controllers (spec/12): reception and filters, transmit buffers, arbitration and errors,
bus-off and recovery, listen-only and out of service, the core exchange and the message RAM; and the launch times of class
queues and transmit buffers (R114, R421).
-/
namespace Sys2Proof.Machine
open Sys2Proof

/-! ### Message RAM (Table 12-2) -/

/-- A word of the message RAM, and a run of words. -/
def Can.word (c : Can) (i : Nat) : Word := sget 0#32 i c.ram
def Can.words (c : Can) (i n : Nat) : List Word := (List.range n).map fun j => c.word (i + j)
def Can.putWords (c : Can) (i : Nat) : List Word → Can
  | [] => c
  | w :: t => { c with ram := sput 0#32 i w c.ram }.putWords (i + 1) t

/-- Word indices of transmit buffer b, event element i, the high-priority buffer, and element i of a receive FIFO. -/
def txAt (b : Nat) : Nat := 128 + 20 * b
def evAt (i : Nat) : Nat := 768 + 4 * i
def hpAt : Nat := 896
def rxAt (f i : Nat) : Nat := (if f = 0 then 1024 else 2304) + 20 * i

/-- Count in CAN_CNT[k] (Table 12-10). -/
def State.canCnt (s : State) (c k : Nat) : State := s.bump Fx.CAN_CNT_COUNT 1 c k

/-! ### State and its report (R427, R431) -/

/-- The CAN clock runs: PLL_CAN is locked and the domain is not in retention (Table 15-3, R502). -/
def State.canClk (s : State) : Bool := s.pll pllCan && decide (s.pwr.state ≤ 1)

/-- The set-up of a controller. -/
def State.canListen (s : State) (c : Nat) : Bool := s.rb Fx.CAN_CFG_LISTEN c || (s.canOf c).forced
/-- Internal loopback: out of service with CAN_CFG.LOOP. -/
def State.canLoop (s : State) (c : Nat) : Bool := (s.canOf c).st == 6 && s.rb Fx.CAN_CFG_LOOP c

/-- CAN_STS. -/
def State.canSts (s : State) (c : Nat) : Nat :=
  let x := s.canOf c
  b2n (decide (96 ≤ x.tec) || decide (96 ≤ x.recC)) * 32 + b2n x.forced * 16 + b2n (s.canListen c) * 8 + x.st

/-- CAN_ECNT. -/
def State.canEcnt (s : State) (c : Nat) : Nat := min (s.canOf c).recC 255 * 65536 + min (s.canOf c).tec 256

/-- The exchange area of a controller in the pool. -/
def State.canBase (s : State) (c : Nat) : Nat := s.rf Fx.CAN_XCH_BASE_BASE c * 64

/-- A write of the device in the exchange area (R441). -/
def State.canPool (s : State) (c off : Nat) (d : List Byte) : State := s.poolWrProt (s.canBase c + off) d

/-- R431: a change of CAN_STS bits 5:0 is reported to the host and to the bound cluster (R439). -/
def State.canTell (s : State) (c : Nat) : State :=
  let v := s.canSts c
  if (s.canOf c).told = v then s
  else
    let s1 := (s.canUpd c fun x => { x with told := v }).post 2 0x21 (14 + c) v (s.canEcnt c)
    if !s.rb Fx.CAN_XCH_CFG_EN c then s1
    else
      let n := ((s.canOf c).x.stateSeq + 1) % 2 ^ 32
      let st := v + min (s.canOf c).tec 255 * 65536 + min (s.canOf c).recC 255 * 2 ^ 24
      ((s1.canPool c 0x10 (leBytes 4 st)).canPool c 0x14 (leBytes 4 n)).canUpd c fun x =>
        { x with x := { x.x with stateSeq := n } }

/-- The error state of the counters (R427). -/
def errState (tec recC : Nat) : Nat := if 255 < tec then 4 else if 128 ≤ tec ∨ 128 ≤ recC then 3 else 2

/-! ### Completions (R426, Table 12-7) -/

/-- The event element of a completion: Table 12-6. The stamp fields of one that has none are free values. -/
def canEvent (words : List Word) (b result status : Nat) (late brse : Bool) (tb : Nat) (stamp : Option Nat) (free : Word) : List Word :=
  let w1 := words.getD 1 0#32
  let brs := w1.getLsbD 30 && (brse || result != 0)
  let ns := match stamp with | some t => t / 256 | none => free.toNat
  let fr := match stamp with | some t => t % 256 | none => free.toNat % 256
  [words.getD 0 0#32,
   BitVec.ofNat 32 (b2n (w1.getLsbD 31) * 2 ^ 31 + b2n brs * 2 ^ 30 + b2n late * 2 ^ 29 + result * 2 ^ 26
     + b2n stamp.isSome * 2 ^ 23 + tb * 2 ^ 20 + bits w1 19 16 * 65536 + bits w1 15 8 * 256 + status),
   BitVec.ofNat 32 ns, BitVec.ofNat 32 (b * 2 ^ 27 + fr)]

/-- Write an event element, or lose it in a full FIFO (DEDUCED, log entry 134). -/
def State.canPost (s : State) (c : Nat) (e : List Word) : State :=
  let f := (s.canOf c).ev
  if 32 ≤ f.fill then s.canCnt c 10
  else s.canUpd c fun x => { x.putWords (evAt ((f.get + f.fill) % 32)) e with ev := { f with fill := f.fill + 1 } }

/-- A completion of buffer `b` with these words: its event, then the buffer is free. -/
def State.canDone (s : State) (c b : Nat) (words : List Word) (result status : Nat) (late : Bool) (stamp : Option Nat) : State :=
  let e := canEvent words b result status late (s.rb Fx.CAN_CFG_BRSE c) (s.rf Fx.CAN_CFG_TS_TB c) stamp s.freeVal
  let s1 := (if stamp.isNone then s.freeNext else s).canPost c e
  (if result = 0 then s1.canCnt c 1 else s1).canUpd c fun x => { x with pend := x.pend.filter fun p => p.b != b }

/-- Buffer `b` is pending. -/
def Can.pending? (c : Can) (b : Nat) : Option CanBuf := c.pend.find? fun p => p.b == b

/-- The buffer is in an attempt. -/
def Can.trying (c : Can) (b : Nat) : Bool := match c.attempt with | some t => t.b == b | none => false

/-- Complete every pending buffer that `which` names with ABORTED, DROPPED. -/
def State.canAbort (s : State) (c : Nat) (which : CanBuf → Bool) : State :=
  ((s.canOf c).pend.filter which).foldl (fun s p => s.canDone c p.b p.words 4 0x05 false none) s

/-! ### Requests and cancels (R420, R423) -/

/-- R420: the words of a buffer are invalid. -/
def canBufBad (fdoe : Bool) (w : List Word) : Bool :=
  let a := w.getD 0 0#32
  let b := w.getD 1 0#32
  a.getLsbD 29 || b.getLsbD 27 || bits b 23 20 != 0 || bits b 7 0 != 0 || w.getD 3 0#32 != 0#32
    || (a.getLsbD 30 && b.getLsbD 31) || (b.getLsbD 31 && !fdoe) || (b.getLsbD 30 && !b.getLsbD 31)
    || (!a.getLsbD 31 && bits a 17 0 != 0)

/-- A request of a buffer that is not pending, with these words. -/
def State.canAccept (s : State) (c b : Nat) (w : List Word) : State :=
  let w1 := w.getD 1 0#32
  let tb := bits w1 26 24
  let launch := if w1.getLsbD 28 then some (tb, extendNs (s.tbNs tb) (w.getD 2 0#32).toNat) else none
  let x := s.canOf c
  if x.st = 6 ∧ s.rb Fx.CAN_CFG_LOOP c = false then s.canDone c b w 4 0x05 false none
  else if canBufBad (s.rb Fx.CAN_CFG_FDOE c) w then s.canDone c b w 5 0x01 false none
  else if launch.isSome ∧ s.tbOos tb = true then s.canDone c b w 4 0x0B false none
  else
    match s.launchRefuses launch with
    | some st => (s.countLaunch launch st).canDone c b w 4 st false none
    | none =>
      if w1.getLsbD 29 ∧ x.st = 4 then s.canDone c b w 4 0x05 false none
      else s.canUpd c fun x => { x with pend := x.pend ++ [⟨b, w, launch, launch.isNone, false, false⟩] }

/-- A request of a buffer through CAN_TXREQ. -/
def State.canRequest (s : State) (c b : Nat) : State :=
  if ((s.canOf c).pending? b).isSome then s.canCnt c 16 else s.canAccept c b ((s.canOf c).words (txAt b) 20)

/-- A cancel: the first case of R423 that applies. -/
def State.canCancel (s : State) (c b : Nat) : State :=
  match (s.canOf c).pending? b with
  | none => s
  | some p =>
    let mark := fun (f : CanBuf → CanBuf) => s.canUpd c fun x => { x with pend := x.pend.map fun q => if q.b = b then f q else q }
    match (s.canOf c).attempt with
    | some t =>
      if t.b ≠ b then s.canDone c b p.words 1 0x05 false none
      else if t.won then mark fun q => { q with cancelLate := true } else mark fun q => { q with cancel := true }
    | none => s.canDone c b p.words 1 0x05 false none

/-- Apply an operation for each bit of a word, ascending. -/
def State.forBits (s : State) (v : Word) (f : State → Nat → State) : State :=
  (List.range 32).foldl (fun s b => if v.getLsbD b then f s b else s) s

/-- CAN_TX_REQUEST. -/
def execCanTxRequest (m : Master) (c : Fin 4) (b : Fin 32) (s : State) : Out State :=
  .next (s.cmdWrite m .CAN_TXREQ c 0 (BitVec.ofNat 32 (2 ^ b.val)) false fun s => s.canRequest c b)
/-- CAN_TX_CANCEL. -/
def execCanTxCancel (m : Master) (c : Fin 4) (b : Fin 32) (s : State) : Out State :=
  .next (s.cmdWrite m .CAN_TXCAN c 0 (BitVec.ofNat 32 (2 ^ b.val)) false fun s => s.canCancel c b)

/-! ### Reception (R416 to R419) -/

/-- Data bytes of a DLC (R409). -/
def dlcLen (fdf : Bool) (d : Nat) : Nat :=
  if d ≤ 8 then d
  else if !fdf then 8
  else match d with | 9 => 12 | 10 => 16 | 11 => 20 | 12 => 24 | 13 => 32 | 14 => 48 | _ => 64

/-- A filter matches: mask, range or pair (Table 12-3). -/
def filterHit (mode id a b : Nat) : Bool :=
  match mode with
  | 1 => Nat.land id b == Nat.land a b
  | 2 => decide (a ≤ id) && decide (id ≤ b)
  | 3 => id == a || id == b
  | _ => false

/-- The first element that decides, and its action, from element `i` on. -/
def State.canMatch (s : State) (c : Nat) (m : CanMsg) : Nat → Nat → Option (Nat × Nat)
  | 0, _ => none
  | n + 1, i =>
    let x := s.canOf c
    let w := if m.xtd then x.word (64 + 2 * i) else x.word i
    let v := if m.xtd then x.word (65 + 2 * i) else w
    let hit := if m.xtd then filterHit (bits v 1 0) m.id.toNat (bits w 31 3) (bits v 31 3)
      else filterHit (bits w 1 0) (m.id.toNat / 2 ^ 18) (bits w 31 21) (bits w 15 5)
    if hit then some (i, if m.xtd then bits w 2 0 else bits w 4 2) else s.canMatch c m n (i + 1)

/-- Where a frame goes: filter index, NOMATCH, and 1 FIFO 0, 2 FIFO 1, 3 the high-priority buffer; anything else rejects it. -/
def State.canRoute (s : State) (c : Nat) (m : CanMsg) : Nat × Bool × Nat :=
  if m.rtr && s.rb (if m.xtd then Fx.CAN_ACC_RMT_X else Fx.CAN_ACC_RMT_B) c then (0, false, 4)
  else
    match s.canMatch c m (s.rf (if m.xtd then Fx.CAN_ACC_NEXT else Fx.CAN_ACC_NSTD) c) 0 with
    | some (i, act) => (i, false, act)
    | none => (0, true, match s.rf (if m.xtd then Fx.CAN_ACC_NM_X else Fx.CAN_ACC_NM_B) c with | 0 => 1 | 1 => 2 | _ => 4)

/-- Four bytes of a list as a word, missing ones 0. -/
def wordAt (d : List Byte) (i : Nat) : Word := BitVec.ofNat 32 (leNat ((d.drop (4 * i)).take 4))

/-- A receive element: Table 12-5. The stamp fields of an invalid stamp are free values. -/
def canElem (m : CanMsg) (filt : Nat) (noHit coll : Bool) (fifo tb : Nat) (stamp : Option Nat) (free : Word) : List Word :=
  let len := if m.rtr then 0 else dlcLen m.fdf m.dlc.toNat
  let ns := match stamp with | some t => t / 256 | none => free.toNat
  let fr := match stamp with | some t => t % 256 | none => free.toNat % 256
  [BitVec.ofNat 32 (b2n m.xtd * 2 ^ 31 + b2n m.rtr * 2 ^ 30 + b2n m.esi * 2 ^ 29 + m.id.toNat),
   BitVec.ofNat 32 (b2n m.fdf * 2 ^ 31 + b2n m.brs * 2 ^ 30 + b2n noHit * 2 ^ 29 + b2n coll * 2 ^ 28 + fifo * 2 ^ 27 + tb * 2 ^ 24
     + b2n stamp.isSome * 2 ^ 23 + filt * 65536 + m.dlc.toNat),
   BitVec.ofNat 32 ns, BitVec.ofNat 32 fr] ++ (List.range 16).map (wordAt (m.data.take len))

/-- Store an element where it goes. -/
def State.canStore (s : State) (c : Nat) (m : CanMsg) (r : Nat × Bool × Nat) (stamp : Option Nat) : State :=
  let tb := s.rf Fx.CAN_CFG_TS_TB c
  let x := s.canOf c
  let s0 := if stamp.isNone then s.freeNext else s
  let note := fun (f : Nat) => if s.rb Fx.CAN_XCH_CFG_EN c then [f] else []
  match r.2.2 with
  | 1 =>
    if 64 ≤ x.f0.fill then s.canCnt c 8
    else (s0.canCnt c 0).canUpd c fun y =>
      { y.putWords (rxAt 0 ((x.f0.get + x.f0.fill) % 64)) (canElem m r.1 r.2.1 false 0 tb stamp s.freeVal) with
        f0 := { x.f0 with fill := x.f0.fill + 1 }, x := { y.x with order := y.x.order ++ note 0 } }
  | 2 =>
    if 64 ≤ x.f1.fill then s.canCnt c 8
    else (s0.canCnt c 0).canUpd c fun y =>
      { y.putWords (rxAt 1 ((x.f1.get + x.f1.fill) % 64)) (canElem m r.1 r.2.1 false 1 tb stamp s.freeVal) with
        f1 := { x.f1 with fill := x.f1.fill + 1 }, x := { y.x with order := y.x.order ++ note 1 } }
  | 3 =>
    let s1 := if x.hpFull then (s0.canCnt c 0).canCnt c 9 else s0.canCnt c 0
    s1.canUpd c fun y =>
      { y.putWords hpAt (canElem m r.1 r.2.1 x.hpFull 0 tb stamp s.freeVal) with
        hpFull := true, hpColl := x.hpFull, x := { y.x with hpDue := s.rb Fx.CAN_XCH_CFG_EN c } }
  | _ => s

/-- REC after a frame received without error, under ISO 11898-1 (log entry 40): one less up to 127, above it a value from 119 to 127. -/
def recAfter (recC : Nat) (free : Word) : Nat := if 127 < recC then 119 + free.toNat % 9 else recC - 1

/-- A stamp of a start of frame at `ts` in 1/256 ns, corrected (R230); none while the time base is out of service (R231)
(DEDUCED, log entry 138). -/
def State.canStamp (s : State) (c ts : Nat) (tx : Bool) : Option Nat :=
  if s.tbOos (s.rf Fx.CAN_CFG_TS_TB c) then none
  else
    let d := sgn24 (s.rf Fx.TB_CAL_CAN_DELAY c)
    some (if tx then Int.ofNat ts + d else Int.ofNat ts - d).toNat

/-- A start of frame that the controller observes or sends: a release by the pair unit takes effect (R434). -/
def State.canSof (s : State) (c : Nat) : State :=
  if (s.canOf c).relDue then (s.canUpd c fun x => { x with forced := false, relDue := false }).canTell c else s

/-- CAN_FRAME_RECEIVE: a valid frame on the bus, or an own frame in the internal loop, and its start of frame. -/
def execCanFrameReceive (c : Fin 4) (own : Bool) (m : CanMsg) (ts : Nat) (s : State) : Out State :=
  let x := s.canOf c
  if !s.canClk || x.st ≤ 1 || (x.st == 6 && !(own && s.rb Fx.CAN_CFG_LOOP c)) || (m.fdf && m.rtr) then .next s
  else
    let s0 := s.canSof c
    let s1 := s0.canStore c m (s0.canRoute c m) (s0.canStamp c ts false)
    if own || s0.canListen c || !(x.st == 2 || x.st == 3) then .next s1
    else
      let s2 := s1.canUpd c fun y => { y with recC := recAfter y.recC s1.freeVal }
      let s3 := (if 127 < x.recC then s2.freeNext else s2).canUpd c fun y => { y with st := errState y.tec y.recC }
      .next (s3.canTell c)

/-! ### Transmission (R421 to R425) -/

/-- The arbitration order of an identifier as the bus compares it: base identifier, RTR or SRR, IDE, extension, RTR. -/
def arbKey (w0 : Word) : Nat :=
  let base := bits w0 28 18
  let rtr := b2n (w0.getLsbD 30)
  if w0.getLsbD 31 then base * 2 ^ 21 + 2 ^ 20 + 2 ^ 19 + bits w0 17 0 * 2 + rtr else base * 2 ^ 21 + rtr * 2 ^ 20

/-- Of two pending buffers, the one that is sent first. -/
def canFirst (byNumber : Bool) (a b : CanBuf) : Bool :=
  if byNumber then a.b ≤ b.b
  else
    let x := arbKey (a.words.getD 0 0#32)
    let y := arbKey (b.words.getD 0 0#32)
    if x = y then a.b ≤ b.b else x < y

/-- The buffer is eligible now (R421, R422). -/
def State.canEligible (s : State) (p : CanBuf) : Bool :=
  p.ripe && (match p.launch with | some (tb, _) => !s.tbOos tb | none => true)

/-- The buffer that the controller sends. -/
def State.canPick (s : State) (c : Nat) : Option CanBuf :=
  ((s.canOf c).pend.filter s.canEligible).foldl (fun b p =>
    match b with
    | none => some p
    | some q => if canFirst (s.rb Fx.CAN_CFG_TXP c) q p then some q else some p) none

/-- Row 3 of Table 06-5: the buffer can no longer start by L + MAX_LATE (DEDUCED, log entry 208). -/
def State.canMissed (s : State) (c : Nat) (p : CanBuf) : Bool :=
  match p.launch with
  | some (tb, l) => !s.tbOos tb && s.maxLate tb != 0 &&
      decide ((l + Int.ofNat (s.maxLate tb)) * 256 < Int.ofNat (s.tbTime tb / 16777216) + sgn24 (s.rf Fx.TB_CAL_CAN_DELAY c))
  | none => false

/-- Complete the pending buffers that have missed their launch, those in an attempt apart. -/
def State.canExamine (s : State) (c : Nat) : State :=
  ((s.canOf c).pend.filter fun p => s.canMissed c p && !(s.canOf c).trying p.b).foldl (fun s p =>
    (s.countLaunch p.launch 0x08).canDone c p.b p.words 4 0x08 false none) s

/-- The controller goes out of service now: every pending buffer completes ABORTED (R435). -/
def State.canOut (s : State) (c : Nat) : State :=
  ((s.canUpd c fun x => { x with st := 6, attempt := none, oosDue := false }).canAbort c fun _ => true).canTell c

/-- The end of a frame of the controller's own: what has waited for it takes effect (R434, R435). -/
def State.canEnd (s : State) (c : Nat) : State :=
  let s1 := s.canUpd c fun x => { x with attempt := none }
  let s2 := if (s1.canOf c).forceDue then (s1.canUpd c fun x => { x with forced := true, forceDue := false, relDue := false }).canTell c else s1
  if (s2.canOf c).oosDue then s2.canOut c else s2

/-- An attempt has ended without success: cancelled, one-shot with this result, missed, or pending again (DEDUCED, log entry 218). -/
def State.canRetry (s : State) (c : Nat) (p : CanBuf) (result : Nat) (late : Bool) : State :=
  if p.cancel ∨ (late = true ∧ p.cancelLate = true) then s.canDone c p.b p.words 1 0x05 false none
  else if (p.words.getD 1 0#32).getLsbD 29 then s.canDone c p.b p.words result 0x05 false none
  else if s.canMissed c p then (s.countLaunch p.launch 0x08).canDone c p.b p.words 4 0x08 false none
  else s

/-- CAN_ARBITRATION: with no attempt, the bus allows a start of frame; in an attempt, its arbitration field ends, won or lost. `ecc` is an
uncorrectable RAM error on the buffer read that persists (Table 12-7) (DESIGN CHOICE, log entry 217). -/
def execCanArbitration (c : Fin 4) (won ecc : Bool) (s : State) : Out State :=
  let x := s.canOf c
  let mute := s.rb Fx.CAN_CFG_LISTEN c || (x.forced && !x.relDue)
  if !s.canClk || !(x.st == 2 || x.st == 3 || s.canLoop c) || (mute && !s.canLoop c && x.attempt.isNone) then .next s
  else
    match x.attempt with
    | none =>
      if s.pwr.state ≠ 0 then .next s else
      let s1 := s.canExamine c
      match s1.canPick c with
      | none => .next s1
      | some p => if ecc then .next (s1.canDone c p.b p.words 4 0x04 false none) else .next (((s1.canSof c).canUpd c fun x => { x with attempt := some ⟨p.b, false⟩ }).emit (.canFrame c p.words))
    | some t =>
      if t.won then .next s
      else if won then .next (s.canUpd c fun x => { x with attempt := some ⟨t.b, true⟩ })
      else
        let s1 := s.canCnt c 2
        match x.pending? t.b with
        | none => .next (s1.canEnd c)
        | some p => .next ((s1.canRetry c p 2 false).canEnd c)

/-- CAN_TX_COMPLETE: the frame has been acknowledged without error; its start of frame, and the delay measured (R412). TEC falls by
one, under ISO 11898-1 (log entry 40) (DEDUCED, log entry 138) (DEDUCED, log entry 218). -/
def execCanTxComplete (c : Fin 4) (ts : Nat) (tdcv : BitVec 7) (s : State) : Out State :=
  let x := s.canOf c
  match x.attempt with
  | none => .next s
  | some t =>
    if !t.won then .next s
    else
      match x.pending? t.b with
      | none => .next (s.canEnd c)
      | some p =>
        let stamp := s.canStamp c ts true
        let late := match p.launch with
          | some (tb, l) => decide ((l + Int.ofNat (s.rf Fx.TB_LAUNCH_CFG_TOL tb)) * 256
              < (Int.ofNat ts + sgn24 (s.rf Fx.TB_CAL_CAN_DELAY c)))
          | none => false
        let s1 := match p.launch with
          | some (tb, _) => if late then s.bump Fx.TB_LATE_CNT_COUNT 1 tb else s
          | none => s
        let w1 := p.words.getD 1 0#32
        let s2 := if w1.getLsbD 30 ∧ s.rb Fx.CAN_CFG_BRSE c = true ∧ s.rb Fx.CAN_DBT_TDC c = true then
            s1.canUpd c fun y => { y with tdcv := tdcv.toNat }
          else s1
        let s3 := s2.canDone c p.b p.words 0 (if late then 0x07 else 0) p.cancelLate stamp
        let s4 := if x.st = 6 then s3 else s3.canUpd c fun y => { y with tec := y.tec - 1, st := errState (y.tec - 1) y.recC }
        .next ((s4.canEnd c).canTell c)

/-! ### Errors, bus-off and recovery (R427 to R432) -/

/-- The counter of an error. -/
def errCnt : CanErr → Nat
  | .bit => 3
  | .stuff => 4
  | .form => 5
  | .ack => 6
  | .crc => 7
  | .res => 5

/-- Entry into BUS_OFF: R429 (DEDUCED, log entry 139). -/
def State.canBusOff (s : State) (c : Nat) : State :=
  let s1 := (s.canUpd c fun x => { x with st := 4, attempt := none, busOffAt := s.tbNs 0 }).canCnt c 11
  s1.canAbort c fun p => (p.words.getD 1 0#32).getLsbD 29

/-- CAN_ERROR: a detected error, and what it adds to TEC (of a transmitter) or REC under ISO 11898-1; `tec255` when TEC has passed
255. A recessive res bit is a protocol exception unless CAN_CFG.PXHD is 1 (R432)
(PRESUMED, log entry 40; DEDUCED, log entry 135). -/
def execCanError (c : Fin 4) (kind : CanErr) (add : Fin 17) (s0 : State) : Out State :=
  let s := s0.canSof c
  let x := s.canOf c
  if !s0.canClk || !(x.st == 2 || x.st == 3) then .next s0
  else if kind = .res ∧ s.rb Fx.CAN_CFG_PXHD c = false then
    .next (((((s.canCnt c 13).canEnd c).canUpd c fun y => { y with st := if y.st = 6 then 6 else 1 })).canTell c)
  else
    let s1 := s.canCnt c (errCnt kind)
    if s.canListen c ∧ x.attempt = none then .next (s1.canCnt c 14)
    else
      let s2 := s1.canUpd c fun y =>
        if x.attempt.isSome then { y with tec := y.tec + add.val } else { y with recC := y.recC + add.val }
      let s3 := match x.attempt with
        | some t => match x.pending? t.b with
          | some p => (s2.canRetry c p 3 true).canEnd c
          | none => s2.canEnd c
        | none => s2
      let s4 := s3.canExamine c
      let y := s4.canOf c
      if y.st = 6 then .next (s4.canTell c)
      else if errState y.tec y.recC = 4 then .next ((s4.canBusOff c).canTell c)
      else .next ((s4.canUpd c fun y => { y with st := errState y.tec y.recC }).canTell c)

/-- R430, R435, R497: the states in which CAN_CMD is accepted. -/
def State.canCmdBad (s : State) (c : Nat) (v : Word) : Bool :=
  let st := (s.canOf c).st
  let n := b2n (v.getLsbD 0) + b2n (v.getLsbD 1) + b2n (v.getLsbD 2)
  decide (1 < n) || (v.getLsbD 0 && st != 4) || (v.getLsbD 1 && (st == 0 || st == 6)) || (v.getLsbD 2 && (st != 6 || s.pllStopped pllCan))

/-- The controller integrates with its counters at 0 (R427, R428) (DEDUCED, log entry 203). -/
def State.canIntegrate (s : State) (c : Nat) : State :=
  (s.canUpd c fun x => { x with st := 1, tec := 0, recC := 0 }).canTell c

/-- The effect of CAN_CMD. -/
def State.canOp (s : State) (c : Nat) (v : Word) : State :=
  if v.getLsbD 0 then (s.canUpd c fun x => { x with st := 5 }).canTell c
  else if v.getLsbD 1 then
    if (s.canOf c).attempt.isSome then s.canUpd c fun x => { x with oosDue := true } else s.canOut c
  else if v.getLsbD 2 then (s.canAbort c fun _ => true).canUpd c (fun x => { x with attempt := none }) |>.canIntegrate c
  else s

/-- A write of CAN_CMD. -/
def State.canCmd (s : State) (m : Master) (c : Nat) (v : Word) : State :=
  s.cmdWrite m .CAN_CMD c 0 v (s.canCmdBad c v) fun s => s.canOp c v

/-- CAN_RECOVER. -/
def execCanRecover (m : Master) (c : Fin 4) (s : State) : Out State := .next (s.canCmd m c 1#32)
/-- CAN_OUT_OF_SERVICE. -/
def execCanOutOfService (m : Master) (c : Fin 4) (s : State) : Out State := .next (s.canCmd m c 2#32)
/-- CAN_IN_SERVICE. -/
def execCanInService (m : Master) (c : Fin 4) (s : State) : Out State := .next (s.canCmd m c 4#32)

/-- CAN_AUTO_RECOVERY: WAIT_MS after the entry into BUS_OFF, measured on TB0. -/
def execCanAutoRecovery (c : Fin 4) (s : State) : Out State :=
  let w := s.rf Fx.CAN_BOFF_WAIT_MS c
  if (s.canOf c).st == 4 && w != 0 && decide ((s.canOf c).busOffAt + w * 1000000 ≤ s.tbNs 0) then
    .next (((s.canUpd c fun x => { x with st := 5 }).canCnt c 12).canTell c)
  else .next s

/-- CAN_RECOVERY_COMPLETE: after 128 occurrences of 11 recessive bits. -/
def execCanRecoveryComplete (c : Fin 4) (s : State) : Out State :=
  if s.canClk && (s.canOf c).st == 5 then .next (s.canIntegrate c) else .next s

/-- CAN_INTEGRATION_COMPLETE: 11 recessive bits. -/
def execCanIntegrationComplete (c : Fin 4) (s : State) : Out State :=
  if s.canClk && (s.canOf c).st == 1 then .next ((s.canUpd c fun x => { x with st := errState x.tec x.recC }).canTell c) else .next s

/-- The pair unit forces listen-only, at the end of an own frame, or releases it, at the next start of frame (R434)
(DEDUCED, log entry 137). -/
def State.canForce (s : State) (c : Nat) (on : Bool) : State :=
  if on then
    if (s.canOf c).attempt.isSome then s.canUpd c fun x => { x with forceDue := true }
    else (s.canUpd c fun x => { x with forced := true, relDue := false }).canTell c
  else s.canUpd c fun x => { x with forceDue := false, relDue := x.forced }

/-! ### Core exchange (R436 to R440) -/

/-- The elements of the receive ring. -/
def State.canRxn (s : State) (c : Nat) : Nat := 16 * 2 ^ s.rf Fx.CAN_XCH_CFG_RXN c

/-- A 32-bit word of the exchange area. -/
def State.canXw (s : State) (c off : Nat) : Nat := leNat (s.poolRd (s.canBase c + off) 4)

/-- One entry of the request ring (R437). -/
def State.canEntry (s : State) (c : Nat) (v : Nat) : State :=
  let op := v / 2 ^ 30
  let b := v % 32
  if v / 32 % 2 ^ 25 ≠ 0 ∨ op = 0 ∨ (op = 3 ∧ b ≠ 0) then s.canCnt c 15
  else if op = 3 then
    if (s.canOf c).st = 4 then (s.canUpd c fun x => { x with st := 5 }).canTell c else s.canCnt c 15
  else if op = 2 then s.canCancel c b
  else
    let w := (List.range 20).map fun i => BitVec.ofNat 32 (s.canXw c (0x3C0 + 80 * b + 4 * i))
    if ((s.canOf c).pending? b).isSome then
      ((s.canCnt c 16).freeNext).canPost c
        (canEvent w b 5 0x05 false (s.rb Fx.CAN_CFG_BRSE c) (s.rf Fx.CAN_CFG_TS_TB c) none s.freeVal)
    else (s.canUpd c fun x => x.putWords (txAt b) w).canAccept c b w

/-- Take `n` request entries in order (DEDUCED, log entry 136). -/
def State.canTake (s : State) (c : Nat) : Nat → State
  | 0 => s
  | n + 1 =>
    let i := (s.canOf c).x.txqCons
    let s1 := s.canUpd c fun x => { x with x := { x.x with txqCons := (i + 1) % 2 ^ 32 } }
    (s1.canEntry c (s.canXw c (0x40 + 4 * (i % 64)))).canTake c n

/-- CAN_EXCHANGE_POLL: the cluster's words are read and its request entries taken, at most the ring's 64 in one poll
(DEDUCED, log entry 140). -/
def execCanExchangePoll (c : Fin 4) (s : State) : Out State :=
  if !s.rb Fx.CAN_XCH_CFG_EN c || !s.lock || (s.canOf c).st == 0 then .next s
  else
    let s0 := if s.bankSt (poolBank (s.canBase c)) = 0 then s else s.bump Fx.MEM_OFF_ACC_COUNT
    let rc := s0.canXw c 0x20
    let s1 := s0.canUpd c fun x =>
      let used := (rc + 2 ^ 32 - x.x.rxCons) % 2 ^ 32
      { x with x := { x.x with rxCons := rc, since := x.x.since.drop used, evCons := s0.canXw c 0x24, hpAck := s0.canXw c 0x2C,
                               stateAck := s0.canXw c 0x30 } }
    let n := (s1.canXw c 0x28 + 2 ^ 32 - (s1.canOf c).x.txqCons) % 2 ^ 32
    if n = 0 then .next s1
    else
      let s2 := s1.canTake c (min n 64)
      .next (s2.canPool c 0x08 (leBytes 4 (s2.canOf c).x.txqCons))

/-- A list of words as bytes. -/
def bytesOf (w : List Word) : List Byte := w.flatMap fun x => leBytes 4 x.toNat

/-- CAN_RING_COPY: an element is copied and its RAM entry freed; `ecc` when an uncorrectable RAM error discards it
(DEDUCED, log entry 141) (DESIGN CHOICE, log entry 217). -/
def execCanRingCopy (c : Fin 4) (what : CanElem) (ecc : Bool) (s : State) : Out State :=
  let x := s.canOf c
  if !s.rb Fx.CAN_XCH_CFG_EN c then .next s
  else
    match what with
    | .rx =>
      match x.x.order with
      | [] => .next s
      | f :: rest =>
        let n := s.canRxn c
        let g := if f = 0 then x.f0 else x.f1
        let h : CanFifo := ⟨(g.get + 1) % 64, g.fill - 1⟩
        let freed := fun (s : State) => s.canUpd c fun y =>
          { y with f0 := if f = 0 then h else y.f0, f1 := if f = 0 then y.f1 else h, x := { y.x with order := rest } }
        if ecc then .next ((freed s).canCnt c 8)
        else if n ≤ (x.x.rxProd + 2 ^ 32 - x.x.rxCons) % 2 ^ 32 then .next s
        else
          let p := (x.x.rxProd + 1) % 2 ^ 32
          let s1 := (s.canPool c (0xDC0 + 80 * (x.x.rxProd % n)) (bytesOf (x.words (rxAt f g.get) 20))).canPool c 0 (leBytes 4 p)
          .next ((freed s1).canUpd c fun y => { y with x := { y.x with rxProd := p, since := y.x.since ++ [s.tbNs 0] } })
    | .ev =>
      if x.ev.fill = 0 then .next s
      else
        let h : CanFifo := ⟨(x.ev.get + 1) % 32, x.ev.fill - 1⟩
        if ecc then .next ((s.canUpd c fun y => { y with ev := h }).canCnt c 10)
        else if 32 ≤ (x.x.evProd + 2 ^ 32 - x.x.evCons) % 2 ^ 32 then .next s
        else
          let p := (x.x.evProd + 1) % 2 ^ 32
          let s1 := (s.canPool c (0x1C0 + 16 * (x.x.evProd % 32)) (bytesOf (x.words (evAt x.ev.get) 4))).canPool c 4 (leBytes 4 p)
          .next (s1.canUpd c fun y => { y with ev := h, x := { y.x with evProd := p } })
    | .hp =>
      if !x.x.hpDue then .next s
      else
        let done := fun (s : State) => s.canUpd c fun y => { y with hpFull := false, hpColl := false, x := { y.x with hpDue := false } }
        if ecc then .next ((done s).canCnt c 8)
        else
          let p := (x.x.hpSeq + 1) % 2 ^ 32
          let s1 := (s.canPool c 0x140 (bytesOf (x.words hpAt 20))).canPool c 0xC (leBytes 4 p)
          .next ((done s1).canUpd c fun y => { y with x := { y.x with hpSeq := p } })

/-! ### Acknowledgements and the RAM window -/

/-- The element named lies between GET and the last filled one. -/
def CanFifo.names (f : CanFifo) (size i : Nat) : Bool := decide ((i + size - f.get) % size < f.fill)
/-- Free the elements up to the one named. -/
def CanFifo.ack (f : CanFifo) (size i : Nat) : CanFifo := ⟨(i + 1) % size, f.fill - ((i + size - f.get) % size + 1)⟩

/-- CAN_RXF_ACK. -/
def State.canRxAck (s : State) (m : Master) (c f i : Nat) : State :=
  let x := s.canOf c
  let g := if f = 0 then x.f0 else x.f1
  s.cmdWrite m .CAN_RXF_ACK c f (BitVec.ofNat 32 i) (s.rb Fx.CAN_XCH_CFG_EN c || !g.names 64 i) fun s =>
    s.canUpd c fun y => if f = 0 then { y with f0 := g.ack 64 i } else { y with f1 := g.ack 64 i }
def execCanRxfAck (m : Master) (c : Fin 4) (f : Fin 2) (i : Fin 64) (s : State) : Out State := .next (s.canRxAck m c f i)

/-- CAN_EVF_ACK. -/
def State.canEvAck (s : State) (m : Master) (c i : Nat) : State :=
  let g := (s.canOf c).ev
  s.cmdWrite m .CAN_EVF_ACK c 0 (BitVec.ofNat 32 i) (s.rb Fx.CAN_XCH_CFG_EN c || !g.names 32 i) fun s =>
    s.canUpd c fun y => { y with ev := g.ack 32 i }
def execCanEvfAck (m : Master) (c : Fin 4) (i : Fin 32) (s : State) : Out State := .next (s.canEvAck m c i)

/-- CAN_HP_ACK, with its ACK bit. -/
def State.canHpAck (s : State) (m : Master) (c : Nat) (ack : Bool) : State :=
  s.cmdWrite m .CAN_HP_ACK c 0 (BitVec.ofNat 32 (b2n ack)) (s.rb Fx.CAN_XCH_CFG_EN c) fun s =>
    if ack then s.canUpd c fun y => { y with hpFull := false, hpColl := false } else s
def execCanHpAck (m : Master) (c : Fin 4) (ack : Bool) (s : State) : Out State := .next (s.canHpAck m c ack)

/-- The window word `i` on the present page is reserved RAM (Table 12-2). -/
def ramRsv (i : Nat) : Bool := (916 ≤ i && i < 1024) || 3584 ≤ i

/-- R415: a write of RAM word `i` puts a reserved encoding into a filter element, or reaches a pending transmit buffer
(DEDUCED, log entry 133). -/
def State.ramBad (s : State) (c i : Nat) (v : Word) : Bool :=
  if i < 64 then
    bits v 20 16 != 0 || (bits v 1 0 == 0 && bits v 4 2 != 0) || (bits v 1 0 != 0 && !(1 ≤ bits v 4 2 && bits v 4 2 ≤ 4))
  else if i < 128 then (if i % 2 = 0 then 5 ≤ bits v 2 0 else v.getLsbD 2)
  else if i < 768 then ((s.canOf c).pending? ((i - 128) / 20)).isSome
  else false

/-- The RAM word that window word `j` shows. -/
def State.ramIndex (s : State) (c j : Nat) : Nat := s.rf Fx.CAN_RAM_PAGE_PAGE c * 512 + j

/-- A write through the window: R414, R415; UNMAPPED for reserved RAM, and while the RAM is not ON (R491). -/
def State.ramWrite (s : State) (m : Master) (c j : Nat) (v : Word) : State :=
  let i := s.ramIndex c j
  if s.tph.fatal then s
  else if ramRsv i || s.bankSt (48 + c) != 0 then s.reject m .unmapped (RegId.addr .CAN_RAM_WIN c j) v
  else s.cmdWrite m .CAN_RAM_WIN c j v (s.ramBad c i v) fun s => s.canUpd c fun x => x.putWords i [v]

/-- A read through the window. -/
def State.ramRead (s : State) (c j : Nat) : Word :=
  let i := s.ramIndex c j
  if ramRsv i || s.bankSt (48 + c) != 0 then 0#32 else (s.canOf c).word i

/-- CAN_RAM_WRITE. -/
def execCanRamWrite (m : Master) (c : Fin 4) (j : Fin 512) (v : Word) (s : State) : Out State := .next (s.ramWrite m c j v)

/-! ### Launch times (R114, R233, R421) -/

/-- LAUNCH_TIME_REACHED: the launch time, less the lead, has been reached on a time base in service. -/
def State.atLaunch (s : State) (l : Option (Nat × Int)) (lead : Nat) : Bool :=
  match l with
  | none => true
  | some (tb, t) => !s.tbOos tb && decide (t ≤ Int.ofNat (s.tbNs tb + lead))

def execLaunchTimeReached (target : LaunchAt) (lead : Nat) (s : State) : Out State :=
  match target with
  | .output p cls =>
    match ((s.outOf p).queue cls).head? with
    | none => .next s
    | some e =>
      match s.frameOf e.fid with
      | none => .next s
      | some f => if s.atLaunch f.launch lead then .next (s.launchRipe p cls) else .next s
  | .can c b =>
    match (s.canOf c).pending? b with
    | none => .next s
    | some p =>
      if s.atLaunch p.launch lead then
        .next (s.canUpd c fun x => { x with pend := x.pend.map fun q => if q.b = b.val then { q with ripe := true } else q })
      else .next s

/-! ### Register checks, writes and values -/

/-- R411. -/
def nbtBad (v : Word) : Bool := decide (bits v 14 8 < bits v 6 0) || decide (1 + (bits v 22 15 + 1) + (bits v 14 8 + 1) < 8)
def dbtBad (v : Word) : Bool :=
  decide (bits v 11 8 < bits v 3 0) || decide (1 + (bits v 20 16 + 1) + (bits v 11 8 + 1) < 5) || (v.getLsbD 23 && 2 ≤ bits v 28 24)

/-- R436, and the range of RX_THR. -/
def State.xchBad (s : State) (c : Nat) (v : Word) : Bool :=
  let n := 16 * 2 ^ bits v 27 26
  bits v 23 16 == 0 || decide (n < bits v 23 16)
    || (v.getLsbD 31 && (!((List.range 16).any fun k => s.boundPort k (14 + c)) || decide (0x200000 < s.canBase c + 0xDC0 + 80 * n)))

/-- A write of CAN_XCH_CFG: at EN all indices and sequence words are 0. -/
def State.xchWrite (s : State) (c : Nat) (v : Word) : State :=
  let was := s.rb Fx.CAN_XCH_CFG_EN c
  let s1 := s.sg .CAN_XCH_CFG c 0 v
  if v.getLsbD 31 && !was then (s1.canUpd c fun x => { x with x := CanXch.reset }).canPool c 0 (List.replicate 24 0) else s1

/-- CAN_TXPEND. -/
def Can.pendMask (c : Can) : Nat := ((List.range 32).map fun b => if (c.pending? b).isSome then 2 ^ b else 0).sum

end Sys2Proof.Machine
end

