-- ==== Sys2Proof/Machine/Loop.lean ====
section
/-!
DEFINITION. The loop engine (spec/13): the pass, the control law of R452, coefficient writes, the command word, and the
mirrored state of a slot.
-/
namespace Sys2Proof.Machine
open Sys2Proof

/-! ### Units -/

def State.slotOf (s : State) (n : Nat) : LSlot := vget LSlot.reset s.lp.slots n
def State.slotUpd (s : State) (n : Nat) (f : LSlot → LSlot) : State :=
  { s with lp := { s.lp with slots := vupd s.lp.slots n f } }

/-- A register of a slot as a signed number. -/
def State.lreg (s : State) (r : RegId) (i : Nat) (j : Nat := 0) : Int := sgn32 (s.rg r i j).toNat

/-- lim of R452. -/
def lim (z lo hi : Int) : Int := if z < lo then lo else if hi < z then hi else z

/-- The device is in RUN and ON, not in the fatal state, and a tick has opened the present cycle. -/
def State.cycleOn (s : State) : Bool := s.lock && s.pwr.state == 0 && !s.tph.fatal && s.cyc.ticks != 0

/-- Table 08-3: a pair member runs passes while ACTIVE only (log entry 50) (DEDUCED, log entry 197). -/
def State.loopActive (s : State) : Bool := !s.rb Fx.PAIR_CFG_EN || s.pair.st == 3

/-! ### Coefficients (R457 to R459) -/

/-- The register of a coefficient and its indices. -/
def coefAt : LoopCoef → RegId × Nat × Nat
  | .gain n i => (.LOOP_GAIN, n, i)
  | .fric n j => (.LOOP_FRIC, n, j)
  | .cog k m => (.LOOP_COG, k, m)
  | .reg n r =>
    (match r with
      | .opt => .LOOP_OPT
      | .mode => .LOOP_MODE
      | .man => .LOOP_MAN
      | .ki => .LOOP_KI
      | .kd => .LOOP_KD
      | .kf => .LOOP_KF
      | .imin => .LOOP_IMIN
      | .imax => .LOOP_IMAX
      | .umin => .LOOP_UMIN
      | .umax => .LOOP_UMAX
      | .rmax => .LOOP_RMAX
      | .frX0 => .LOOP_FR_X0
      | .vdb => .LOOP_VDB
      | .cgX0 => .LOOP_CG_X0, n, 0)

/-- R458: a write that would leave a lower clamp above its upper clamp. -/
def State.coefBad (s : State) (c : LoopCoef) (v : Word) : Bool :=
  match c with
  | .reg n .imin => decide (s.lreg .LOOP_IMAX n < sgn32 v.toNat)
  | .reg n .imax => decide (sgn32 v.toNat < s.lreg .LOOP_IMIN n)
  | .reg n .umin => decide (s.lreg .LOOP_UMAX n < sgn32 v.toNat)
  | .reg n .umax => decide (sgn32 v.toNat < s.lreg .LOOP_UMIN n)
  | _ => false

/-- R457: a write of a coefficient that is applied. -/
def State.coefPut (s : State) (r : RegId) (i j : Nat) (v : Word) : State :=
  ({ s with lp := { s.lp with coefSeq := (s.lp.coefSeq + 1) % 2 ^ 32 } }).sg r i j v

/-- A host write of a coefficient: checked, applied whole and counted. -/
def State.coefWrite (s : State) (m : Master) (c : LoopCoef) (v : Word) : State :=
  let a := coefAt c
  s.cmdWrite m a.1 a.2.1 a.2.2 v (s.coefBad c v) fun s => s.coefPut a.1 a.2.1 a.2.2 v

/-- R458: LOOP_SCFG with PHASE at or above 2^DIVL. -/
def loopScfgBad (v : Word) : Bool := decide (2 ^ bits v 27 24 ≤ bits v 23 16)

/-! ### The control law (R452) -/

/-- The proportional gain at an error, interpolated between the breakpoints of the gain table. -/
def State.loopGain (s : State) (n : Nat) (e : Int) : Int :=
  let sh : Int := 2 ^ s.rf Fx.LOOP_OPT_GSH n
  let ec := lim e (-8 * sh) (8 * sh)
  let i := ec / sh + 8
  let g := fun (j : Int) => s.lreg .LOOP_GAIN n j.toNat
  if i = 16 then g 16 else sat32 (g i + (g (i + 1) - g i) * (ec - (i - 8) * sh) / sh)

/-- The feed-forward at a position, for a direction of motion. -/
def State.loopFf (s : State) (n dir : Nat) (x : Int) : Int :=
  let fr :=
    if s.rb Fx.LOOP_OPT_FR_EN n && dir != 0 then
      let j := lim (sat32 (x - s.lreg .LOOP_FR_X0 n) / 2 ^ s.rf Fx.LOOP_OPT_FSH n) 0 63
      let f := s.lreg .LOOP_FRIC n j.toNat
      sat32 (if dir = 1 then f else -f)
    else 0
  if s.rb Fx.LOOP_OPT_CG_EN n then
    let c := enc32 (x - s.lreg .LOOP_CG_X0 n) / 2 ^ s.rf Fx.LOOP_OPT_CSH n % 256
    sat32 (fr + s.lreg .LOOP_COG (s.rf Fx.LOOP_OPT_COG_SEL n) c)
  else fr

/-- Leaving OFF (R454). -/
def State.loopLeaveOff (s : State) (n : Nat) (x : LSlot) : LSlot :=
  if x.mPrev = 0 then
    { x with first := true, d := 0, dir := 0, hi := false, lo := false,
             u := lim (s.lreg .LOOP_MAN n) (s.lreg .LOOP_UMIN n) (s.lreg .LOOP_UMAX n) }
  else x

/-- One sample in mode `m` that is not stale: the slot after it, and whether its preset was clamped (R452). -/
def State.loopLaw (s : State) (n m : Nat) (x : LSlot) (sp pv : Int) : LSlot × Bool :=
  let e := if s.rb Fx.LOOP_OPT_REV n then sat32 (pv - sp) else sat32 (sp - pv)
  let p := sat32 (s.loopGain n e * e / 65536)
  let d :=
    if s.rb Fx.LOOP_OPT_D_EN n then
      let dy := if x.first then 0 else sat32 (e - x.ePrev)
      let draw := sat32 (s.lreg .LOOP_KD n * dy / 65536)
      sat32 (x.d + s.lreg .LOOP_KF n * sat32 (draw - x.d) / 65536)
    else 0
  let vel := if x.first then 0 else sat32 (pv - x.xPrev)
  let vdb := s.lreg .LOOP_VDB n
  let dir := if vdb < vel then 1 else if vel < -vdb then 2 else x.dir
  let ff := s.loopFf n dir pv
  let umin := s.lreg .LOOP_UMIN n
  let umax := s.lreg .LOOP_UMAX n
  let y := { x with d := d, dir := dir, ePrev := e, xPrev := pv, first := false, resume := false, mPrev := m }
  if m = 2 then
    let enter := x.mPrev != 2 || x.resume
    let ipre := sat32 (sat32 (sat32 (x.u - p) - d) - ff)
    let inc := sat32 (s.lreg .LOOP_KI n * e / 65536)
    let inc := if (x.hi && decide (0 < inc)) || (x.lo && decide (inc < 0)) then 0 else inc
    let i := lim (if enter then ipre else sat32 (x.i + inc)) (s.lreg .LOOP_IMIN n) (s.lreg .LOOP_IMAX n)
    let v := sat32 (sat32 (sat32 (p + i) + d) + ff)
    let rmax := s.lreg .LOOP_RMAX n
    let r := if rmax = 0 then v else lim v (sat32 (x.u - rmax)) (sat32 (x.u + rmax))
    let u := lim r umin umax
    ({ y with i := i, u := u, hi := decide (u < v), lo := decide (v < u) }, enter && i != ipre)
  else if m = 1 then ({ y with u := lim (s.lreg .LOOP_MAN n) umin umax, hi := false, lo := false }, false)
  else (y, false)

/-! ### The pass (R446, R450, R451, R460, R463) -/

/-- The output word of a slot (Table 13-1). -/
def State.loopOut (s : State) (n : Nat) (stale bump : Bool) : State :=
  let x := s.slotOf n
  let w : Nat := s.lp.seq * 2 ^ 56 + s.cyc.tick % 65536 * 2 ^ 40 + x.mode * 2 ^ 38 + b2n stale * 2 ^ 37 + b2n bump * 2 ^ 36
    + b2n x.hi * 2 ^ 35 + b2n x.lo * 2 ^ 34 + enc32 x.u
  s.poolWr (s.rf Fx.LOOP_OUT_ADDR n * 8) (leBytes 8 w)

/-- R463: the computation ends and the slot is frozen (DEDUCED, log entry 74). -/
def State.loopEcc (s : State) (n off : Nat) : State :=
  let s1 := (s.coefPut .LOOP_MODE n 0 3#32).wf Fx.LOOP_SSTS_ECC 1 n
  let s2 := (s1.eccFail 52 off).tlog 0x76 2 n 0
  (s2.slotUpd n fun x => { x with mode := 3, mPrev := 3, stale := false }).loopOut n false false

/-- One sample of slot `n` in mode `m`, other than OFF (DEDUCED, log entries 75 and 76). -/
def State.loopSample (s : State) (n m : Nat) (failed : Bool) (ecc : Option Nat) : State :=
  let x := { s.loopLeaveOff n (s.slotOf n) with mode := m, sampleSeq := s.lp.coefSeq, samples := ((s.slotOf n).samples + 1) % 2 ^ 32 }
  let s1 := s.slotUpd n fun _ => x
  match ecc with
  | some off => s1.loopEcc n off
  | none =>
    let a := s.rf Fx.LOOP_IN_ADDR n * 8
    let b := s.rf Fx.LOOP_AGE_ADDR n * 4
    let aged := s.rb Fx.LOOP_SCFG_AGE_EN n
    let s2 := if failed then s1.eccFail (poolBank a) (a % 131072) else s1.poolTouch a
    let s3 := if aged then s2.poolTouch b else s2
    let age := leNat ((s.poolRd b 4).drop 3)
    if failed || (aged && decide (s.rf Fx.LOOP_AGE_AGE_MAX n < age)) then
      ((s3.bump Fx.LOOP_SCNT_STALE 1 n).slotUpd n fun x => { x with resume := true, stale := true }).loopOut n true false
    else
      let d := s.poolRd a 8
      let r := s.loopLaw n m x (sgn32 (leNat (d.take 4))) (sgn32 (leNat (d.drop 4)))
      let s4 := s3.slotUpd n fun _ => { r.1 with stale := false }
      let s5 := if m = 2 && s.rb Fx.LOOP_OPT_MAN_TRACK n then s4.sg .LOOP_MAN n 0 (BitVec.ofNat 32 (enc32 r.1.u)) else s4
      let s6 := if r.2 then (s5.wf Fx.LOOP_SSTS_BUMP 1 n).bump Fx.LOOP_SCNT_BUMP 1 n else s5
      s6.loopOut n false r.2

/-- The turn of slot `n` in a pass: R446. A slot in OFF at its turn has left its mode (log entry 51). -/
def State.loopTurn (s : State) (n : Nat) (failed : Bool) (ecc : Option Nat) : State :=
  if (s.cyc.tick + 65536 - s.rf Fx.LOOP_SCFG_PHASE n) % 2 ^ s.rf Fx.LOOP_SCFG_DIVL n ≠ 0 then s
  else if s.rf Fx.LOOP_MODE_MODE n = 0 then s.slotUpd n fun x => { x with mPrev := 0, first := true }
  else s.loopSample n (s.rf Fx.LOOP_MODE_MODE n) failed ecc

/-- R460: a command word that names an absent slot, has a reserved operation or bit, or a VALUE with MODE. -/
def pcmdBad (v : Variant) (w : Nat) : Bool :=
  let op := w / 256 % 16
  w / 2 ^ 22 % 4 != 0 || w / 2 ^ 12 % 16 != 0 || w / 4 % 64 != 0 || op == 0 || decide (3 < op)
    || decide (v.slots ≤ w / 65536 % 64) || (op == 1 && w / 2 ^ 32 != 0)

/-- R460: the command word is read, recorded and applied. -/
def State.loopCommand (s : State) : State :=
  if s.rb Fx.LOOP_PCMD_EN then
    let a := s.rf Fx.LOOP_PCMD_ADDR * 8
    let w := leNat (s.poolRd a 8)
    let q := w / 2 ^ 24 % 256
    let op := w / 256 % 16
    let n := w / 65536 % 64
    let first := s.lp.recordOnly
    let same := q == s.lp.seq
    let s0 := s.poolTouch a
    let s1 := { s0 with lp := { s0.lp with seq := q, recordOnly := false } }
    if same || first then s1
    else if pcmdBad s.variant w then s1.bump Fx.LOOP_CNT_CMD_BAD
    else
      let s2 := if op = 2 then s1 else s1.coefPut .LOOP_MODE n 0 (BitVec.ofNat 32 (w % 4))
      let s3 := if op = 1 then s2 else s2.coefPut .LOOP_MAN n 0 (BitVec.ofNat 32 (w / 2 ^ 32))
      s3.bump Fx.LOOP_CNT_CMD_OK
  else { s with lp := { s.lp with recordOnly := false } }

/-- The whole pass: the command word, then every slot in ascending number with the host writes served before its turn. -/
def State.loopPass (s : State) (ws : List LoopAt) (failed : List (Fin 64)) (ecc : List (Fin 64 × BitVec 16)) : State :=
  let s1 := (List.finRange 64).foldl (fun s n =>
    let s0 := (ws.filter fun w => w.before == n).foldl (fun s w => s.coefWrite w.src w.c w.v) s
    if n.val < s.variant.slots then
      s0.loopTurn n.val (failed.contains n) ((ecc.find? fun e => e.1 == n).map fun e => e.2.toNat)
    else s0) s.loopCommand
  { s1 with lp := { s1.lp with running := true } }

/-- Passes run: R446, R449. -/
def State.loopEnabled (s : State) : Bool := s.variant.full && s.rb Fx.LOOP_CFG_EN

/-- LOOP_COEFFICIENT_WRITE: R457. -/
def execLoopCoefficientWrite (m : Master) (c : LoopCoef) (v : Word) (s : State) : Out State := .next (s.coefWrite m c v)

/-- LOOP_PASS: once in each cycle (R573), when no pass is in progress. -/
def execLoopPass (ws : List LoopAt) (failed : List (Fin 64)) (ecc : List (Fin 64 × BitVec 16)) (s : State) : Out State :=
  if s.cycleOn && s.loopEnabled && s.loopActive && !s.lp.running && !s.cyc.loopDone then
    .next (({ s with cyc := { s.cyc with loopDone := true } }).loopPass ws failed ecc)
  else .next s

/-- LOOP_DONE: the end of the pass in progress; or the event itself where no passes run (R449) (DEDUCED, log entry 197). -/
def execLoopDone (clks : BitVec 14) (s : State) : Out State :=
  if s.lp.running then
    .next (({ s with lp := { s.lp with running := false, passes := (s.lp.passes + 1) % 65536, lastClk := clks.toNat } }).raiseBound 1)
  else if s.cycleOn && !s.loopEnabled && !s.cyc.loopDone then
    .next (({ s with cyc := { s.cyc with loopDone := true } }).raiseBound 1)
  else .next s

/-! ### Registers that the engine computes -/

/-- LOOP_SSTS: the W1C bits are held, the others computed. -/
def State.loopSsts (s : State) (n : Nat) : Word :=
  let x := s.slotOf n
  s.rg .LOOP_SSTS n ||| BitVec.ofNat 32
    (b2n x.stale * 2 ^ 29 + b2n x.hi * 2 ^ 28 + b2n x.lo * 2 ^ 27 + b2n x.first * 2 ^ 26 + x.dir * 2 ^ 24 + x.mode)

/-- LOOP_STS. -/
def State.loopSts (s : State) : Word := BitVec.ofNat 32 (s.lp.passes * 65536 + b2n s.lp.running * 32768 + s.lp.lastClk)

/-! ### Mirrored slots (R465, R466) -/

/-- The mirrored slots of the set-up, in ascending number. -/
def State.mirrorSlots (s : State) : List Nat := (List.range s.variant.slots).filter fun n => s.rb Fx.LOOP_SCFG_MIRROR n

/-- The record of a slot (Table 13-5) (DEDUCED, log entry 77). -/
def State.slotRecord (s : State) (n : Nat) : List Byte :=
  let x := s.slotOf n
  leBytes 4 (enc32 x.i) ++ leBytes 4 (enc32 x.d) ++ leBytes 4 (enc32 x.u) ++ leBytes 4 (enc32 x.ePrev) ++ leBytes 4 (enc32 x.xPrev)
    ++ leBytes 4 (s.rg .LOOP_MAN n).toNat
    ++ leBytes 1 (b2n x.resume * 128 + b2n x.first * 64 + x.dir * 16 + b2n x.lo * 8 + b2n x.hi * 4 + s.rf Fx.LOOP_MODE_MODE n)
    ++ leBytes 3 0 ++ leBytes 4 x.samples

/-- A commit of the record of a slot; it does not count under R457 (DEDUCED, log entry 77). -/
def State.slotCommit (s : State) (n : Nat) (d : List Byte) : State :=
  let w := fun (k : Nat) => leNat ((d.drop k).take 4)
  let f := leNat ((d.drop 24).take 1)
  let s1 := s.slotUpd n fun x =>
    { x with i := sgn32 (w 0), d := sgn32 (w 4), u := sgn32 (w 8), ePrev := sgn32 (w 12), xPrev := sgn32 (w 16),
             mode := f % 4, mPrev := f % 4, hi := f / 4 % 2 == 1, lo := f / 8 % 2 == 1, dir := f / 16 % 4, first := f / 64 % 2 == 1,
             resume := f / 128 % 2 == 1, samples := w 28 }
  (s1.sg .LOOP_MAN n 0 (BitVec.ofNat 32 (w 20))).sg .LOOP_MODE n 0 (BitVec.ofNat 32 (f % 4))

/-- R466, R460: at entry into ACTIVE a slot without MIRROR leaves OFF at its next sample, and the next pass records only. -/
def State.loopOnActive (s : State) : State :=
  let s1 := (List.range 64).foldl (fun s n =>
    if s.rb Fx.LOOP_SCFG_MIRROR n || s.rf Fx.LOOP_MODE_MODE n == 0 then s else s.slotUpd n fun x => { x with mPrev := 0, first := true }) s
  { s1 with lp := { s1.lp with recordOnly := true } }

end Sys2Proof.Machine
end

