-- ==== Sys2Proof/Machine/PairOps.lean ====
section
/-!
DEFINITION. The redundant pair (spec/08): states and gates, heartbeats, the snapshot body and its fragments, commits, and the
transitions that a heartbeat, a lost path or a commit causes.
-/
namespace Sys2Proof.Machine
open Sys2Proof

/-! ### Units -/

def State.pairUpd (s : State) (f : PairU → PairU) : State := { s with pair := f s.pair }

/-- The pair unit is present and enabled, and is not OFF. -/
def State.pairOn (s : State) : Bool := s.variant.full && s.rb Fx.PAIR_CFG_EN && s.pair.st != 4

def State.pairCnt (s : State) (k : Nat) : State := s.bump Fx.PAIR_CNT_COUNT 1 k

def State.gysChOf (s : State) (c : Nat) : GysCh := vget GysCh.reset s.gys.ch c
def State.gysChUpd (s : State) (c : Nat) (f : GysCh → GysCh) : State := { s with gys := { s.gys with ch := vupd s.gys.ch c f } }

/-- GYS_CH_STS.STATE of a channel: Table 07-7. -/
def State.gysSt (s : State) (c : Nat) : Nat := if (s.gysChOf c).mode = 1 then s.gys.node else (s.gysChOf c).mode

/-- R275: the node is integrated. -/
def State.integrated (s : State) : Bool := s.gysSt 0 == 4 || s.gysSt 1 == 4

/-- The Geyser cycle length in ns, and DIV. -/
def State.gysT (s : State) : Nat := s.rf Fx.GYS_CYCLE_NS
def State.gysDiv (s : State) : Nat := max 1 (s.rf Fx.GLB_CYC_CFG_DIV)

/-! ### Checksums and fragments -/

/-- CRC-32C over bytes (R246). -/
def crc32c (d : List Byte) : Nat := Nat.xor (d.foldl (fun c b => crcOf 0x82F63B78 c b.toNat) 0xFFFFFFFF) 0xFFFFFFFF

/-- The fragment header of Tables 07-6 and 08-6. -/
def fragHeader (a off total : Nat) : List Byte := leBytes 2 a ++ leBytes 2 off ++ leBytes 2 total ++ leBytes 2 0

/-- Bytes `i` to `i + n - 1` of a list as a number. -/
def leAt (d : List Byte) (i n : Nat) : Nat := leNat ((d.drop i).take n)

/-- A list filled with zero bytes up to a length. -/
def zeroFill (n : Nat) (d : List Byte) : List Byte := d ++ List.replicate (n - d.length) 0

/-! ### Registers that the unit computes -/

/-- PAIR_STS without its W1C bits. -/
def PairU.word (p : PairU) : Nat :=
  b2n p.suspect * 2 ^ 30 + b2n p.clash * 2 ^ 29 + b2n p.hbLost * 2 ^ 11 + b2n p.gysLost * 2 ^ 10 + b2n (p.hbLost != p.gysLost) * 2 ^ 9
    + b2n p.held * 2 ^ 8 + b2n p.snapValid * 2 ^ 7 + p.pState * 16 + b2n p.role * 8 + p.st

/-- PAIR_STS. -/
def State.pairSts (s : State) : Word := s.rg .PAIR_STS ||| BitVec.ofNat 32 s.pair.word

/-- Table 08-3 (log entry 50) and R286: the pin drivers of Rill group `g` are on. -/
def State.groupDriven (s : State) (g : Nat) : Bool :=
  !(s.rf Fx.PAIR_OUT_GATE_RIL).testBit g || !s.rb Fx.PAIR_CFG_EN || (s.pair.st == 3 && !s.tph.fatal)

/-! ### The snapshot (R287 to R290) -/

/-- The enabled mirror regions: number, offset and length. -/
def State.regions (s : State) : List (Nat × Nat × Nat) :=
  ((List.range 32).filter fun r => s.rb Fx.PAIR_MREG_BASE_EN r).map fun r =>
    (r, s.rf Fx.PAIR_MREG_BASE_BASE r * 8, s.rf Fx.PAIR_MREG_LEN_LEN r)

/-- The mirrored time bases. -/
def State.mirrorTbs (s : State) : List Nat := (List.range 8).filter fun n => n != 0 && (s.rg .PAIR_TB_CFG).getLsbD n

/-- Z of R288. -/
def State.snapZ (s : State) : Nat :=
  16 + (s.regions.map fun r => 8 + r.2.2).sum + 40 * s.mirrorSlots.length + 24 * s.mirrorTbs.length + 8

/-- The records of the set-up: type, index and length (Table 08-5). -/
def State.snapLayout (s : State) : List (Nat × Nat × Nat) :=
  (s.regions.map fun r => (1, r.1, r.2.2)) ++ (s.mirrorSlots.map fun n => (2, n, 32)) ++ s.mirrorTbs.map fun n => (3, n, 16)

def recHeader (ty i len : Nat) : List Byte := leBytes 1 ty ++ leBytes 1 i ++ leBytes 2 len ++ leBytes 4 0

/-- The record of a time base, at its time in 2^-32 ns. -/
def State.tbRecord (s : State) (n : Nat) : List Byte :=
  let u := s.tbTime n
  leBytes 4 (u / unitsPerNs) ++ leBytes 2 (u / 65536) ++ leBytes 2 0 ++ leBytes 4 (s.rg .TB_RATE n).toNat ++ leBytes 4 0

/-- The body of the snapshot `seq`, taken now (Table 08-5). -/
def State.snapBody (s : State) (seq : Nat) : List Byte :=
  let d := leBytes 2 seq ++ leBytes 2 s.snapZ ++ leBytes 4 s.gys.cyc ++ leBytes 4 s.pair.epoch ++ leBytes 2 s.snapLayout.length
    ++ leBytes 2 0
    ++ (s.regions.map fun r => recHeader 1 r.1 r.2.2 ++ s.poolRd r.2.1 r.2.2).flatten
    ++ (s.mirrorSlots.map fun n => recHeader 2 n 32 ++ s.slotRecord n).flatten
    ++ (s.mirrorTbs.map fun n => recHeader 3 n 16 ++ s.tbRecord n).flatten
  d ++ leBytes 4 (crc32c d) ++ leBytes 4 0

/-- One fragment of at most `n` body bytes from `off` on. -/
def fragOf (d : List Byte) (off n : Nat) : List Byte := fragHeader (leAt d 0 2) off d.length ++ (d.drop off).take n

/-- The frames of the pairing link for a body (R291), with the source address of P1 (DESIGN CHOICE, log entry 98). -/
def State.linkFrames (s : State) (d : List Byte) : List (List Byte) :=
  let sa := ((s.rg .MAC_SA_HI 1).toNat % 65536) * 2 ^ 32 + (s.rg .MAC_SA_LO 1).toNat
  (List.range ((d.length + 1407) / 1408)).map fun i =>
    zeroFill 60 (List.replicate 6 0xFF ++ (leBytes 6 sa).reverse ++ [0x88, 0xB5, 0x02, 0x00] ++ fragOf d (1408 * i) 1408)

/-- R287: the snapshot of a tick, or a skip while the stream of the previous one is still being sent (Table 01-3)
(DESIGN CHOICE, log entry 98). -/
def State.snapshot (s : State) : State :=
  if s.pair.tx.isSome then (s.wf Fx.GLB_CYC_STS_SNAP_SKIP 1).bump Fx.GLB_CYC_LATE_CNT_SNAP_SKIP
  else
    let q := (s.pair.seq + 1) % 65536
    let d := s.snapBody q
    let s1 := s.pairUpd fun p => { p with seq := q }
    if s.p1IsPairLink then (s.linkFrames d).foldl (fun s f => s.emit (.pairFrame f)) s1
    else s1.pairUpd fun p => { p with tx := some (d, 0) }

/-- R290: the payload of an own MIRROR slot of LEN `len`, when a fragment waits (DEDUCED, log entry 79). -/
def State.mirrorPayload (s : State) (len : Nat) : State × Option (List Byte) :=
  match s.pair.tx with
  | none => (s, none)
  | some (d, off) =>
    if s.tph.fatal then (s, none)
    else
      let n := off + (len - 8)
      (s.pairUpd fun p => { p with tx := if d.length ≤ n then none else some (d, n) }, some (zeroFill len (fragOf d off (len - 8))))

/-! ### Heartbeats (R281 to R286) -/

/-- R283: the payload of Table 08-4, while the unit sends heartbeats (DEDUCED, log entry 79). -/
def State.hbPayload (s : State) : Option (List Byte) :=
  if !s.pairOn || s.tph.fatal then none
  else
    let p := s.pair
    let req := p.st == 3 && decide (1 ≤ p.ho) && decide (p.ho ≤ 3)
    let set := if p.st = 3 then decide (2 ≤ p.ho) && decide (p.ho ≤ 3) else p.agreed
    some (leBytes 1 (p.st * 32 + b2n p.role * 16 + b2n req * 8 + b2n (p.st == 2 && p.rdy) * 4 + b2n (p.st == 2 && p.revert) * 2
        + b2n p.held) ++ leBytes 1 (s.rf Fx.PAIR_CFG_PAIR_ID) ++ leBytes 2 p.seq ++ leBytes 4 p.epoch
      ++ leBytes 4 (if set then p.hoCycle else 0) ++ leBytes 1 (b2n set) ++ leBytes 3 0)

/-! ### Changes of state (R279, R280) -/

/-- PAIR_STATE and the Tephra entry of a change with this cause. -/
def State.pairTell (s : State) (cause : Nat) : State :=
  (s.post 4 0x41 0 (s.pair.word % 65536) cause).tlog 0x40 0 s.pair.st cause

/-- The CAN controllers of PAIR_OUT_GATE are forced to listen only, or released (Table 08-3). -/
def State.pairCan (s : State) (on : Bool) : State :=
  (List.range 4).foldl (fun s c => if (s.rf Fx.PAIR_OUT_GATE_CAN).testBit c then s.canForce c on else s) s

/-- Bulk resync gives up the token, or its place in the FIFO. -/
def State.resyncDrop (s : State) : State :=
  if s.tok.holder = 3 then s.tokRelease else { s with tok := { s.tok with fifo := s.tok.fifo.filter fun c => c != 3 } }

/-- R301: the hold-off of a PREFERRED standby whose partner shows ACTIVE (DEDUCED, log entry 92). -/
def State.holdoff (s : State) : State :=
  if !s.pair.role && s.rb Fx.PAIR_CFG_REVERT && s.pair.st == 2 && s.pair.pState == 3 then
    s.pairUpd fun p => { p with holdAt := some (s.pwr.sec + s.rf Fx.PAIR_HOLDOFF_SEC), revert := false }
  else s

/-- A change to ISOLATED, SYNCING or STANDBY with a cause of Table 08-2. -/
def State.pairGo (s : State) (st cause : Nat) : State :=
  let was := s.pair.st
  let s1 := s.pairUpd fun p =>
    { p with st := st, held := cause == 0xC, due := none, stale := 0, rdy := false, agreed := false, holdAt := none, revert := false,
             rx := if st = 0 then none else p.rx, ho := if cause = 9 then 4 else 0, tx := if cause = 9 then p.tx else none }
  let s2 := if was = 1 then s1.resyncDrop else s1
  let s3 := if was = 3 then s2.pairCan true else s2
  let s4 := if st = 1 then (s3.tokReq 3).pairUpd fun p => { p with resync := 0 } else s3
  (if st = 2 then s4.holdoff else s4).pairTell cause

/-- A change into ACTIVE becomes due at the next Geyser cycle start (DEDUCED, log entry 93). -/
def State.pairDue (s : State) (cause : Nat) : State := s.pairUpd fun p => { p with due := some cause }

/-- Both paths are lost (Table 08-2). -/
def State.partnerLost (s : State) : State :=
  let s1 := s.pairUpd fun p => { p with pState := 7 }
  match s.pair.st with
  | 1 => s1.pairGo 0 6
  | 2 => s1.pairDue 7
  | _ => s1

/-- R285: one path has been lost: 1 the Geyser path, 2 the HB line (DEDUCED, log entry 91). -/
def State.pathLost (s : State) (which : Nat) : State :=
  let both := s.pair.hbLost && s.pair.gysLost
  let s1 := if !both || s.pair.st == 3 then (s.post 4 0x42 0 which 0).pairCnt 6 else s
  if both then s1.partnerLost else s1

/-- R284: a partner HEARTBEAT slot closes (DEDUCED, log entry 210). -/
def State.hbSlotClose (s : State) : State :=
  if !s.pairOn then s
  else if s.pair.got then s.pairUpd fun p => { p with got := false, empty := 0 }
  else
    let n := min (s.pair.empty + 1) 3
    let s1 := s.pairUpd fun p => { p with empty := n }
    if n = 3 ∧ s.pair.gysLost = false then (s1.pairUpd fun p => { p with gysLost := true }).pathLost 1 else s1

/-! ### Handover (R300, R301) -/

/-- A handover begins: REQ is set. -/
def State.hoStart (s : State) : State :=
  if s.pair.st = 3 ∧ s.pair.ho = 0 then s.pairUpd fun p => { p with ho := 1, hoTicks := 0 } else s

/-- A handover fails at the ACTIVE. -/
def State.hoFail (s : State) : State := ((s.pairUpd fun p => { p with ho := 0 }).wf Fx.PAIR_STS_HO_FAIL 1).pairCnt 2

/-- What a received heartbeat means to an ACTIVE: steps 3 and 5 of R300, REVERT_REQ. -/
def State.hbHandover (s : State) (d : List Byte) : State :=
  let b := leAt d 0 1
  let p := s.pair
  if p.ho = 1 ∧ b / 4 % 2 = 1 then
    s.pairUpd fun p => { p with ho := 2, hoCycle := (s.gys.cyc / s.gysDiv + 2) * s.gysDiv % 2 ^ 32 }
  else if p.ho = 2 ∧ leAt d 12 1 % 2 = 1 ∧ leAt d 8 4 = p.hoCycle then s.pairUpd fun p => { p with ho := 3 }
  else if p.ho = 0 ∧ b / 2 % 2 = 1 ∧ p.pState = 2 then s.hoStart
  else s

/-- R300 step 2: the committed SEQ is the active's SNAP_SEQ or that value less 1. -/
def PairU.near (p : PairU) : Bool := p.seq == p.pSeq || (p.seq + 1) % 65536 == p.pSeq

/-- What a received heartbeat of an ACTIVE means to a STANDBY: steps 2 and 4 of R300, and a handover given up (`asked`: the
heartbeat before it carried REQ), which restarts the hold-off of R301. -/
def State.hbStandby (s : State) (asked : Bool) (d : List Byte) : State :=
  let b := leAt d 0 1
  let req := b / 8 % 2 == 1
  let set := leAt d 12 1 % 2 == 1
  if req then
    s.pairUpd fun p =>
      { p with rdy := p.rdy || p.near, agreed := set && (p.rdy || p.near), hoCycle := if set then leAt d 8 4 else p.hoCycle }
  else if asked then (s.pairUpd fun p => { p with rdy := false, agreed := false }).holdoff
  else s

/-- R302: both units show ACTIVE (DEDUCED, log entry 211). -/
def State.splitBrain (s : State) : State :=
  let p := s.pair
  let s1 := ((s.wf Fx.PAIR_STS_SPLIT 1).pairCnt 7).tlog 0x41 2 0 p.epoch
  if p.pEpoch < p.epoch || (p.pEpoch == p.epoch && p.role) then s1.pairGo 0 0xB else s1

/-- The transitions of Table 08-2 that a received heartbeat causes. -/
def State.hbTransition (s : State) (asked : Bool) (d : List Byte) : State :=
  let p := s.pair
  let held := leAt d 0 1 % 2 == 1
  match p.st with
  | 0 =>
    if p.held || !s.integrated then s
    else if p.pState = 3 then s.pairGo 1 2
    else if !p.role && p.pState == 0 && !held then s.pairDue 3
    else s
  | 1 => if p.pState = 3 then s else s.pairGo 0 6
  | 2 =>
    if p.pState = 3 then (s.pairUpd fun p => { p with ho := 0 }).hbStandby asked d
    else if p.agreed || p.ho == 4 then s
    else s.pairDue 8
  | 3 => if p.pState = 3 then s.splitBrain else s.hbHandover d
  | _ => s

/-- R278, R284: an accepted frame in the partner's HEARTBEAT slot. -/
def State.hbAccept (s : State) (d : List Byte) : State :=
  let b := leAt d 0 1
  let sameRole := (b / 16 % 2 == 1) == s.pair.role
  if !s.pairOn then s
  else if leAt d 1 1 ≠ s.rf Fx.PAIR_CFG_PAIR_ID ∨ sameRole = true then
    (s.pairCnt 10).pairUpd fun p => { p with clash := p.clash || sameRole }
  else
    (s.pairUpd fun p =>
      { p with got := true, empty := 0, gysLost := false, suspect := false, clash := false, pByte := b, pState := b / 32,
               pSeq := leAt d 2 2, pEpoch := leAt d 4 4 }).hbTransition (s.pair.pByte / 8 % 2 == 1) d

/-! ### Receiving a snapshot (R292 to R295) -/

/-- The resync begins its count again. -/
def State.resyncRestart (s : State) : State := s.pairUpd fun p => { p with resync := 0 }

/-- A partial body is discarded. -/
def State.bodyDrop (s : State) : State :=
  if s.pair.rx.isSome then ((s.pairUpd fun p => { p with rx := none }).pairCnt 4).resyncRestart else s

/-- The record headers of a body, from offset `o` on. -/
def recordsOf (d : List Byte) : Nat → Nat → List (Nat × Nat × Nat)
  | 0, _ => []
  | n + 1, o =>
    let len := leAt d (o + 2) 2
    (leAt d o 1, leAt d (o + 1) 1, len) :: recordsOf d n (o + 8 + len)

/-- A body of Z bytes is checked (DESIGN CHOICE, log entry 97). -/
def State.bodyCheck (s : State) (seq : Nat) (d : List Byte) : State :=
  let n := leAt d 12 2
  if d.length < 24 ∨ crc32c (d.take (d.length - 8)) ≠ leAt d (d.length - 8) 4 then (s.pairCnt 4).resyncRestart
  else if d.length ≠ s.snapZ ∨ n ≠ s.snapLayout.length ∨ recordsOf d n 16 ≠ s.snapLayout then (s.pairCnt 5).resyncRestart
  else s.pairUpd fun p => { p with commits := p.commits ++ [(seq, d)] }

/-- R292: a fragment of the partner, its header and body bytes (DEDUCED, log entry 96). -/
def State.fragTake (s : State) (f : List Byte) : State :=
  if !s.pairOn || !(s.pair.st == 1 || s.pair.st == 2) then s
  else
    let seq := leAt f 0 2
    let off := leAt f 2 2
    let tot := match s.pair.rx with
      | some (_, t, _) => if off = 0 then leAt f 4 2 else t
      | none => leAt f 4 2
    let s1 := if off = 0 then s.bodyDrop else s
    let held : Option (List Byte) :=
      if off = 0 then some []
      else match s.pair.rx with
        | some (q, _, h) => if q = seq ∧ h.length = off then some h else none
        | none => none
    match held with
    | none => s1.bodyDrop
    | some h =>
      let b := (f.drop 8).take (tot - off)
      let h1 := h ++ b
      let s2 := s1.poolWr (s.rf Fx.PAIR_STAGE_BASE * 4096 + off) (b.take (16384 - off))
      if tot ≤ h1.length then (s2.pairUpd fun p => { p with rx := none }).bodyCheck seq h1
      else s2.pairUpd fun p => { p with rx := some (seq, tot, h1) }

/-- R294: a time base record, against the own time at the tick of the same cycle. -/
def State.tbCommit (s : State) (cyc n : Nat) (d : List Byte) : State :=
  match s.pair.tickTb.find? fun e => e.1 == cyc with
  | none => s
  | some (_, ts) =>
    let own := ts.getD n 0 / 65536 % 2 ^ 48
    let m : Nat := (leAt d 0 4 * 65536 + leAt d 4 2 + 2 ^ 48 - own) % 2 ^ 48
    let diff : Int := (if m < 2 ^ 47 then Int.ofNat m else Int.ofNat m - 2 ^ 48) / 65536
    let s1 := s.pairUpd fun p => { p with tbDiff := vupd p.tbDiff n fun _ => sat32 diff }
    if s.rb Fx.PAIR_TB_CFG_ALIGN && (s.pair.st == 1 || s.pair.st == 2) then
      (s1.sg .TB_RATE n 0 (BitVec.ofNat 32 (leAt d 8 4))).tbSlew n (sat32 diff * 4294967296)
    else s1

/-- The records of a body are committed in order, from offset `o` on (DEDUCED, log entry 90). -/
def State.commitRecords (s : State) (d : List Byte) : Nat → Nat → State
  | 0, _ => s
  | k + 1, o =>
    let i := leAt d (o + 1) 1
    let len := leAt d (o + 2) 2
    let r := (d.drop (o + 8)).take len
    let s1 := match leAt d o 1 with
      | 1 => s.poolWr (s.rf Fx.PAIR_MREG_BASE_BASE i * 8) r
      | 2 => if i < 64 then s.slotCommit i r else s
      | _ => if i < 8 then s.tbCommit (leAt d 4 4) i r else s
    s1.commitRecords d k (o + 8 + len)

/-- R295: every mirrored time base agrees within its guard. -/
def State.diffsGood (s : State) : Bool :=
  s.mirrorTbs.all fun n => decide ((vget 0 s.pair.tbDiff n).natAbs ≤ s.rf Fx.TB_GUARD_NS n)

/-- R295: a committed snapshot counts for the resync while it holds the token (DEDUCED, log entry 94). -/
def State.resyncCount (s : State) (seq : Nat) : State :=
  if s.pair.st ≠ 1 ∨ s.tok.holder ≠ 3 then s
  else
    let n := if 0 < s.pair.resync ∧ (s.pair.resSeq + 1) % 65536 = seq then 2 else 1
    let s1 := s.pairUpd fun p => { p with resync := n, resSeq := seq }
    if n = 2 ∧ s1.diffsGood = true then (s1.maintDone 3 0).pairGo 2 5 else s1

/-- R300 step 2 at a commit: RDY, while the active requests a handover. -/
def PairU.ready (p : PairU) : PairU :=
  { p with rdy := p.rdy || (p.st == 2 && p.pState == 3 && p.pByte / 8 % 2 == 1 && p.near) }

/-- R293: the commit of the oldest checked body ends; R300 steps 2 and 6 (DESIGN CHOICE, log entry 97). -/
def State.commitDone (s : State) : State :=
  match s.pair.commits with
  | [] => s
  | (seq, d) :: rest =>
    let s1 := (s.commitRecords d (leAt d 12 2) 16).pairCnt 3
    let s2 := s1.pairUpd fun p => PairU.ready { p with commits := rest, seq := seq, snapValid := true, stale := 0 }
    let s3 := s2.resyncCount seq
    if s3.pair.st = 2 ∧ s3.pair.agreed = true ∧ leAt d 4 4 = s3.pair.hoCycle then s3.pairDue 9 else s3

/-! ### At a tick and at the entry into ACTIVE (R287, R296, R300) -/

/-- What a tick does in the pair unit: the own times of R294, the counts of Table 08-2 and R300, and the snapshot
(DEDUCED, log entry 95). -/
def State.pairTick (s : State) : State :=
  if !s.pairOn then s
  else
    let ts := (List.range 8).map fun n => s.tbTime n
    let s1 := s.pairUpd fun p =>
      { p with tickTb := ((s.gys.cyc, ts) :: p.tickTb).take 4, stale := if p.st = 2 ∧ p.pState = 3 then min (p.stale + 1) 9 else 0,
               hoTicks := if p.ho = 1 then min (p.hoTicks + 1) 16 else p.hoTicks }
    let s2 := if s.pair.st = 2 ∧ s.pair.agreed = true ∧ s.gys.cyc = (s.pair.hoCycle + s.gysDiv) % 2 ^ 32 then s1.pairDue 9 else s1
    if s.pair.st = 3 ∧ s.tph.fatal = false then s2.snapshot else s2

/-- R296: time since the tick of the device cycle that contains the present Geyser cycle start, in ns. -/
def State.sinceTick (s : State) : Nat := s.gys.cyc % s.gysDiv * s.gysT

/-- R296: the pass of the device cycle in which ACTIVE begins: at its time, now, or not at all. -/
def State.catchUp (s : State) (ws : List LoopAt) (failed : List (Fin 64)) (ecc : List (Fin 64 × BitVec 16)) : State :=
  let since := s.sinceTick
  if since ≤ s.rf Fx.GLB_CYC_OFS_OFS 1 || s.cyc.loopDone || !s.loopEnabled || s.lp.running then s
  else
    let s1 := { s with cyc := { s.cyc with loopDone := true } }
    if since + 10300 ≤ s.gysDiv * s.gysT then (s1.loopPass ws failed ecc).pairCnt 8 else s1

/-- Entry into ACTIVE with a cause: R296, R460, R466. -/
def State.pairActive (s : State) (cause : Nat) : State :=
  let s1 := s.pairUpd fun p =>
    { p with st := 3, due := none, held := false, stale := 0, rdy := false, agreed := false, holdAt := none, revert := false, ho := 0,
             rx := none, epoch := (max p.epoch p.pEpoch + 1) % 2 ^ 32 }
  let s2 := if s.pair.st = 1 then s1.resyncDrop else s1
  let s3 := (s2.pairCan false).loopOnActive
  let s4 := (if cause = 7 ∨ cause = 8 then s3.pairCnt 0 else if cause = 9 then s3.pairCnt 1 else s3).pairTell cause
  s4.raiseBound 2

/-! ### Checks of the set-up (R305) -/

/-- The slots of a channel that are enabled, with their KIND, OWNER, START and LEN. -/
def State.schedOf (s : State) (c : Nat) : List (Nat × Nat × Nat × Nat × Nat) :=
  ((List.range 64).filter fun n => s.rb Fx.GYS_SLOT_T_EN c n).map fun n =>
    (n, s.rf Fx.GYS_SLOT_T_KIND c n, s.rf Fx.GYS_SLOT_T_OWNER c n, s.rf Fx.GYS_SLOT_T_START c n, s.rf Fx.GYS_SLOT_D_LEN c n)

/-- D(LEN) in ns (R244). -/
def gysD (len : Nat) : Nat := (26 + len) * 50

/-- R290: the capacity of a device cycle in the MIRROR slots of a node. -/
def State.mirrorCap (s : State) (node : Nat) : Nat :=
  let t := s.gysT
  let n := s.gysDiv
  let slots := (s.schedOf 0 ++ s.schedOf 1).filter fun e => e.2.1 == 4 && e.2.2.1 == node
  (slots.map fun e =>
    let start := e.2.2.2.1
    let len := e.2.2.2.2
    let first := if 2000 ≤ start then 0 else if 2000 ≤ start + t then 1 else 2
    let last := if start + gysD len ≤ t then n else n - 1
    (last - first) * (len - 8)).sum

/-- The HEARTBEAT entries of a node: channel, START and LEN. -/
def State.hbEntries (s : State) (node : Nat) : List (Nat × Nat × Nat) :=
  [0, 1].flatMap fun c => ((s.schedOf c).filter fun e => e.2.1 == 3 && e.2.2.1 == node).map fun e => (c, e.2.2.2.1, e.2.2.2.2)

/-- Ranges of the pool that do not overlap one another and lie inside it. -/
def disjointIn : List (Nat × Nat) → Bool
  | [] => true
  | (a, n) :: t => decide (a + n ≤ 0x200000) && t.all (fun e => decide (a + n ≤ e.1) || decide (e.1 + e.2 ≤ a)) && disjointIn t

/-- The rate in kb/s to which P1 is set by MODE and SPEED; 0 where in-band status decides (R305). -/
def State.p1SetRate (s : State) : Nat :=
  match s.rf Fx.MAC_CFG_MODE 1 with
  | 1 => 1000000
  | 2 => 2500000
  | 3 => 5000000
  | 4 => 10000000
  | _ => rateOfCode (s.rf Fx.MAC_CFG_SPEED 1)

/-- R305: PAIR_CFG.EN may not be 1 with the set-up of `s`. -/
def State.pairCfgBad (s : State) : Bool :=
  let node := s.rf Fx.GYS_CFG_NODE
  let partner := s.rf Fx.PAIR_CFG_PARTNER
  let z := s.snapZ
  let hb := s.hbEntries node ++ s.hbEntries partner
  let late := fun (e : Nat × Nat × Nat) => decide (s.gysT < e.2.1 + gysD 16 + s.rf Fx.GYS_TIMING_GUARD + 200)
  let rate := s.p1SetRate
  let p := s.gysDiv * s.gysT
  s.rb Fx.PAIR_CFG_EN
    && (s.rf Fx.GLB_CYC_CFG_SRC != 2 || partner == node
      || (s.hbEntries node).length != 1 || (s.hbEntries partner).length != 1
      || hb.any (fun e => e.2.2 != 16 || late e) || (hb.map (·.1)).eraseDups.length != 1
      || decide (16384 < z) || s.mirrorTbs.any (fun n => !s.rb Fx.TB_CFG_GUARDED n)
      || !disjointIn ((s.rf Fx.PAIR_STAGE_BASE * 4096, 16384) :: s.regions.map fun r => (r.2.1, r.2.2))
      || (s.rf Fx.PAIR_CFG_XPORT == 1 && (decide (s.mirrorCap node < z) || decide (s.mirrorCap partner < z)))
      || (s.rf Fx.PAIR_CFG_XPORT == 2
        && (!s.variant.full || decide (rate < 1000000) || decide (p < nsOfBytes ((z + 1407) / 1408 * 1456) rate + 2000))))

end Sys2Proof.Machine
end

