-- ==== Sys2Proof/Machine/Geyser.lean ====
section
/-!
DEFINITION. The meanings of the Geyser bus (spec/07): the bus timer and its law, slots and their payloads, receiving, gateway
frames, delay measurement, start-up and integration, and the checks of a schedule.
-/
namespace Sys2Proof.Machine
open Sys2Proof

/-! ### Units -/

def State.gysUpd (s : State) (f : Gys → Gys) : State := { s with gys := f s.gys }
def State.gysCnt (s : State) (c k : Nat) : State := s.bump Fx.GYS_CH_CNT_COUNT 1 c k

/-- The node ID and the guard G in ns. -/
def State.gysNode (s : State) : Nat := s.rf Fx.GYS_CFG_NODE
def State.gysG (s : State) : Nat := s.rf Fx.GYS_TIMING_GUARD

/-- A slot of a channel: enabled, KIND, OWNER, START, LEN, and the pool offset of its region. -/
def State.slEn (s : State) (c n : Nat) : Bool := s.rb Fx.GYS_SLOT_T_EN c n
def State.slKind (s : State) (c n : Nat) : Nat := s.rf Fx.GYS_SLOT_T_KIND c n
def State.slOwner (s : State) (c n : Nat) : Nat := s.rf Fx.GYS_SLOT_T_OWNER c n
def State.slStart (s : State) (c n : Nat) : Nat := s.rf Fx.GYS_SLOT_T_START c n
def State.slLen (s : State) (c n : Nat) : Nat := s.rf Fx.GYS_SLOT_D_LEN c n
def State.slPool (s : State) (c n : Nat) : Nat := s.rf Fx.GYS_SLOT_D_POOL c n * 8

/-- GYS_CH_STS. -/
def State.gysChSts (s : State) (c : Nat) : Word :=
  s.rg .GYS_CH_STS c ||| BitVec.ofNat 32 (b2n (s.gysChOf c).refBit * 128 + s.gysSt c)

/-- d_c in 1/256 ns (R268). -/
def State.gysDly (s : State) (c : Nat) : Nat := (s.gysChOf c).meas.getD (s.rf Fx.GYS_DLY_INIT_DLY)

/-- The lowest-numbered enabled slot of a channel that the node owns. -/
def State.ownLow (s : State) (c : Nat) : Option Nat :=
  (List.range 64).find? fun n => s.slEn c n && s.slOwner c n == s.gysNode

/-- R248, R267: the delay exchange takes the DLY_SLOT of channel `c` in cycle `cyc`. -/
def State.dlyCycle (s : State) (c cyc : Nat) : Bool := s.rb Fx.GYS_CH_CFG_DLY_EN c && s.gys.timer && cyc % 256 == 255
def State.dlySlot (s : State) (c : Nat) : Nat := s.rf Fx.GYS_CH_CFG_DLY_SLOT c

/-- Offsets and T in 1/256 ns. -/
def State.ofs256 (s : State) : Nat := s.gys.ofs / 2 ^ 24

/-- The time since a received start of frame at the board's reference plane, in 1/256 ns: the calibration word of the channel is taken
off the stamp (R230, R245). -/
def State.gysAgo (s : State) (c ago : Nat) : Int := Int.ofNat ago + sgn24 (s.rf Fx.TB_CAL_GYS_RX_DELAY c)

/-- The calibration that a stamp of a frame sent on a channel is increased by (R230). -/
def State.gysTxCal (s : State) (c : Nat) : Int := sgn24 (s.rf Fx.TB_CAL_GYS_TX_DELAY c)

/-! ### Changes of state (R269 to R275) -/

/-- GYS_STATE of a channel. -/
def State.gysTell (s : State) (c : Nat) : State := s.post 4 0x40 c ((s.gysChSts c).toNat % 65536) 0

/-- The node takes a state; both channels that follow it report it. -/
def State.gysSetNode (s : State) (n : Nat) : State :=
  if s.gys.node = n then s
  else
    let s1 := s.gysUpd fun g => { g with node := n, goodRun := 0, csSent := false, attemptCycles := 0, attempts := if n = 3 then 0 else g.attempts }
    [0, 1].foldl (fun s c => if (s.gysChOf c).mode = 1 then s.gysTell c else s) s1

/-- The bus timer starts, in cycle `cyc` at an offset in 1/256 ns. -/
def State.gysStart (s : State) (cyc ofs : Nat) : State :=
  s.gysUpd fun g =>
    { g with timer := true, cyc := cyc, ofs := ofs * 2 ^ 24, rate := 0, corr := 0, corrDone := 0, tickDue := false,
             ch := g.ch.map fun c => { c with meas := none, good := 0, ref := none, acc := [], accPrev := [] } }

/-- R273: the node falls silent. -/
def State.gysSilence (s : State) : State :=
  ((s.bump Fx.GYS_CNT_SILENCE).tlog 0x33 0 0 (enc32 (sat32 s.gys.lastE))).gysSetNode 5

/-- A successful integration; on the second attempt it is counted and logged (R272) (DEDUCED, log entry 84). -/
def State.gysIntegrated (s : State) : State :=
  let s1 := if s.gys.attempts = 1 then
      [0, 1].foldl (fun s c => if (s.gysChOf c).mode = 1 then s.tlog 0x31 1 c 0 else s) (s.bump Fx.GYS_CNT_INTEG_RETRY_OK)
    else s
  s1.gysSetNode 4

/-! ### The timer and its law (R247, R260 to R266) -/

/-- Division with rounding to the nearest, halves upward (DEDUCED, log entry 83). -/
def roundDiv (a b : Int) : Int := (2 * a + b) / (2 * b)

/-- R263: the correction for an offset e in 1/256 ns. -/
def State.gysLaw (s : State) (e : Int) : State :=
  let m : Int := Int.ofNat (s.rf Fx.GYS_TIMING_CORR_MAX) * 4294967296
  let p := lim (e * 2 ^ 23) (-m) m
  let r := if e.natAbs ≤ s.gysG * 256 then lim (s.gys.rate - roundDiv (e * 2 ^ 21) s.gysT) (-2147483) 2147483 else s.gys.rate
  s.gysUpd fun g => { g with corr := p, corrDone := 0, rate := r, lastE := e }

/-- R264: the lead offset in 1/256 ns, from the time base LEAD_TB. -/
def State.leadOffset (s : State) : Int :=
  let ahead0 := s.gys.ofs - s.gysT * unitsPerNs
  let x := (s.tbTime (s.rf Fx.GYS_CFG_LEAD_TB) + tbModulus - ahead0) % tbModulus % (nsPerSec * unitsPerNs)
  let t := s.gysT * unitsPerNs
  let back := x % t
  let ahead := min (t - back) (nsPerSec * unitsPerNs - x)
  (if back ≤ ahead then -(Int.ofNat back) else Int.ofNat ahead) / 2 ^ 24

/-- R264: the lead is in use. -/
def State.leads (s : State) : Bool :=
  s.rb Fx.GYS_CFG_LEAD_EN && s.rb Fx.TB_CFG_GUARDED (s.rf Fx.GYS_CFG_LEAD_TB)

/-- R265: e reduced into (−T/2, T/2], and the number of whole cycles taken off. -/
def reduceE (t256 e : Int) : Int × Int :=
  let k := -((t256 - 2 * e) / (2 * t256))
  (e - k * t256, k)

/-- The reference frame of the closing cycle: channel A's, else channel B's (R261). -/
def State.gysRef (s : State) : Option (Nat × Int × Bool) :=
  match (s.gysChOf 0).ref, (s.gysChOf 1).ref with
  | some (e, q), _ => some (0, e, q)
  | none, some (e, q) => some (1, e, q)
  | none, none => none

/-- What the closing cycle was: the correction of R263, the relabel of R265 as a change of the number, and whether it was good. -/
def State.gysClose (s : State) : State × Int × Bool :=
  match s.gysRef with
  | some (c, e, q) =>
    let r := if q then reduceE (s.gysT * 256) e else (e, 0)
    let s1 := (s.gysUpd fun g => { g with first := false, ch := Vector.ofFn fun (i : Fin 2) => { g.ch[i] with refBit := i.val == c } }).gysLaw r.1
    let bad := decide (s.gysG * 256 < 2 * r.1.natAbs)
    let s2 := if bad && s1.gys.node == 4 then s1.gysSilence else s1
    let n : Nat := ((Int.ofNat s.gys.cyc + 1 - r.2) % 4294967296).toNat
    let s3 := if r.2 = 0 then s2 else (s2.bump Fx.GYS_CNT_RELABEL).tlog 0x30 0 0 n
    (s3, r.2, !bad)
  | none =>
    let s1 := s.gysUpd fun g => { g with first := true, corr := 0, corrDone := 0 }
    (if s.leads then s1.gysLaw s.leadOffset else s1, 0, true)

/-- The transitions of Table 08 of spec/07 at the end of a cycle: two consecutive good cycles. -/
def State.gysGood (s : State) (good : Bool) : State :=
  let s1 := s.gysUpd fun g =>
    { g with goodRun := if good then min (g.goodRun + 1) 2 else 0,
             attemptCycles := if g.node = 3 then min (g.attemptCycles + 1) 8 else g.attemptCycles }
  if s1.gys.goodRun < 2 then s1
  else if s1.gys.node = 3 then s1.gysIntegrated
  else if s1.gys.node = 5 then s1.gysSetNode 4
  else s1

/-- GYS_CYCLE_START: the offset has reached T (R247, R263 to R266). -/
def execGysCycleStart (s : State) : Out State :=
  let t := s.gysT * unitsPerNs
  if s.gys.timer && decide (t ≤ s.gys.ofs) then
    let r := s.gysClose
    let s1 := r.1.gysGood r.2.2
    .next (s1.gysUpd fun g =>
      { g with cyc := ((Int.ofNat g.cyc + 1 - r.2.1) % 4294967296).toNat, ofs := g.ofs - t, tickDue := true,
               csNs := s.ns32 (s.rf Fx.GYS_CFG_TS_TB),
               ch := g.ch.map fun c => { c with acc := [], accPrev := c.acc, ref := none, t1 := none, t2 := none } })
  else .next s

/-- One edge of the 250 MHz clock on the bus timer (R247, R263). -/
def State.gysEdge (s : State) : State :=
  if s.gys.timer then
    s.gysUpd fun g =>
      let t : Int := Int.ofNat (max 1 (s.gysT * unitsPerNs))
      let n : Int := Int.ofNat g.ofs + 4 * 4294967296 + 4 * g.rate
      let done := g.corr * min n t / t
      { g with ofs := (n - (done - g.corrDone)).toNat, corrDone := done }
  else s

/-! ### Sending (R251 to R253, R258) -/

/-- A frame of this node: header, payload and CRC (Tables 07-1 and 07-2). -/
def State.gysBytes (s : State) (c kind slot cyc : Nat) (payload : List Byte) : List Byte :=
  let d := leBytes 1 (16 + kind) ++ leBytes 1 (s.gysNode * 16 + c * 8) ++ leBytes 1 slot ++ leBytes 1 (b2n s.gys.first) ++ leBytes 4 cyc
    ++ leBytes 2 payload.length ++ leBytes 2 (s.rf Fx.GYS_CFG_SCHED_ID) ++ payload
  d ++ leBytes 4 (crc32c d)

/-- A frame is sent on a channel and counted. -/
def State.gysSend (s : State) (c kind slot cyc : Nat) (payload : List Byte) : State :=
  (s.emit (.gysFrame c (s.gysBytes c kind slot cyc payload))).gysCnt c 0

/-- The node sends in slot `n` of channel `c` now (R251). -/
def State.gysMaySend (s : State) (c n : Nat) : Bool :=
  s.gysSt c == 4 && s.slEn c n && s.slOwner c n == s.gysNode && !(s.dlyCycle c s.gys.cyc && s.dlySlot c == n)

/-- The FCS of a frame on the gateway; complemented when it ends bad. -/
def fcsOf (d : List Byte) (stomp : Bool) : Nat :=
  let r := d.foldl (fun c b => crcOf 0xEDB88320 c b.toNat) 0xFFFFFFFF
  if stomp then r else Nat.xor r 0xFFFFFFFF

/-- SP16 selects its next frame (R258, R114). -/
def State.gwSelect (s : State) (ts : Nat) : State :=
  let s1 := s.examineAll 16
  if (s1.outOf 16).cur.isSome then s1
  else
    match s1.pickClass 16 with
    | some cls => (s1.startFrame 16 cls).gysUpd fun g => { g with gwId := (g.gwId + 1) % 65536, gwSent := 0, gwStamp := ts }
    | none => s1

/-- R258: the payload of a GATEWAY slot, and the state after it (DEDUCED, log entry 80). -/
def State.gwPayload (s : State) (len ts : Nat) : State × List Byte :=
  let s1 := s.gwSelect ts
  match (s1.outOf 16).cur with
  | none => (s1, zeroFill len (fragHeader s1.gys.gwId 0 0))
  | some x =>
    match s1.frameOf x.fid with
    | none => (s1, zeroFill len (fragHeader s1.gys.gwId 0 0))
    | some f =>
      let d := s1.sentBytes f 16
      let b := d ++ leBytes 4 (fcsOf d x.stomp)
      let off := s1.gys.gwSent
      let p := zeroFill len (fragHeader s1.gys.gwId off b.length ++ (b.drop off).take (len - 8))
      let s2 := s1.bump Fx.GYS_GW_CNT_COUNT 1 0
      if b.length ≤ off + (len - 8) then
        ((s2.bump Fx.GYS_GW_CNT_COUNT 1 2).transmitEnd 16 (if x.stomp then .bufEcc else .complete) false s1.gys.gwStamp, p)
      else (s2.gysUpd fun g => { g with gwSent := off + (len - 8) }, p)

/-- The payload that an own DATA, HEARTBEAT or MIRROR slot would send, read now (R252, R283, R290) (DEDUCED, log entry 78). -/
def State.slotPayload (s : State) (c n : Nat) : State × Option (List Byte) :=
  match s.slKind c n with
  | 2 => (s.poolTouch (s.slPool c n), some (s.poolRd (s.slPool c n + 8) (s.slLen c n)))
  | 3 => (s, s.hbPayload)
  | 4 => s.mirrorPayload (s.slLen c n)
  | _ => (s, none)

/-- SLOT_PAYLOAD_FETCH: 2000 ns before an own slot (DEDUCED, log entry 78). -/
def execSlotPayloadFetch (c : Fin 2) (n : Fin 64) (s : State) : Out State :=
  if s.gysSt c == 4 && s.slEn c n && s.slOwner c n == s.gysNode then
    match s.slotPayload c n with
    | (s1, some d) => .next (s1.gysChUpd c fun x => { x with fetched := sins n.val d x.fetched })
    | (s1, none) => .next s1
  else .next s

/-- SLOT_TRANSMIT: an own slot at its nominal start. -/
def execSlotTransmit (c : Fin 2) (n : Fin 64) (mismatch : Bool) (ts : Nat) (s : State) : Out State :=
  if s.gysMaySend c n then
    let k := s.slKind c n
    let cal := (Int.ofNat ts + s.gysTxCal c).toNat
    let r := if k = 5 then (match s.gwPayload (s.slLen c n) cal with | (s1, d) => (s1, some d))
      else
        match sfind n.val (s.gysChOf c).fetched with
        | some d => (s.gysChUpd c fun x => { x with fetched := sdel n.val x.fetched }, some d)
        | none => s.slotPayload c n
    match r with
    | (s1, none) => .next s1
    | (s1, some d) =>
      let s2 := s1.gysSend c k n s.gys.cyc d
      .next (if mismatch then s2.gysCnt c 12 else s2)
  else .next (s.gysChUpd c fun x => { x with fetched := sdel n.val x.fetched })

/-! ### Receiving (R254 to R259) -/

/-- Fields of a received header. -/
def hKind (b : List Byte) : Nat := leAt b 0 1 % 16
def hNode (b : List Byte) : Nat := leAt b 1 1 / 16
def hSlot (b : List Byte) : Nat := leAt b 2 1 % 64
def hCycle (b : List Byte) : Nat := leAt b 4 4
def hLen (b : List Byte) : Nat := leAt b 8 2

/-- Check 1 of Table 07-4: coding, delimiters at the ends that LEN gives, and the CRC. -/
def gysCrcOk (coding : Bool) (b : List Byte) : Bool :=
  coding && decide (16 ≤ b.length) && b.length == 16 + hLen b && crc32c (b.take (b.length - 4)) == leAt b (b.length - 4) 4

/-- Check 2: VER, KIND, reserved bits and SCHED_ID. -/
def State.gysFmtOk (s : State) (b : List Byte) : Bool :=
  leAt b 0 1 / 16 == 1 && decide (1 ≤ hKind b) && decide (hKind b ≤ 7) && leAt b 1 1 % 8 == 0 && leAt b 2 1 / 64 == 0
    && leAt b 3 1 / 2 == 0 && leAt b 10 2 == s.rf Fx.GYS_CFG_SCHED_ID

/-- The offset e of a frame in 1/256 ns against the nominal point `start` ns of the cycle that it names (R262). -/
def State.gysE (s : State) (c start : Nat) (b : List Byte) (ago : Int) : Int :=
  Int.ofNat s.ofs256 - ago - Int.ofNat (start * 256) - Int.ofNat (s.gysDly c)
    - sgn32 (hCycle b + 2 ^ 32 - s.gys.cyc) * Int.ofNat (s.gysT * 256)

/-- Checks 6 and 7 of Table 07-4 with the timer running: the counter that a frame with offset e fails at. -/
def State.gysTimeBad (s : State) (e : Int) : Option Nat :=
  let r := reduceE (s.gysT * 256) e
  let g : Int := Int.ofNat (s.gysG * 256)
  if r.1 < -g then some 7 else if g < r.1 then some 8 else if r.2 ≠ 0 then some 9 else none

/-- R270: a node in LISTEN or COLDSTART begins to integrate on a valid frame at a nominal point of its cycle. -/
def State.gysHear (s : State) (c cyc start : Nat) (ago : Int) : State :=
  if s.gys.node = 1 ∨ s.gys.node = 2 then
    (if s.gys.timer then s else s.gysStart cyc (Int.ofNat (start * 256 + s.gysDly c) + ago).toNat).gysSetNode 3
  else s

/-- R261: the frame is the node's reference in this cycle on channel `c`; a node in SYNC falls silent at once (R273). -/
def State.gysReference (s : State) (c n : Nat) (e : Int) : State :=
  let low := match s.ownLow c with | some o => decide (n < o) | none => true
  if !s.gys.timer || !low || (s.gysChOf c).ref.isSome then s
  else
    let s1 := s.gysChUpd c fun x => { x with ref := some (e, s.gys.node == 3 || s.gys.node == 5) }
    if c == 0 && s.gys.node == 4 && decide (s.gysG * 256 < 2 * e.natAbs) then
      (s1.gysUpd fun g => { g with lastE := e }).gysSilence
    else s1

/-- A gateway frame is complete and offered to the switch at SP16, where its FCS is checked (R259, R97) (DEDUCED, log entry 89). -/
def State.gwArrive (s : State) (b : List Byte) : State :=
  let d := b.take (b.length - 4)
  let s0 := s.bump Fx.GYS_GW_CNT_COUNT 1 3
  if !s0.rb Fx.CFL_CTL_EN then s0
  else
    match s0.ingress 16 d none with
    | .drop k => s0.icnt 16 k
    | .fwd ts cls vid pcp trap =>
      let s1 := if trap then s0.icnt 16 6 else s0
      if leAt b (b.length - 4) 4 ≠ fcsOf d false then
        (if s1.admits (cellsOf b.length) cls then (s1.icnt 16 0).icnt 16 4 else s1.icnt 16 1)
      else if s1.admits (cellsOf b.length) cls then
        s1.storeComplete (mkFrame d 16 cls vid pcp .gateway none false none 0) ts
      else s1.icnt 16 1

def State.gwRxSet (s : State) (n : Nat) (r : Option GwRx) : State := s.gysUpd fun g => { g with gwRx := vupd g.gwRx n fun _ => r }

/-- A partial gateway frame of a sender is discarded. -/
def State.gwDrop (s : State) (n : Nat) : State :=
  match vget none s.gys.gwRx n with
  | none => s
  | some _ => (s.gwRxSet n none).bump Fx.GYS_GW_CNT_COUNT 1 4

/-- R259: an accepted fragment of a sender (DEDUCED, log entry 80). -/
def State.gwTake (s : State) (n : Nat) (p : List Byte) : State :=
  let id := leAt p 0 2
  let off := leAt p 2 2
  let tot := leAt p 4 2
  if tot = 0 then s
  else
    let s0 := s.bump Fx.GYS_GW_CNT_COUNT 1 1
    let ok := decide (64 ≤ tot) && decide (tot ≤ 1522)
    let s1 := if off = 0 then s0.gwDrop n else s0
    let held : Option (List Byte) :=
      if off = 0 then (if ok then some [] else none)
      else match vget none s.gys.gwRx n with
        | some r => if r.id = id ∧ r.total = tot ∧ r.bytes.length = off then some r.bytes else none
        | none => none
    match held with
    | none => s1.gwDrop n
    | some h =>
      let b := h ++ (p.drop 8).take (tot - off)
      if tot ≤ b.length then (s1.gwRxSet n none).gwArrive b else s1.gwRxSet n (some ⟨id, tot, b⟩)

/-- R256: an accepted frame goes where its KIND says. -/
def State.gysAccept (s : State) (c n : Nat) (b : List Byte) : State :=
  let p := (b.drop 12).take (hLen b)
  let here := hCycle b == s.gys.cyc
  let s1 := s.gysChUpd c fun x => if here then { x with acc := n :: x.acc } else { x with accPrev := n :: x.accPrev }
  match s.slKind c n with
  | 2 =>
    (s1.poolWr (s.slPool c n + 8) p).poolWr (s.slPool c n) (leBytes 4 (hCycle b % 65536 * 256 + hNode b * 16))
  | 3 => if hNode b = s.rf Fx.PAIR_CFG_PARTNER ∧ s.pairOn = true then s1.hbAccept p else s1
  | 4 => if hNode b = s.rf Fx.PAIR_CFG_PARTNER ∧ s.rf Fx.PAIR_CFG_XPORT = 1 then s1.fragTake p else s1
  | _ => s1.gwTake (hNode b) p

/-- R268: a measurement, twice m in 1/256 ns (DEDUCED, log entry 83). -/
def State.dlyMeasure (s : State) (c : Nat) (m2 : Int) : State :=
  if 0 ≤ m2 ∧ m2 ≤ 2 * 51200 then
    s.gysChUpd c fun x =>
      let m := m2 / 2
      { x with t1 := none, good := (x.good + 1) % 256, meas := some (match x.meas with
          | none => m.toNat
          | some d => (Int.ofNat d + roundDiv (m - Int.ofNat d) 4).toNat) }
  else (s.gysChUpd c fun x => { x with t1 := none }).gysCnt c 11

/-- A response that fails a check of Table 07-4 (R268). -/
def State.dlyBad (s : State) (c kind : Nat) : State :=
  if kind = 7 ∧ (s.gysChOf c).t1.isSome then (s.gysChUpd c fun x => { x with t1 := none }).gysCnt c 11 else s

/-- Checks 4 to 7 of a frame of the delay exchange, and what it does (R267, R268) (DEDUCED, log entry 81). -/
def State.dlyReceive (s : State) (c : Nat) (b : List Byte) (ago : Int) : State :=
  let kind := hKind b
  let x := s.gysChOf c
  let from_ := if kind = 6 then some (s.gys.cyc / 256 % 16) else x.t1.map (·.2)
  let at_ := s.slStart c (s.dlySlot c) + (if kind = 7 then gysD 8 + 2 * s.gysG + 200 else 0)
  let t : Int := Int.ofNat s.ofs256 - ago
  if from_ ≠ some (hNode b) then (s.gysCnt c 5).dlyBad c kind
  else if hLen b ≠ 8 then (s.gysCnt c 6).dlyBad c kind
  else
    let s0 := s.gysHear c (hCycle b) at_ ago
    match s0.gysTimeBad (s0.gysE c at_ b ago) with
    | some k => (s0.gysCnt c k).dlyBad c kind
    | none =>
      let s1 := s0.gysCnt c 1
      if kind = 6 then
        (if leAt b 12 1 = s.gysNode ∧ leAt b 13 4 = 0 then s1.gysChUpd c fun x => { x with t2 := some t.toNat } else s1)
      else
        match x.t1 with
        | some (t1, _) => s1.dlyMeasure c (t - Int.ofNat t1 - (Int.ofNat (leAt b 16 4) - Int.ofNat (leAt b 12 4)))
        | none => s1

/-- Checks 4 to 7 of a frame in an enabled slot (DEDUCED, log entry 82). -/
def State.slotReceive (s : State) (c : Nat) (b : List Byte) (ago : Int) : State :=
  let n := hSlot b
  if hKind b ≠ s.slKind c n ∨ hNode b ≠ s.slOwner c n then s.gysCnt c 5
  else if hLen b ≠ s.slLen c n then s.gysCnt c 6
  else
    let was := s.gysSt c
    let s0 := s.gysHear c (hCycle b) (s.slStart c n) ago
    let e := s0.gysE c (s.slStart c n) b ago
    let s1 := s0.gysReference c n e
    if !s.gys.timer then s1
    else
      match s.gysTimeBad e with
      | some k => s1.gysCnt c k
      | none => if was = 4 ∨ was = 5 then (s1.gysCnt c 1).gysAccept c n b else s1.gysCnt c 1

/-- GYS_FRAME_RECEIVE: the checks of Table 07-4 in order. -/
def execGysFrameReceive (c : Fin 2) (coding : Bool) (bytes : List Byte) (ago : Nat) (s : State) : Out State :=
  let k := hKind bytes
  let dly := k == 6 || k == 7
  if (s.gysChOf c).mode ≠ 1 then .next s
  else if !gysCrcOk coding bytes then .next (s.gysCnt c 2)
  else if !s.gysFmtOk bytes then .next (s.gysCnt c 3)
  else if leAt bytes 1 1 / 8 % 2 ≠ c.val then .next (s.gysCnt c 4)
  else if k = 1 then
    .next (if hLen bytes = 0 ∧ hSlot bytes = 0 ∧ hCycle bytes = 0xFFFFFFFF then s.gysHear c 0xFFFFFFFF 0 (s.gysAgo c ago) else s)
  else if dly then .next (if s.dlyCycle c s.gys.cyc then s.dlyReceive c bytes (s.gysAgo c ago) else s.gysCnt c 4)
  else if !s.slEn c (hSlot bytes) then .next (s.gysCnt c 4)
  else .next (s.slotReceive c bytes (s.gysAgo c ago))

/-- R256: the AGE of a receive region advances. -/
def State.ageUp (s : State) (a : Nat) : State :=
  let s1 := s.poolTouch a
  if s.bankSt (poolBank a) = 0 then s1.poolWr (a + 3) (leBytes 1 (min (leNat (s.poolRd (a + 3) 1) + 1) 255)) else s1

/-- The delay exchange of a channel ends at the close of its slot: a missing response is counted (R268). -/
def State.dlyClose (s : State) (c : Nat) : State :=
  let s1 := if (s.gysChOf c).t1.isSome then s.gysCnt c 11 else s
  s1.gysChUpd c fun x => { x with t1 := none, t2 := none }

/-- What an empty slot of another node means to the gateway and to the pair unit. -/
def State.slotEmpty (s : State) (c n : Nat) : State :=
  match s.slKind c n with
  | 4 => if s.slOwner c n = s.rf Fx.PAIR_CFG_PARTNER ∧ s.rf Fx.PAIR_CFG_XPORT = 1 then s.bodyDrop else s
  | 5 => s.gwDrop (s.slOwner c n)
  | _ => s

/-- SLOT_CLOSE: R255, R256, R284 (DEDUCED, log entry 87) (DEDUCED, log entry 210). -/
def execSlotClose (c : Fin 2) (n : Fin 64) (s : State) : Out State :=
  if !s.gys.timer || !s.slEn c n || !s.rb Fx.GYS_CH_CFG_EN c then .next s
  else
    let late := decide (s.gysT < s.slStart c n + gysD (s.slLen c n) + s.gysG + 200)
    let cyc := if late then s.gys.cyc + 2 ^ 32 - 1 else s.gys.cyc
    let dly := s.dlyCycle c cyc && s.dlySlot c == n.val
    let s0 := if dly then s.dlyClose c else s
    if s.slOwner c n = s.gysNode then .next s0
    else
      let x := s.gysChOf c
      let got := (if late then x.accPrev else x.acc).contains n.val
      let st := s.gysSt c
      let s1 := if s.slKind c n = 3 ∧ s.slOwner c n = s.rf Fx.PAIR_CFG_PARTNER then s0.hbSlotClose else s0
      if got then .next s1
      else
        let s2 := if (st == 4 || st == 5) && !dly then s1.bump Fx.GYS_EMPTY_COUNT 1 c n else s1
        let s3 := if s.slKind c n = 2 then s2.ageUp (s.slPool c n) else s2
        .next (if dly then s3 else s3.slotEmpty c n)

/-! ### Delay exchange (R267) -/

/-- DELAY_REQ_SEND. -/
def execDelayReqSend (c : Fin 2) (t1 : BitVec 32) (s : State) : Out State :=
  let cyc := s.gys.cyc
  let resp := (List.range 64).find? fun n => (s.gysChOf c).accPrev.contains n && s.slOwner c n != s.gysNode
  match resp with
  | none => .next s
  | some n =>
    if s.dlyCycle c cyc && s.gysSt c == 4 && cyc / 256 % 16 == s.gysNode then
      .next ((s.gysSend c 6 0 cyc (leBytes 8 (s.slOwner c n))).gysChUpd c fun x => { x with t1 := some ((Int.ofNat t1.toNat + s.gysTxCal c).toNat, s.slOwner c n) })
    else .next s

/-- DELAY_RESP_SEND. -/
def execDelayRespSend (c : Fin 2) (t3 : BitVec 32) (s : State) : Out State :=
  match (s.gysChOf c).t2 with
  | none => .next s
  | some t2 =>
    if s.dlyCycle c s.gys.cyc && s.gysSt c == 4 then
      .next ((s.gysSend c 7 0 s.gys.cyc (leBytes 4 t2 ++ leBytes 4 (Int.ofNat t3.toNat + s.gysTxCal c).toNat)).gysChUpd c fun x => { x with t2 := none })
    else .next s

/-! ### Start-up (R270 to R274) -/

/-- A channel follows the node's state. -/
def State.gysAlive (s : State) : Bool := (s.gysChOf 0).mode == 1 || (s.gysChOf 1).mode == 1

/-- GYS_LISTEN_TIMEOUT: silence for 2T (DEDUCED, log entry 86). -/
def execGysListenTimeout (s : State) : Out State :=
  let n := s.gys.node
  if !s.gysAlive then .next s
  else if (n = 1 ∧ s.gys.timer = true) ∨ n = 3 ∨ n = 5 then .next ((s.gysUpd fun g => { g with first := true }).gysSetNode 4)
  else if n == 1 && s.rb Fx.GYS_CFG_CS_EN && (s.ownLow 0).isSome && (s.gysChOf 0).mode == 1 then .next (s.gysSetNode 2)
  else .next s

/-- COLDSTART_SEND (DEDUCED, log entry 86). -/
def execColdstartSend (s : State) : Out State :=
  if s.gys.node == 2 && (s.gysChOf 0).mode == 1 && !s.gys.csSent then
    .next (((s.gysSend 0 1 0 0xFFFFFFFF []).bump Fx.GYS_CNT_COLDSTART).gysUpd fun g => { g with csSent := true })
  else .next s

/-- COLDSTART_FRAME_END: clean, the timer starts in cycle 0xFFFF_FFFF at the frame's start; else a collision (R271). -/
def execColdstartFrameEnd (clean : Bool) (ago : Nat) (s : State) : Out State :=
  if s.gys.node == 2 && s.gys.csSent then
    if clean then .next (((s.gysStart 0xFFFFFFFF (Int.ofNat ago - s.gysTxCal 0).toNat).gysUpd fun g => { g with first := true }).gysSetNode 4)
    else .next ((s.gysCnt 0 10).gysUpd fun g => { g with csSent := false })
  else .next s

/-- INTEGRATION_ATTEMPT_END: R272. -/
def execIntegrationAttemptEnd (s : State) : Out State :=
  if s.gys.node = 3 ∧ 8 ≤ s.gys.attemptCycles then
    let n := min (s.gys.attempts + 1) 3
    let s1 := s.gysUpd fun g => { g with attempts := n, attemptCycles := 0, goodRun := 0 }
    .next (if n = 2 then
        [0, 1].foldl (fun s c =>
          if (s.gysChOf c).mode = 1 then ((s.wf Fx.GYS_CH_STS_INTEG_FAIL 1 c).gysTell c).tlog 0x32 2 c 0 else s) s1
      else s1)
  else .next s

/-- R274: a channel is isolated (DEDUCED, log entry 85). -/
def State.gysIsolate (s : State) (c : Nat) : State :=
  if (s.gysChOf c).mode = 1 then (s.gysChUpd c fun x => { x with mode := 6, fetched := [], ref := none, t1 := none, t2 := none }).gysTell c
  else s

/-- JOIN: LISTEN, or the node's state where the other channel follows it (Table 07-8). -/
def State.gysJoin (s : State) (c : Nat) : State :=
  if (s.gysChOf c).mode = 6 then
    let s1 := if (s.gysChOf (1 - c)).mode = 1 then s else s.gysUpd fun g => { g with node := 1, csSent := false, goodRun := 0 }
    (s1.gysChUpd c fun x => { x with mode := 1 }).gysTell c
  else s

/-- GYS_ISOLATE. -/
def execGysIsolate (m : Master) (c : Fin 2) (s : State) : Out State :=
  .next (s.cmdWrite m .GYS_CH_CMD c 0 1#32 false fun s => s.gysIsolate c)

/-- GYS_JOIN. -/
def execGysJoin (m : Master) (c : Fin 2) (s : State) : Out State :=
  .next (s.cmdWrite m .GYS_CH_CMD c 0 2#32 false fun s => s.gysJoin c)

/-- Entry into RUN: channels with EN listen, and the status words of receive regions are set (R257, Table 07-8). -/
def State.gysRun (s : State) : State :=
  [0, 1].foldl (fun s c =>
    if s.variant.hasCh c && s.rb Fx.GYS_CH_CFG_EN c then
      let s1 := (List.range 64).foldl (fun s n =>
        if s.slEn c n && s.slKind c n == 2 && s.slOwner c n != s.gysNode then s.poolWr (s.slPool c n) (leBytes 4 0xFF000000) else s) s
      (s1.gysChUpd c fun x => { x with mode := 1 }).gysTell c
    else s) s

/-! ### Checks of writes (R250) -/

/-- Consecutive enabled entries with the distance to the next, the first following the last after T. -/
def spansOf (t first : Nat) : List (Nat × Nat × Nat × Nat × Nat) → List (Nat × Nat × Nat)
  | [] => []
  | [e] => [(e.1, e.2.2.2.2, first + t - e.2.2.2.1)]
  | e :: f :: r => (e.1, e.2.2.2.2, f.2.2.2.1 - e.2.2.2.1) :: spansOf t first (f :: r)

/-- START rises with the slot number. -/
def rising : List (Nat × Nat × Nat × Nat × Nat) → Bool
  | e :: f :: r => decide (e.2.2.2.1 < f.2.2.2.1) && rising (f :: r)
  | _ => true

/-- Table 07-3: the schedule of channel `c` breaks a condition. -/
def State.schedBad (s : State) (c : Nat) : Bool :=
  let l := s.schedOf c
  let t := s.gysT
  let g := s.gysG
  let sp := match l with | [] => [] | e :: _ => spansOf t e.2.2.2.1 l
  let dly := s.dlySlot c
  l.isEmpty || l.any (fun e => decide (t ≤ e.2.2.2.1)) || !rising l
    || sp.any (fun e => decide (e.2.2 < gysD e.2.1 + 2 * g + 200))
    || l.any (fun e => e.2.2.2.2 % 8 != 0 || decide (2048 < e.2.2.2.2) || (e.2.1 == 5 && decide (e.2.2.2.2 < 16))
        || (e.2.1 == 2 && decide (0x200000 < s.slPool c e.1 + 8 + e.2.2.2.2))
        || ((e.2.1 == 3 || e.2.1 == 4) && !s.variant.full && e.2.2.1 == s.gysNode))
    || (s.rb Fx.GYS_CH_CFG_DLY_EN c
      && (!s.slEn c dly || s.slKind c dly == 3 || (c == 0 && (l.map (·.1)).head? == some dly)
        || sp.any (fun e => e.1 == dly && decide (e.2.2 < 2 * gysD 8 + 4 * g + 400))))

/-- R250: a channel that is enabled in `s` breaks a condition. -/
def State.gysSchedBad (s : State) : Bool := [0, 1].any fun c => s.rb Fx.GYS_CH_CFG_EN c && s.schedBad c

/-- The reserved encodings of a slot entry: KIND of an enabled entry, POOL of a slot that is not DATA, LEN (DEDUCED, log entry 88). -/
def State.slotBad (s : State) (c n : Nat) : Bool :=
  let k := s.slKind c n
  (s.slEn c n && !(decide (2 ≤ k) && decide (k ≤ 5))) || (decide (3 ≤ k) && decide (k ≤ 5) && s.slPool c n != 0) || s.slLen c n % 8 != 0

end Sys2Proof.Machine
end

