-- ==== Sys2Proof/Machine/Pair.lean ====
section
/-!
DEFINITION. The meanings of the pair unit's commands (spec/08): the HB lines, the role changes, the pairing link, commits, and
handover and reversion.
-/
namespace Sys2Proof.Machine
open Sys2Proof

/-! ### The HB lines (R281, R282) -/

/-- HB_OUT_TOGGLE: an own rising edge of the 32.768 kHz clock, while HB_OUT runs. -/
def execHbOutToggle (s : State) : Out State :=
  if s.pairOn && s.lock && !s.tph.fatal then
    .next (s.pairUpd fun p => { p with hbOut := !p.hbOut, edges := min (p.edges + 1) 3 })
  else .next s

/-- HB_IN_TRANSITION: the count is cleared and a lost path restored; R303. -/
def execHbInTransition (s : State) : Out State :=
  if !s.pairOn then .next s
  else
    let back := s.pair.hbLost
    .next (s.pairUpd fun p => { p with edges := 0, hbLost := false, suspect := p.suspect || (back && p.gysLost && p.st == 3) })

/-- HB_PATH_LOST: the third own edge without a transition. -/
def execHbPathLost (s : State) : Out State :=
  if s.pairOn && decide (3 ≤ s.pair.edges) && !s.pair.hbLost then .next ((s.pairUpd fun p => { p with hbLost := true }).pathLost 2)
  else .next s

/-! ### Role changes (Table 08-2, R296) -/

/-- No partner heartbeat is received on either path, or the last one shows ISOLATED and held (Table 08-2) (DEDUCED, log entry 209). -/
def PairU.alone (p : PairU) : Bool := (p.gysLost && p.hbLost) || (p.pByte / 32 == 0 && p.pByte % 2 == 1)

/-- LONE_START_TIMEOUT: 20 ms or 200 ms without a usable partner heartbeat (DEDUCED, log entry 209). -/
def execLoneStartTimeout (s : State) : Out State :=
  if s.pairOn && s.pair.st == 0 && !s.pair.held && s.integrated && s.pair.alone && s.pair.due.isNone then .next (s.pairDue 4) else .next s

/-- ENTER_ACTIVE: at a Geyser cycle start, once a change into ACTIVE is due and no commit is in progress (DEDUCED, log entry 93). -/
def execEnterActive (ws : List LoopAt) (failed : List (Fin 64)) (ecc : List (Fin 64 × BitVec 16)) (s : State) : Out State :=
  match s.pair.due with
  | none => .next s
  | some cause =>
    if s.pairOn && s.pair.commits.isEmpty && !s.tph.fatal then .next ((s.pairActive cause).catchUp ws failed ecc) else .next s

/-- STANDBY_STALE: 8 device cycles, from tick to tick, without a commit while the partner shows ACTIVE: the ninth tick ends them
(DEDUCED, log entry 95). -/
def execStandbyStale (s : State) : Out State :=
  if s.pairOn && s.pair.st == 2 && decide (9 ≤ s.pair.stale) && s.pair.pState == 3 then .next ((s.pairCnt 12).pairGo 1 0xA) else .next s

/-- A write of PAIR_CMD; R300 rejects a handover of a unit that is not ACTIVE beside a STANDBY. -/
def State.pairCmd (s : State) (m : Master) (v : Nat) (act : State → State) : State :=
  s.cmdWrite m .PAIR_CMD 0 0 (BitVec.ofNat 32 v) (v == 4 && !(s.pair.st == 3 && s.pair.pByte / 32 == 2)) act

/-- PAIR_ISOLATE. -/
def execPairIsolate (m : Master) (s : State) : Out State :=
  .next (s.pairCmd m 1 fun s => if s.pairOn then s.pairGo 0 0xC else s)

/-- PAIR_JOIN. -/
def execPairJoin (m : Master) (s : State) : Out State :=
  .next (s.pairCmd m 2 fun s =>
    if s.pairOn && s.pair.st == 0 && s.pair.held then (s.pairUpd fun p => { p with held := false }).pairTell 0xD else s)

/-- PAIR_HANDOVER. -/
def execPairHandover (m : Master) (s : State) : Out State := .next (s.pairCmd m 4 fun s => s.hoStart)

/-- HANDOVER_TICK: the agreed tick; the snapshot of that tick stays the last of the stream (R300, step 5). -/
def execHandoverTick (s : State) : Out State :=
  if s.pairOn && s.pair.st == 3 && s.pair.ho == 3 && s.gys.cyc == s.pair.hoCycle then .next ((s.pairCnt 1).pairGo 2 9) else .next s

/-- HANDOVER_TIMEOUT: no RDY within 16 device cycles, or no echo before the tick. -/
def execHandoverTimeout (s : State) : Out State :=
  let p := s.pair
  if s.pairOn && p.st == 3 && ((p.ho == 1 && decide (16 ≤ p.hoTicks)) || (p.ho == 2 && s.gys.cyc == p.hoCycle)) then .next s.hoFail
  else .next s

/-- REVERT_HOLDOFF_EXPIRY: R301. -/
def execRevertHoldoffExpiry (s : State) : Out State :=
  match s.pair.holdAt with
  | none => .next s
  | some t =>
    if s.pairOn && s.pair.st == 2 && decide (t ≤ s.pwr.sec) then
      .next (s.pairUpd fun p => { p with revert := true, holdAt := none })
    else .next s

/-! ### The pairing link and commits (R291 to R293) -/

/-- PAIRING_LINK_FRAME_RECEIVE: a good frame on P1, without its FCS. -/
def execPairingLinkFrameReceive (data : List Byte) (s : State) : Out State :=
  if !(s.p1IsPairLink && s.portLink 1) then .next s
  else if macAt data 0 = broadcastMac ∧ be16 data 12 = 0x88B5 ∧ byteAt data 14 = 2 ∧ byteAt data 15 = 0 ∧ 24 ≤ data.length ∧ data.length ≤ 1432 then
    .next (s.fragTake ((data.drop 16).take 1416))
  else .next (s.pairCnt 11)

/-- SNAPSHOT_COMMIT_DONE. -/
def execSnapshotCommitDone (s : State) : Out State := .next s.commitDone

/-- Entry into RUN with PAIR_CFG.EN = 1 (Table 08-2). -/
def State.pairRun (s : State) : State :=
  if s.variant.full && s.rb Fx.PAIR_CFG_EN && s.pair.st == 4 then ((s.pairUpd fun p => { p with st := 0 }).pairCan true).pairTell 1 else s

end Sys2Proof.Machine
end

