-- ==== Sys2Proof/Machine/Fault.lean ====
section
/-!
DEFINITION. Fatal faults, the watchdog and the Tephra log (spec/16). The 32.768 kHz count of the watchdog is not held: that it has
reached half its limit or its limit is what WDG_WARN and WDG_EXPIRY say.
-/
namespace Sys2Proof.Machine
open Sys2Proof

/-! ### Fatal faults (R523, R524) -/

/-- R524: clusters stop, and none is started again by a restart or a migration under way. -/
def State.fatalClusters (s : State) : State :=
  (List.range 16).foldl (fun s k => s.cluUpd k fun c =>
    if c.st = 1 then { c with st := 2, ctx := { c.ctx with wait := none } }
    else if c.st = 4 ∧ c.migFrom = 1 then { c with migFrom := 2 }
    else { c with autoDue := false }) s

/-- R524: every Rill output slot is released. Engines that run are stopped with them. -/
def State.fatalRill (s : State) : State :=
  (List.range 48).foldl (fun s e =>
    let t := s.relSlots e fun _ => true
    if (s.rilOf e).st = 1 ∨ (s.rilOf e).st = 2 then t.rillStop e else t) s

/-- R524: the pulse units stop at their inactive level (DEDUCED, log entry 151). -/
def State.pulsesOff (s : State) : State := (List.range 4).foldl (fun s k => s.plsUpd k fun u => { u with running := false, active := false }) s

/-- R524: every CAN controller goes out of service. -/
def State.fatalCan (s : State) : State :=
  (List.range 4).foldl (fun s c => if (s.canOf c).st = 0 ∨ (s.canOf c).st = 6 then s else s.canOut c) s

/-- R524: what the device does in the fatal state. HB_OUT goes low (R281); heartbeat
payloads, Ethernet ports, polling and DMA stop by `tph.fatal`. -/
def State.fatalStop (s : State) : State :=
  let s1 := (((s.fatalClusters.fatalRill).pulsesOff.fatalCan).gysIsolate 0).gysIsolate 1
  { s1 with lp := { s1.lp with running := false }, hst := { s1.hst with inFlight := false }, pair := { s1.pair with hbOut := false } }

/-- R80: the vector of a fatal fault. -/
def State.fatalVector (s : State) : State :=
  if s.rb Fx.HST_IRQ_MAP_FATAL_EN then s.trigger (s.rf Fx.HST_IRQ_MAP_FATAL_VEC) else s

/-- R523: a fatal trigger. In the fatal state a further trigger is an event only (DEDUCED, log entries 166 and 177). -/
def State.raiseFatal (s : State) (code obj data : Nat) : State :=
  let s1 := s.tlog code 3 obj data
  if s.tph.fatal then s1 else ({ s1.fatalVector with tph := { s1.fatalVector.tph with fatal := true } }).fatalStop

/-- UNDERVOLT. -/
def execUndervolt (s : State) : Out State := .next (s.raiseFatal 0x91 0 0)

/-- OVERTEMP: with the junction temperature in °C. -/
def execOvertemp (temp : BitVec 8) (s : State) : Out State := .next (s.raiseFatal 0x92 0 temp.toNat)

/-- The 25 MHz clock has stopped: every PLL loses its reference, and the link its clock. -/
def State.hseOff (s : State) : State :=
  { s with clk := { s.clk with hse := false, lock := 0 }, pcie := { s.pcie with linkUp := false } }

/-- HSE_LOSS: R498. -/
def execHseLoss (s : State) : Out State :=
  if s.clk.hse then .next (s.raiseFatal 0x83 0 0).hseOff else .next s

/-- HSE_STARTUP_TIMEOUT: 5 ms after the release of reset (Table 17-3). -/
def execHseStartupTimeout (s : State) : Out State :=
  if s.boot.st == 0 && s.boot.released && !s.clk.hse then .next (s.raiseFatal 0x83 0 0) else .next s

/-- MAIN_RAIL_LOSS: R561. -/
def execMainRailLoss (s : State) : Out State :=
  if s.pwr.vbat then .next s
  else
    let s1 := s.tlog 0x02 0 0 0
    .next { s1 with pwr := { s1.pwr with vbat := true } }

/-- MAIN_RAIL_RETURN: R561. -/
def execMainRailReturn (s : State) : Out State := .next { s with pwr := { s.pwr with vbat := false } }

/-! ### The watchdog (R520 to R522) -/

/-- WDG_KICK. -/
def execWdgKick (m : Master) (key : BitVec 8) (s : State) : Out State :=
  .next (s.cmdWrite m .TPH_WDG_KICK 0 0 (BitVec.ofNat 32 key.toNat) (key != 0x5A#8) fun s =>
    if s.tph.wdgRun && s.rb Fx.TPH_WDG_CFG_HOST then ({ s with tph := { s.tph with hostMet := true } }).wdgEval else s)

/-- The watchdog counts: it has been started, the power state is ON, and not every condition has been met (a cluster that is no longer
RUNNING can have completed them) (DEDUCED, log entry 178). -/
def State.wdgCounts (s : State) : Bool := s.tph.wdgRun && s.pwr.state == 0 && !s.wdgMet

/-- WDG_WARN: the count reaches half the limit. -/
def execWdgWarn (s : State) : Out State :=
  if s.wdgCounts then .next { s with tph := { s.tph with warn := true } } else .next s.wdgEval

/-- DATA of WDG_EXPIRED: the conditions not met. -/
def State.wdgMissing (s : State) : Nat :=
  b2n (s.rb Fx.TPH_WDG_CFG_HOST && !s.tph.hostMet) * 65536
    + ((List.range 16).map fun k =>
        if (s.rg .TPH_WDG_CLU).getLsbD k && !s.tph.cluMet.getLsbD k && ((s.cluOf k).st == 1 || (s.cluOf k).st == 4) then 2 ^ k else 0).sum

/-- WDG_EXPIRY: the count reaches the limit (DESIGN CHOICE, log entry 100). -/
def execWdgExpiry (s : State) : Out State :=
  if !s.wdgCounts then .next s.wdgEval
  else if s.tph.warn then .next (s.raiseFatal 0x90 0 s.wdgMissing)
  else .next s

/-- TPH_WDG_CFG: R522. -/
def State.wdgCfgBad (s : State) (v : Word) : Bool := v.getLsbD 31 && !v.getLsbD 30 && s.rg .TPH_WDG_CLU == 0#32
/-- TPH_WDG_CLU: a bit that names an absent cluster. -/
def State.wdgCluBad (s : State) (v : Word) : Bool := decide (2 ^ s.variant.cores ≤ v.toNat)
/-- TPH_WDG_STS. -/
def State.wdgSts (s : State) : Nat :=
  b2n s.tph.warn * 2 ^ 31 + b2n s.tph.wdgRun * 2 ^ 30 + b2n s.tph.hostMet * 2 ^ 16 + s.tph.cluMet.toNat

/-! ### The Tephra log (R526 to R531) -/

def tphEmpty : TphEntry := ⟨0, 0, 0, 0, 0, 0⟩

/-- The entry at an index of the log. -/
def State.tphAt (s : State) (i : Nat) : TphEntry := sget tphEmpty i s.tph.log

/-- R526, R529: one event is written. While the log is frozen only a further FATAL event of the same clock is (R523); nothing is written
while the log is being cleared. -/
def State.tphWrite (s : State) : State :=
  match s.tph.queue with
  | [] => s
  | e :: rest =>
    if s.tph.clearing || (s.tph.frozen && e.cls != 3) then s
    else
      { s with tph := { s.tph with
          queue := rest, log := sput tphEmpty (s.tph.total % 4096) e s.tph.log, total := (s.tph.total + 1) % 2 ^ 32,
          frozen := s.tph.frozen || e.cls == 3, freezeSeq := if e.cls = 3 then s.tph.total else s.tph.freezeSeq } }

/-- TEPHRA_ENTRY_WRITE (DESIGN CHOICE, log entry 113). -/
def execTephraEntryWrite (s : State) : Out State := .next s.tphWrite

/-- RELEASE acts (DESIGN CHOICE, log entry 113). -/
def State.tphRelease (s : State) : State := { s with tph := { s.tph with frozen := false, dropped := 0 } }

/-- The reserved values of TPH_CMD: more than one bit, and RELEASE while the log is not frozen (R529). -/
def State.tphCmdBad (s : State) (v : Word) : Bool :=
  decide (1 < b2n (v.getLsbD 0) + b2n (v.getLsbD 1) + b2n (v.getLsbD 2)) || (v.getLsbD 0 && !s.tph.frozen)

/-- The effect of TPH_CMD. -/
def State.tphOp (s : State) (v : Word) : State :=
  if v.getLsbD 2 then s.raiseFatal 0x93 0 0
  else if v.getLsbD 1 then { s with tph := { s.tph with clearing := true } }
  else if v.getLsbD 0 then s.tphRelease
  else s

/-- A write of TPH_CMD. -/
def State.tphCmd (s : State) (m : Master) (v : Word) : State := s.cmdWrite m .TPH_CMD 0 0 v (s.tphCmdBad v) fun s => s.tphOp v

/-- TPH_FREEZE. -/
def execTphFreeze (m : Master) (s : State) : Out State := .next (s.tphCmd m 4#32)
/-- TPH_CLEAR. -/
def execTphClear (m : Master) (s : State) : Out State := .next (s.tphCmd m 2#32)
/-- TPH_RELEASE. -/
def execTphRelease (m : Master) (s : State) : Out State := .next (s.tphCmd m 1#32)

/-- TPH_CLEAR_DONE. -/
def execTphClearDone (s : State) : Out State :=
  if s.tph.clearing then .next ({ s with tph := { s.tph with clearing := false, log := [], total := 0 } }).tphRelease
  else .next s

/-- Word `w` of an entry (Table 16-6). -/
def TphEntry.word (e : TphEntry) (w : Nat) : Nat :=
  match w with
  | 0 => e.sec
  | 1 => e.ns
  | 2 => e.code + e.obj * 65536 + e.cls * 2 ^ 30
  | _ => e.data

/-- TPH_WINDOW_READ of word `w` of the window: R530. -/
def State.tphRead (s : State) (w : Nat) (ecc : Bool) : State × Nat :=
  let s1 := s.tphWrite
  if ecc then (s1.wf Fx.TPH_STS_ECC 1, 0xFFFFFFFF)
  else (s1, (s1.tphAt (128 * s.rf Fx.TPH_PAGE_PAGE + w / 4)).word (w % 4))

/-- TPH_WINDOW_READ: a word whose error persists after its re-read is `ecc`. -/
def execTphWindowRead (m : Master) (w : Fin 512) (ecc : Bool) (s : State) : Out State :=
  let r := s.tphRead w.val ecc
  .next (r.1.emit (.readData m (0x3800 + 4 * w.val) 4 r.2))

/-- TPH_STS. -/
def State.tphSts (s : State) : Nat :=
  b2n s.tph.frozen * 2 ^ 31 + b2n s.tph.fatal * 2 ^ 30 + s.rf Fx.TPH_STS_ECC * 2 ^ 29 + s.tph.dropped

end Sys2Proof.Machine
end

