-- ==== Sys2Proof/Machine/Memory.lean ====
section
/-!
DEFINITION. The memories (spec/15, and the pool batches of spec/01): pool bank batches, ECC re-reads, host atomics, bank states,
the background test and soft repair.
-/
namespace Sys2Proof.Machine
open Sys2Proof

/-! ### Memory inventory (Table 15-1) -/

/-- Rows of a memory; 0 without background test. -/
def rowsOf (m : Nat) : Nat :=
  if m < 32 then 256 else if m < 48 then 128 else if m < 52 then 32 else if m = 52 then 96 else 0

/-- The memory is present on the variant (R484, Table 00-2). -/
def memPresent (v : Variant) (m : Nat) : Bool :=
  if 16 ≤ m ∧ m < 32 then decide (m - 16 < v.cores) else if m = 52 then v.full else decide (m ≤ 55)

/-- The memory has bank states other than ON. -/
def bankable (m : Nat) : Bool := decide (m < 32) || (decide (48 ≤ m) && decide (m < 52))

/-- The contents of a memory are lost. -/
def State.memLost (s : State) (m : Nat) : State :=
  if m < 16 then { s with pool := s.pool.filter fun c => poolBank c.1 != m }
  else if m < 32 then s.coreUpd (m - 16) fun c => { c with imem := [], dmem := [] }
  else if 48 ≤ m ∧ m < 52 then s.canUpd (m - 48) fun c => { c with ram := [] }
  else s

/-! ### Pool batches (R32 to R34) -/

/-- Numbers of the places in the order of R32, and the sharer. -/
def placeNum : PoolPlace → Nat
  | .mirror => 0
  | .host _ => 1
  | .loop => 2
  | .core n _ => 3 + n.val
def placeSharer : PoolPlace → Nat
  | .host k => k.val
  | .core _ k => k.val
  | _ => 0

/-- The rank of a sharer at a bank: the host place serves in the order of R163, a core's in rotation from the one last served (R34)
(DESIGN CHOICE, log entry 164). -/
def MemU.rank (u : MemU) (b : Nat) (p : PoolPlace) : Nat :=
  match p with
  | .core _ k => (k.val + 4 - sget 0 (32 * b + placeNum p) u.rot) % 4
  | _ => placeSharer p

/-- The request that place `p` has served in a batch of bank `b`: of the sharer with the lowest rank, its oldest. -/
def MemU.chosen (u : MemU) (b p : Nat) : Option PoolReq :=
  (u.reqs.filter fun q => q.1 == b && placeNum q.2.place == p).foldl (fun best q =>
    match best with
    | none => some q.2
    | some x => if u.rank b q.2.place < u.rank b x.place then some q.2 else some x) none

/-- Remove the first occurrence of a request. -/
def dropReq (b : Nat) (q : PoolReq) : List (Nat × PoolReq) → List (Nat × PoolReq)
  | [] => []
  | x :: t => if x = (b, q) then t else x :: dropReq b q t

/-- The bytes of a word after a write of its lanes. -/
def laneMerge (old : List Byte) (lanes : BitVec 8) (v : BitVec 64) : List Byte :=
  (List.range 8).map fun i => if lanes.getLsbD i then BitVec.ofNat 8 (v.toNat / 256 ^ i) else old.getD i 0

/-- Whether a place's writes stop at a mirror region in STANDBY and SYNCING (Table 08-3): those of the host and the cores. -/
def placeGuarded : PoolPlace → Bool
  | .host _ => true
  | .core _ _ => true
  | _ => false

/-- A write of a batch into the pool. -/
def State.batchPut (s : State) (p : PoolPlace) (a : Nat) (d : List Byte) : State :=
  if placeGuarded p then s.poolWrProt a d else s.poolWr a d

/-- GLB_REJ_ADDR.OFFSET within the word, and GLB_REJ_DATA, of a rejected write of these lanes: the 32-bit half that holds the lowest
(DEDUCED, log entry 66). -/
def laneRej (lanes : BitVec 8) (v : BitVec 64) : Nat × Word :=
  let low := ((List.range 8).find? fun i => lanes.getLsbD i).getD 0
  let h := low / 4 * 4
  (low, BitVec.ofNat 32 (leNat ((List.range 4).map fun i =>
    if lanes.getLsbD (h + i) then BitVec.ofNat 8 (v.toNat / 256 ^ (h + i)) else 0#8)))

/-- What a request finds while its bank is not ON (R491): a PCIe access reads 0 and its write is rejected, an access of a core raises
ACCESS_FAULT in the instruction that makes it, and any other is dropped and counted (DEDUCED, log entry 66). -/
def State.batchOff (s : State) (q : PoolReq) (a : Nat) : State :=
  let read := fun (s : State) => if q.op = .read then s.emit (.poolData q.place a 0) else s
  match q.place with
  | .host 2 =>
    match q.op with
    | .write lanes v => s.reject .pcie .unmapped (0x1000000 + a + (laneRej lanes v).1) (laneRej lanes v).2
    | _ => read s
  | .core _ 0 => s
  | .core _ 1 => s
  | _ => read (s.bump Fx.MEM_OFF_ACC_COUNT)

/-- The operation reads the word. -/
def reads : PoolOp → Bool
  | .write _ _ => false
  | _ => true

/-- Serve a request at its place in the batch. -/
def State.serve (s : State) (b : Nat) (q : PoolReq) : State :=
  let a := b * 131072 + q.word.toNat * 8
  if s.bankSt b ≠ 0 then s.batchOff q a
  else
    let s1 := match q.ecc with
      | .clean => s
      | .retryOk => s.eccRetry b (q.word.toNat * 8)
      | .fail => s.eccFail b (q.word.toNat * 8)
    if q.ecc = .fail && reads q.op then s1
    else
      let old := rdBytes s1.pool a 8
      let atom := fun (high : Bool) (f : Nat → Nat) =>
        let o := if high then 4 else 0
        let was := leNat ((old.drop o).take 4)
        (s1.batchPut q.place (a + o) (leBytes 4 (f was))).emit (.poolData q.place (a + o) was)
      match q.op with
      | .read => s1.emit (.poolData q.place a (leNat old))
      | .write lanes v => s1.batchPut q.place a (laneMerge old lanes v)
      | .add high v => atom high fun was => was + v.toNat
      | .swap high v => atom high fun _ => v.toNat

/-- POOL_BATCH: requests arrive at a bank and a batch begins: each place has at most one of its requests served, in the order of R32;
the rest join the next batch (DESIGN CHOICE, log entry 164). -/
def execPoolBatch (b : Fin 16) (arrivals : List PoolReq) (s : State) : Out State :=
  let s1 := { s with mem := { s.mem with reqs := s.mem.reqs ++ arrivals.map fun q => (b.val, q) } }
  .next ((List.range 19).foldl (fun t p =>
    match s1.mem.chosen b p with
    | none => t
    | some q =>
      let t1 := { t with mem := { t.mem with reqs := dropReq b q t.mem.reqs, rot := sput 0 (32 * b.val + p) (placeSharer q.place + 1) t.mem.rot } }
      t1.serve b q) s1)

/-! ### ECC re-reads (R485 to R487) -/

/-- R487: the stored errors of a row within REP_WIN_S seconds, the present one included (DEDUCED, log entry 157). -/
def State.storedErr (s : State) (m row : Nat) : State :=
  let win := s.rf Fx.MEM_REP_CFG_REP_WIN_S
  let l := (s.mem.stored.filter fun x => decide (s.pwr.sec ≤ x.2.2 + win)) ++ [(m, row, s.pwr.sec)]
  let s1 := { s with mem := { s.mem with stored := l } }
  if s.rf Fx.MEM_REP_CFG_REP_THR ≤ (l.filter fun x => x.1 == m && x.2.1 == row).length then
    ({ s1 with mem := { s1.mem with stored := l.filter fun x => !(x.1 == m && x.2.1 == row) } }).suspect m row
  else s1

/-- ECC_REREAD of the word at a byte offset: a single-bit error that is gone or found again (R485), or an uncorrectable one whose
second read is good or fails (R486), which is fatal in memories 54 and 55 (R523) (DESIGN CHOICE, log entry 217). -/
def execEccReread (m : Fin 56) (off : BitVec 18) (e : Reread) (s : State) : Out State :=
  if !memPresent s.variant m then .next s
  else
    match e with
    | .transient => .next (({ s with mem := { s.mem with sbErr := min (s.mem.sbErr + 1) 0xFFFFFFFF } }).bump Fx.MEM_ECC_CNT_TRANSIENT)
    | .stored => .next ((s.bump Fx.MEM_ECC_CNT_STORED).storedErr m (rowOf m off.toNat))
    | .retryOk => .next (s.eccRetry m off.toNat)
    | .fail =>
      if m.val = 54 ∨ m.val = 55 then
        .next (((s.bump Fx.MEM_UNCORR_CNT_FAIL).post 6 0x60 m 0 off.toNat).raiseFatal 0x72 m off.toNat)
      else .next (s.eccFail m off.toNat)

/-! ### Host atomics (R488, R489) -/

/-- The reserved cases of MEM_ATOM_CMD. -/
def State.atomBad (s : State) : Bool := decide (lockBase ≤ s.rf Fx.MEM_ATOM_ADDR_ADDR * 4)

/-- The effect of MEM_ATOM_CMD: 1 ADD, 2 SWAP. While the bank is not ON the word reads 0 and nothing is written (R491)
(DEDUCED, log entry 165). -/
def State.atomOp (s : State) (op : Nat) : State :=
  let a := s.rf Fx.MEM_ATOM_ADDR_ADDR * 4
  let v := (s.rg .MEM_ATOM_DATA).toNat
  if s.bankSt (poolBank a) ≠ 0 then s.sg .MEM_ATOM_RES 0 0 0#32
  else
    let was := leNat (rdBytes s.pool a 4)
    (s.poolWrProt a (leBytes 4 (if op = 1 then was + v else v))).sg .MEM_ATOM_RES 0 0 (BitVec.ofNat 32 was)

/-- A write of MEM_ATOM_CMD. -/
def State.atomCmd (s : State) (m : Master) (op : Nat) : State :=
  s.cmdWrite m .MEM_ATOM_CMD 0 0 (BitVec.ofNat 32 op) s.atomBad fun s => s.atomOp op

/-- ATOM_ADD. -/
def execAtomAdd (m : Master) (s : State) : Out State := .next (s.atomCmd m 1)
/-- ATOM_SWAP. -/
def execAtomSwap (m : Master) (s : State) : Out State := .next (s.atomCmd m 2)

/-! ### Bank states (R490 to R493) -/

/-- Pool ranges named by set-up registers of enabled functions, and by loaded images (R492): offset and length. -/
def State.poolNamed (s : State) : List (Nat × Nat) :=
  let mreg := (List.range 32).filterMap fun r =>
    if s.rb Fx.PAIR_MREG_BASE_EN r then some (s.rf Fx.PAIR_MREG_BASE_BASE r * 8, s.rf Fx.PAIR_MREG_LEN_LEN r) else none
  let stage := if s.pairOn then [(s.rf Fx.PAIR_STAGE_BASE * 4096, 16384)] else []
  let slots := (List.range 2).flatMap fun c => (List.range 64).filterMap fun n =>
    if s.slEn c n && s.slKind c n == 2 then some (s.slPool c n, s.slLen c n + 8) else none
  let fq := (List.range 16).filterMap fun k =>
    let a := s.rf Fx.ENG_FQ_RXBASE_BASE k * 8
    if s.rf Fx.ENG_FQ_RXGEO_COUNT k != 0 && decide (0x100000 ≤ a) then
      some (a - 0x100000, s.rf Fx.ENG_FQ_RXGEO_COUNT k * (s.rf Fx.ENG_FQ_RXGEO_BUFSZ k * 64))
    else none
  let can := (List.range 4).filterMap fun c =>
    if s.rb Fx.CAN_XCH_CFG_EN c then some (s.canBase c, 0xDC0 + 80 * s.canRxn c) else none
  let loop := (List.range 64).flatMap fun n =>
    if s.rb Fx.LOOP_CFG_EN && s.rf Fx.LOOP_MODE_MODE n != 0 then
      [(s.rf Fx.LOOP_IN_ADDR n * 8, 8), (s.rf Fx.LOOP_OUT_ADDR n * 8, 8)]
        ++ (if s.rb Fx.LOOP_SCFG_AGE_EN n then [(s.rf Fx.LOOP_AGE_ADDR n * 4, 4)] else [])
    else []
  let pcmd := if s.rb Fx.LOOP_CFG_EN && s.rb Fx.LOOP_PCMD_EN then [(s.rf Fx.LOOP_PCMD_ADDR * 8, 8)] else []
  let tw := (List.range 4).flatMap fun w =>
    if s.rb Fx.CFL_TW_CFG_EN w then
      ((List.range 32).filterMap fun r => let x := s.rule w r; if x.en then some (x.pool, x.len) else none)
        ++ (if s.rb Fx.CFL_TW_SEQ_EN w then [(s.rf Fx.CFL_TW_SEQ_ADDR w * 8, 8)] else [])
    else []
  let imgs := s.boot.imgs.toList.flatMap fun i =>
    match i with
    | some x => (x.piBase, 32 + x.inLen + x.outLen) :: x.claims
    | none => []
  mreg ++ stage ++ slots ++ fq ++ can ++ loop ++ pcmd ++ tw ++ imgs

/-- R492: the memory is in use. -/
def State.bankUsed (s : State) (m : Nat) : Bool :=
  if m < 16 then
    m == 15 || s.poolNamed.any fun r => decide (0 < r.2) && decide (r.1 < (m + 1) * 131072) && decide (m * 131072 < r.1 + r.2)
  else if m < 32 then !(s.coreOf (m - 16)).oos
  else s.rb Fx.CAN_CFG_EN (m - 48) && (s.canOf (m - 48)).st != 6

/-- R493, R501: the reserved cases of MEM_BANK_CMD. -/
def State.bankBad (s : State) (op m : Nat) : Bool :=
  !memPresent s.variant m || !bankable m || s.bankSt m == op - 1 || s.mem.bankOp.isSome || s.pwr.state != 0

/-- A bank command ends with a result (1 OK, 2 IN_USE, 3 BUSY). -/
def State.bankEnd (s : State) (m res : Nat) : State :=
  ({ s with mem := { s.mem with bankOp := none, bankRes := res, bankMem := m } }).maintDone 4 res

/-- The effect of MEM_BANK_CMD: the token is requested (DEDUCED, log entry 163). -/
def State.bankReq (s : State) (op m : Nat) : State :=
  match s.tokAns with
  | .busy => (s.tokReq 4).bankEnd m 3
  | _ =>
    let s1 := s.tokReq 4
    { s1 with mem := { s1.mem with bankOp := some (op, m), bankRes := 0, bankMem := m } }

/-- A write of MEM_BANK_CMD. -/
def State.bankCmd (s : State) (src : Master) (op m : Nat) : State :=
  s.cmdWrite src .MEM_BANK_CMD 0 0 (BitVec.ofNat 32 (op * 2 ^ 28 + m)) (s.bankBad op m) fun s => s.bankReq op m

/-- BANK_ON. -/
def execBankOn (src : Master) (m : Fin 64) (s : State) : Out State := .next (s.bankCmd src 1 m)
/-- BANK_RET. -/
def execBankRet (src : Master) (m : Fin 64) (s : State) : Out State := .next (s.bankCmd src 2 m)
/-- BANK_OFF. -/
def execBankOff (src : Master) (m : Fin 64) (s : State) : Out State := .next (s.bankCmd src 3 m)
/-- BANK_OOS. -/
def execBankOos (src : Master) (m : Fin 64) (s : State) : Out State := .next (s.bankCmd src 4 m)

/-- A memory takes a state: OFF loses its contents, and ON from OFF or OOS initialises every word to 0 (Table 15-2). -/
def State.bankSet (s : State) (op m : Nat) : State :=
  let was := s.bankSt m
  let s1 := { s with bank := vupd s.bank m fun _ => op - 1 }
  if op = 3 ∨ (op = 1 ∧ was ≠ 1) then s1.memLost m else s1

/-- BANK_POWER_DONE (DESIGN CHOICE, log entry 161). -/
def execBankPowerDone (s : State) : Out State :=
  match s.mem.bankOp with
  | none => .next s
  | some (op, m) =>
    if s.tok.holder ≠ 4 then .next s
    else if op ≠ 1 ∧ s.bankSt m = 0 ∧ s.bankUsed m = true then .next (s.bankEnd m 2).tokRelease
    else .next ((s.bankSet op m).bankEnd m 1).tokRelease

/-! ### Background test and soft repair (R505 to R511) -/

/-- The row can be tested: the memory is present and ON and has rows (R505). -/
def State.testable (s : State) (m row : Nat) : Bool := memPresent s.variant m && s.bankSt m == 0 && decide (row < rowsOf m)

/-- The row itself where it can be tested, else the first row of the next memory that can, at most `n` memories on; the sweep wraps
after memory 52. -/
def State.nextRow (s : State) (m row : Nat) : Nat → Nat × Nat
  | 0 => (m, row)
  | n + 1 =>
    if s.testable m row then (m, row)
    else s.nextRow ((m + 1) % 53) 0 n

/-- The row of the sweep that is next. -/
def State.sweepRow (s : State) : Nat × Nat := s.nextRow s.mem.btNext.1 s.mem.btNext.2 54

/-- A request of the background test for the token. -/
def State.btAsk (s : State) (who : Option Nat) : State :=
  match s.tokAns with
  | .busy => s.tokReq 6
  | _ =>
    let s1 := s.tokReq 6
    { s1 with mem := { s1.mem with btQ := s1.mem.btQ ++ [who] } }

/-- BT_REQUEST: from RUN on, every PERIOD_US; a request that still waits or runs is not repeated. -/
def execBtRequest (s : State) : Out State :=
  if s.lock && s.pwr.state == 0 && s.rb Fx.MEM_BT_CFG_EN && !s.mem.btQ.contains none then .next (s.btAsk none) else .next s

/-- The row that is tested now: of a FULL run, a suspect one, the one that MEM_BT_CMD ROW names, or the next of the sweep
(DEDUCED, log entry 160). -/
def State.btPick (s : State) (who : Option Nat) : BtRun :=
  match who with
  | some m => ⟨m, s.mem.btFull, 1, s.mem.suspects.contains (m, s.mem.btFull), 2⟩
  | none =>
    match s.mem.suspects.find? fun x => s.testable x.1 x.2 with
    | some (m, r) => ⟨m, r, 1, true, 1⟩
    | none =>
      match s.mem.btRow with
      | some (m, r) => ⟨m, r, 1, false, 1⟩
      | none => ⟨s.sweepRow.1, s.sweepRow.2, 1, s.mem.suspects.contains s.sweepRow, 0⟩

/-- ROW_TEST: the row is copied into the save buffer and a March run begins. Accesses to the row are served from the save buffer with
the same outcome as from the row (R506). -/
def execRowTest (s : State) : Out State :=
  match s.mem.btQ with
  | [] => .next s
  | who :: _ =>
    if s.tok.holder != 6 || s.mem.btRun.isSome then .next s
    else .next { s with mem := { s.mem with btRun := some (s.btPick who) } }

/-- R510: a free spare of the row's bank. -/
def State.freeSpare (s : State) (m row : Nat) : Option Nat :=
  let k0 := if 16 ≤ m ∧ m < 32 ∧ 128 ≤ row then 4 else 0
  ((List.range 4).map (k0 + ·)).find? fun k => !s.rb Fx.MEM_SPARE_VALID m k

/-- Bytes of a row. -/
def rowBytes (m : Nat) : Nat := if 32 ≤ m ∧ m < 48 then 2048 else 512

/-- R509, R510: repair a row; the result for MAINT_DONE. -/
def State.repair (s : State) (m row : Nat) : State × Nat :=
  let s0 := { s with mem := { s.mem with suspects := s.mem.suspects.filter fun x => x != (m, row),
                                         stored := s.mem.stored.filter fun x => !(x.1 == m && x.2.1 == row) } }
  match s0.freeSpare m row with
  | some k =>
    ((((s0.sg .MEM_SPARE m k (BitVec.ofNat 32 (2 ^ 31 + row))).bump Fx.MEM_BT_CNT_REPAIRED).post 6 0x62 m k (row * rowBytes m)).tlog
      0x74 2 m (k * 65536 + row), 1)
  | none => ((s0.bump Fx.MEM_BT_CNT_REPAIR_FAIL).tlog 0x75 2 m row, 2)

/-- The sweep goes on after a row; after the last row of the sweep it wraps, which is counted. -/
def State.sweepOn (s : State) (m row : Nat) : State :=
  let n := s.nextRow m (row + 1) 54
  let wrapped := n.1 < m || (n.1 == m && n.2 ≤ row)
  let s1 := { s with mem := { s.mem with btNext := n, sweeps := if wrapped then (s.mem.sweeps + 1) % 65536 else s.mem.sweeps } }
  if wrapped then s1.maintDone 6 0 else s1

/-- The row is restored and the test of it ends: the sweep, the ROW request or the FULL run goes on, and the token is released
(DEDUCED, log entry 159). -/
def State.btEnd (s : State) (x : BtRun) (done : Bool) : State :=
  let s1 := { s with mem := { s.mem with btRun := none } }
  match x.src with
  | 2 =>
    if done && decide (x.row + 1 < rowsOf x.m) then { s1 with mem := { s1.mem with btFull := x.row + 1 } }
    else if done then ({ s1 with mem := { s1.mem with btFull := 0, btQ := s1.mem.btQ.drop 1 } }).memLost x.m |>.tokRelease
    else s1
  | 1 =>
    let s2 := { s1 with mem := { s1.mem with btQ := s1.mem.btQ.drop 1,
                                             btRow := if done && s1.mem.btRow == some (x.m, x.row) then none else s1.mem.btRow } }
    s2.tokRelease
  | _ =>
    let s2 := { s1 with mem := { s1.mem with btQ := s1.mem.btQ.drop 1 } }
    (if done then s2.sweepOn x.m x.row else s2).tokRelease

/-- ROW_TEST_DONE: a March run has ended, with or without a failing read (R508, R509). -/
def execRowTestDone (failed : Bool) (s : State) : Out State :=
  match s.mem.btRun with
  | none => .next s
  | some x =>
    if failed && x.run == 1 then .next { s with mem := { s.mem with btRun := some { x with run := 2 } } }
    else
      let s1 := if x.run = 2 ∧ failed = false then (s.bump Fx.MEM_BT_CNT_RETRY_OK).tlog 0x73 1 x.m x.row else s
      if failed || x.suspect then
        let r := s1.repair x.m x.row
        .next ((r.1.maintDone 6 r.2).btEnd x true)
      else .next ((if x.run = 2 then s1.maintDone 6 3 else s1).btEnd x true)

/-- BT_ABORT: MAX_US after the first copy; the row is tested again at the next request (R507). -/
def execBtAbort (s : State) : Out State :=
  match s.mem.btRun with
  | none => .next s
  | some x => .next (((s.bump Fx.MEM_BT_CNT_ABORT).maintDone 6 4).btEnd x false)

/-- The reserved cases of MEM_BT_CMD: a row with FULL, and R501 for FULL, which requests the token (DEDUCED, log entry 158). -/
def State.btCmdBad (s : State) (v : Word) : Bool := bits v 31 30 == 2 && (bits v 7 0 != 0 || s.pwr.state != 0)

/-- The effect of MEM_BT_CMD. A row that R505 skips, and FULL of a memory that is not OOS, name nothing to test
(DEDUCED, log entry 158). -/
def State.btOp (s : State) (v : Word) : State :=
  let m := bits v 13 8
  let row := bits v 7 0
  if bits v 31 30 = 1 then (if s.testable m row then { s with mem := { s.mem with btRow := some (m, row) } } else s)
  else if memPresent s.variant m && s.bankSt m == 3 && !s.mem.btQ.contains (some m) then
    ({ s with mem := { s.mem with btFull := if s.mem.btQ.any Option.isSome then s.mem.btFull else 0 } }).btAsk (some m)
  else s

/-- A write of MEM_BT_CMD. -/
def State.btCmd (s : State) (src : Master) (v : Word) : State := s.cmdWrite src .MEM_BT_CMD 0 0 v (s.btCmdBad v) fun s => s.btOp v

/-- BT_ROW. -/
def execBtRow (src : Master) (m : Fin 64) (row : BitVec 8) (s : State) : Out State :=
  .next (s.btCmd src (BitVec.ofNat 32 (2 ^ 30 + m.val * 256 + row.toNat)))
/-- BT_FULL. -/
def execBtFull (src : Master) (m : Fin 64) (s : State) : Out State := .next (s.btCmd src (BitVec.ofNat 32 (2 ^ 31 + m.val * 256)))

/-! ### Register values -/

/-- MEM_TOKEN_STS. -/
def State.tokenSts (s : State) : Nat := s.tok.holder * 2 ^ 28 + s.tok.fifo.length * 2 ^ 20

/-- MEM_BANK_RES. -/
def State.bankResWord (s : State) : Nat := b2n s.mem.bankOp.isSome * 2 ^ 31 + s.mem.bankRes * 2 ^ 28 + s.mem.bankMem

/-- MEM_BANK_STS of a memory: 4 WAKING while a command ON holds the token (DEDUCED, log entry 162). -/
def State.bankSts (s : State) (m : Nat) : Nat :=
  if memPresent s.variant m then
    let st := if s.mem.bankOp == some (1, m) && s.tok.holder == 4 then 4 else s.bankSt m
    let spares := ((List.range 8).filter fun k => s.rb Fx.MEM_SPARE_VALID m k).length
    2 ^ 31 + st * 2 ^ 28 + spares * 2 ^ 24 + rowsOf m
  else 0

/-- MEM_BT_STS. -/
def State.btSts (s : State) : Nat :=
  let at_ := match s.mem.btRun with | some x => (x.m, x.row) | none => s.sweepRow
  s.mem.sweeps * 65536 + b2n (!s.mem.btQ.isEmpty && s.tok.holder != 6) * 2 ^ 15 + b2n s.mem.btRun.isSome * 2 ^ 14
    + at_.1 * 256 + at_.2

end Sys2Proof.Machine
end

