-- ==== Sys2Proof/Machine/Power.lean ====
section
/-!
DEFINITION. Clocks, device reset and the power states (spec/15, Clocks and Power domains; spec/17, Resets).
-/
namespace Sys2Proof.Machine
open Sys2Proof

/-! ### PLLs (R494 to R497) -/

/-- The units of a PLL are in use by the set-up (R497); the PLLs of step 2 of INIT always are. -/
def State.pllUsed (s : State) (n : Nat) : Bool :=
  match n with
  | 4 => ((List.range 48).any fun e => (List.range 4).any fun j => s.slotEn e j)
      || (List.range 4).any fun k => s.rb Fx.TB_CAP_CFG_EN k || s.rb Fx.TB_PLS_CFG_EN k
  | 5 => (List.range 4).any fun c => s.rb Fx.CAN_CFG_EN c
  | 6 => (List.range 2).any fun p => s.rb Fx.MAC_CFG_EN p
  | 7 => (List.range 8).any fun p => s.rb Fx.MAC_CFG_EN (p + 2)
  | _ => true

/-- R497: the PLLs of the field units that start at entry into RUN and at a wake, as a mask; one that has failed stays stopped. -/
def State.pllWanted (s : State) : Nat :=
  ((List.range 4).map fun i =>
    let n := i + 4
    if (!(s.rf Fx.CLK_CFG_STOP_UNUSED).testBit i || s.pllUsed n) && !s.clk.fail.testBit n then 2 ^ n else 0).sum

/-- Start the PLLs of R497 (DESIGN CHOICE, log entry 147). -/
def State.pllStart (s : State) : State := { s with clk := { s.clk with started := Nat.lor s.clk.started s.pllWanted } }

/-- Clear a bit of a mask. -/
def clearBit (m n : Nat) : Nat := if m.testBit n then m - 2 ^ n else m

/-- PLL_LOCK: a started PLL achieves lock (its reference runs then) (DESIGN CHOICE, log entry 148). -/
def execPllLock (n : Fin 8) (s : State) : Out State :=
  if !s.clk.started.testBit n || s.pll n then .next s
  else
    let again := s.clk.second.testBit n
    let s1 := { s with clk := { s.clk with hse := true, lock := Nat.lor s.clk.lock (2 ^ n.val), second := clearBit s.clk.second n } }
    .next (if again then (s1.bump Fx.CLK_CNT_RELOCK_OK).tlog 0x80 1 n 0 else s1)

/-- A PLL fails for the second time: its FAIL bit, and for PLL_CORE, PLL_FAB and PLL_TB the fatal fault (R496)
(DESIGN CHOICE, log entry 147). -/
def State.pllFail (s : State) (n : Nat) : State :=
  let s1 := ({ s with clk := { s.clk with started := clearBit s.clk.started n, second := clearBit s.clk.second n,
                                          fail := Nat.lor s.clk.fail (2 ^ n) } }).bump Fx.CLK_CNT_LOCK_FAIL
  if n ≤ 2 then s1.raiseFatal 0x81 n 0 else s1.tlog 0x81 2 n 0

/-- PLL_LOCK_LOSS: a running PLL loses lock, and is stopped and started once more. The link of the endpoint falls with its clock. -/
def execPllLockLoss (n : Fin 8) (s : State) : Out State :=
  if !s.pll n then .next s
  else
    let s1 := { s with clk := { s.clk with lock := clearBit s.clk.lock n, second := Nat.lor s.clk.second (2 ^ n.val) } }
    .next (if n.val = pllPcie then ({ s1 with pcie := { s1.pcie with linkUp := false } }).abandonReads else s1)

/-- PLL_LOCK_TIMEOUT: not locked 50 µs after its start. -/
def execPllLockTimeout (n : Fin 8) (s : State) : Out State :=
  if !s.clk.started.testBit n || s.pll n then .next s
  else if s.clk.second.testBit n then .next (s.pllFail n)
  else .next { s with clk := { s.clk with second := Nat.lor s.clk.second (2 ^ n.val) } }

/-- LSE_LOSS: R498. -/
def execLseLoss (s : State) : Out State :=
  if s.clk.lse then .next (({ s with clk := { s.clk with lse := false } }).tlog 0x82 2 0 0) else .next s

/-- LSE_RETURN. -/
def execLseReturn (s : State) : Out State := .next { s with clk := { s.clk with lse := true } }

/-- CLK_STS. -/
def State.clkSts (s : State) : Nat := b2n s.clk.lse * 2 ^ 17 + b2n s.clk.hse * 2 ^ 16 + s.clk.fail * 256 + s.clk.lock

/-! ### Device reset (R532, R533) -/

/-- FEAT_DEV: the device number, and stepping A0 (PRESUMED, log entry 145). -/
def featDev : Variant → Nat
  | .lx2416 => 0x24161000
  | .lx2412 => 0x24121000
  | .lx1608 => 0x16081000

/-- Whether the clocks that carry the PCIe link run on through a reset of cause 2 or 3 (R535) (DEDUCED, log entry 149). -/
def State.linkKept (s : State) (cause : Nat) : Bool :=
  (cause == 2 || cause == 3) && s.clk.hse && s.pll pllPcie && s.clk.fail % 8 == 0

/-- What a reset of everything outside the always-on island and the fuses leaves (R532, R533): the state at the release of reset, but for
the variant, the fuses, the always-on values, and the model's own fields (PRESUMED, log entry 99). -/
def State.deviceReset (s : State) (cause : Nat) : State :=
  let t := State.reset
  let u := { t with
    variant := s.variant
    cfl := Cfl.reset s.variant
    pcie := if s.linkKept cause then { Pcie.reset with linkUp := s.pcie.linkUp, bme := s.pcie.bme, rateKb := s.pcie.rateKb } else Pcie.reset
    clk := if s.linkKept cause then { ClkU.reset with hse := true, lock := 2 ^ pllPcie } else ClkU.reset
    boot := { BootU.reset with hash := s.boot.hash, prog := s.boot.prog, revoked := s.boot.revoked, cause := cause }
    pwr := { Pwr.reset with sec := s.pwr.sec, wakeSrc := s.pwr.wakeSrc, last := s.pwr.last, vbat := s.pwr.vbat }
    tph := { Tph.reset with total := s.tph.total, freezeSeq := s.tph.freezeSeq, frozen := s.tph.frozen, dropped := s.tph.dropped,
                            log := s.tph.log, queue := s.tph.queue, clearing := s.tph.clearing }
    freeCtr := s.freeCtr
    out := s.out
    pending := s.pending }
  (((u.sg .PWR_STS 0 0 (s.rg .PWR_STS)).sg .PWR_ALARM 0 0 (s.rg .PWR_ALARM)).sg .PWR_WAKE_PIN 0 0 (s.rg .PWR_WAKE_PIN)).sg
    .TPH_STS 0 0 (s.rg .TPH_STS)

/-- VBAT is applied for the first time: the always-on values are 0 and the log is empty (R499, R513, R531)
(DEDUCED, log entry 156). -/
def State.firstVbat (s : State) : State :=
  ((({ s with pwr := Pwr.reset, tph := Tph.reset }.sg .PWR_STS 0 0 0#32).sg .PWR_ALARM 0 0 0#32).sg .PWR_WAKE_PIN 0 0 0#32).sg .TPH_STS 0 0 0#32

/-! ### Power states (R500 to R504) -/

/-- Memories in the domains that DOZE and SLEEP put into retention: all but the Tephra SRAM (Table 15-4) (DEDUCED, log entry 150). -/
def State.retainable (s : State) : List Nat := (List.range 56).filter fun m => m != 53 && s.bankSt m == 0

/-- R502, steps 1 to 6: work stops. Output slots keep their levels (DEDUCED, log entry 156). -/
def State.powerEnter (s : State) (target : Nat) : State :=
  let cl := (List.range 16).filter fun k => (s.cluOf k).st == 1
  let en := (List.range 48).filter fun e => (s.rilOf e).st == 1 || (s.rilOf e).st == 2
  let ch := [0, 1].filter fun c => (s.gysChOf c).mode == 1
  let s1 := cl.foldl State.stopCluster s
  let s2 := en.foldl (fun s e => s.rilUpd e fun r => { r with st := 0, waiting := false }) s1
  let s3 := (List.range 4).foldl (fun s k => s.plsUpd k fun u => { u with running := false, active := false }) s2
  let s4 := ch.foldl State.gysIsolate s3
  { s4 with pwr := { s4.pwr with state := 1, target := target, clusters := cl, channels := ch,
                                 engines := en.filter fun e => (s.rilOf e).st == 1 } }

/-- Hold the memories in retention (R502, step 7) (DEDUCED, log entry 150). -/
def State.retain (s : State) : State :=
  let l := s.retainable
  { s with bank := l.foldl (fun b m => vupd b m fun _ => 1) s.bank, pwr := { s.pwr with retained := l } }

/-- What SLEEP stops besides: the crystal and every PLL, and with them the links (Table 15-5). Each fall of LINK is counted (R201)
(DEDUCED, log entry 152). -/
def State.sleepClocks (s : State) : State :=
  let s1 := (List.range 10).foldl (fun s p => if s.portLink p then s.bump Fx.MAC_LINK_CNT_DOWN 1 p else s) s
  { s1 with
    clk := { s1.clk with hse := false, started := 0, lock := 0, second := 0 }
    pcie := { s1.pcie with linkUp := false }
    mac := s1.mac.map fun (m : Mac) =>
      { m with link := false, rate := 0, half := false, retraining := false, txLpi := false, rxLpi := false, waking := false,
               pauseHeld := false, pauseQuanta := 0 } }

/-- POWER_ENTRY_COMPLETE. -/
def execPowerEntryComplete (s : State) : Out State :=
  if s.pwr.state ≠ 1 then .next s
  else
    let t := s.pwr.target
    let s1 := (s.tlog 0x03 0 t 0).retain
    let s2 := { s1 with pwr := { s1.pwr with state := t } }
    .next (if t = 2 then s2.bump Fx.PWR_CNT_DOZE else (s2.bump Fx.PWR_CNT_SLEEP).sleepClocks)

/-- R503: the device returns from DOZE or SLEEP, and what entry has stopped goes on (DEDUCED, log entry 203). -/
def State.wakeOn (s : State) (src : Nat) : State :=
  let p := s.pwr
  let s0 := { s with
    bank := p.retained.foldl (fun b m => vupd b m fun _ => 0) s.bank
    clk := if p.state = 3 then { s.clk with started := 15 - s.clk.fail % 16 } else s.clk
    pwr := { p with state := 0, wakeSrc := src, last := p.state, retained := [], clusters := [], engines := [], channels := [] } }
  let s1 := (s0.tlog 0x03 0 0 src).pllStart
  let s2 := p.clusters.foldl (fun s k => s.cluUpd k fun c => if c.st = 2 then { c with st := 1 } else c) s1
  let s3 := p.engines.foldl (fun s e => if (s.rilOf e).st = 0 then s.rillStart e false false else s) s2
  let s4 := (List.range 4).foldl (fun s c => if s.rb Fx.CAN_CFG_EN c then s.canIntegrate c else s) s3
  let s5 := p.channels.foldl State.gysJoin s4
  (List.range 4).foldl State.plsRestart s5

/-- A wake by the sources `src`: from DOZE and SLEEP R503, from HIBERNATE a restart with cause 4 (DEDUCED, log entry 151). -/
def State.wake (s : State) (src : Nat) : State :=
  if s.pwr.state = 2 ∨ s.pwr.state = 3 then s.wakeOn src
  else if s.pwr.state = 4 then
    (({ s with pwr := { s.pwr with wakeSrc := src, last := 4 } }).deviceReset 4).tlog 0x03 0 0 src
  else s

/-- The sources that act in the present power state (Table 15-5), of those active (DEDUCED, log entry 155). -/
def State.wakeActs (s : State) (src : BitVec 7) : Nat :=
  let en := s.rg .PWR_WAKE_EN
  let pin := s.rb Fx.PWR_WAKE_PIN_EN0 || s.rb Fx.PWR_WAKE_PIN_EN1
  let ok := fun (i : Nat) => src.getLsbD i && en.getLsbD i
  let main := s.pwr.state == 2 || s.pwr.state == 3
  b2n (ok 1 && s.pwr.state == 2) * 2
    + b2n (ok 2 && main && (List.range 4).any fun c => s.rb Fx.CAN_CFG_EN c) * 4
    + b2n (ok 3 && main && pin) * 8 + b2n (ok 4 && main) * 16
    + b2n (ok 5 && decide (2 ≤ s.pwr.state)) * 32 + b2n (ok 6 && decide (2 ≤ s.pwr.state)) * 64

/-- WAKE_SOURCE: with the sources active, as in PWR_STS.WAKE_SRC. HOST is PWR_WAKE. -/
def execWakeSource (srcs : BitVec 7) (s : State) : Out State :=
  if s.wakeActs srcs = 0 then .next s else .next (s.wake (s.wakeActs srcs))

/-- R501 and the layout of PWR_CMD. -/
def State.pwrCmdBad (s : State) (op : Nat) : Bool :=
  match op with
  | 4 => s.pwr.state != 2
  | _ => s.pair.st == 1 || s.pair.st == 2 || s.pair.st == 3 || s.tok.holder != 0 || !s.tok.fifo.isEmpty || (op == 2 && s.gys.timer)

/-- R504: every domain but AON is switched off (DEDUCED, log entry 156). -/
def State.hibernate (s : State) : State :=
  let s1 := (s.tlog 0x03 0 4 0).deviceReset 4
  { s1.sg .PWR_WAKE_EN 0 0 (s.rg .PWR_WAKE_EN) with
    clk := { s1.clk with started := 0 }, pwr := { s1.pwr with state := 4 } }

/-- The effect of PWR_CMD; only ON can be left for another state. -/
def State.pwrOp (s : State) (op : Nat) : State :=
  if op = 4 then s.wake 1
  else if s.pwr.state ≠ 0 then s
  else if op = 3 then s.hibernate
  else s.powerEnter (op + 1)

/-- A write of PWR_CMD (DEDUCED, log entry 154). -/
def State.pwrCmd (s : State) (m : Master) (op : Nat) : State :=
  s.cmdWrite m .PWR_CMD 0 0 (BitVec.ofNat 32 op) (s.pwrCmdBad op) fun s => s.pwrOp op

/-- PWR_DOZE. -/
def execPwrDoze (m : Master) (s : State) : Out State := .next (s.pwrCmd m 1)
/-- PWR_SLEEP. -/
def execPwrSleep (m : Master) (s : State) : Out State := .next (s.pwrCmd m 2)
/-- PWR_HIBERNATE. -/
def execPwrHibernate (m : Master) (s : State) : Out State := .next (s.pwrCmd m 3)
/-- PWR_WAKE. -/
def execPwrWake (m : Master) (s : State) : Out State := .next (s.pwrCmd m 4)

/-- R517: the summary of the second that ends. -/
def State.eccSummary (s : State) : State :=
  if s.mem.sbErr = 0 then s else ({ s with mem := { s.mem with sbErr := 0 } }).tlog 0x70 1 0 s.mem.sbErr

/-- SECONDS_TICK: R499, the summary of R517, and the alarm of R500. -/
def execSecondsTick (s : State) : Out State :=
  let s1 := ({ s with pwr := { s.pwr with sec := (s.pwr.sec + 1) % 2 ^ 32 } }).eccSummary
  if s.rf Fx.PWR_ALARM_SEC ≠ 0 ∧ s.rf Fx.PWR_ALARM_SEC = s1.pwr.sec then
    let s2 := s1.wf Fx.PWR_STS_ALARM 1
    .next (if s2.wakeActs 32#7 = 0 then s2 else s2.wake 32)
  else .next s1

/-- PWR_STS. -/
def State.pwrSts (s : State) : Nat :=
  s.rf Fx.PWR_STS_ALARM * 2 ^ 31 + s.pwr.wakeSrc * 65536 + s.pwr.last * 256 + min s.pwr.state 2

end Sys2Proof.Machine
end

