-- ==== Sys2Proof/Machine/Image.lean ====
section
/-!
DEFINITION. Profile images (spec/14) and the verification of containers and directories (spec/17, Keys and fuses).
-/
namespace Sys2Proof.Machine
open Sys2Proof

/-! ### Headers and signatures (R474, R538) -/

/-- The first check of R474: MAGIC, FMT, TOTAL in its range, and TOTAL within the storage of `avail` bytes. -/
def headBad (magic lo hi avail : Nat) (d : List Byte) : Bool :=
  let total := leAt d 8 4
  leAt d 0 4 != magic || leAt d 4 2 != 1 || decide (total < lo) || decide (hi < total) || decide (avail < total)

/-- R538: the signature block of `total` bytes verifies under the key of the slot it names (PRESUMED, log entry 4). -/
def sigOk (keys : Vector (Option (List Byte)) 4) (d : List Byte) (total : Nat) : Bool :=
  let slot := leAt d (total - 72) 1
  match if slot < 4 then vget none keys slot else none with
  | none => false
  | some key => ecdsaOk key (sha256 (d.take (total - 72))) ((d.drop (total - 64)).take 64)

/-- Bytes `a` to `b - 1` are 0. -/
def zeros (d : List Byte) (a b : Nat) : Bool := ((d.drop a).take (b - a)).all (· == 0#8)

/-- R537: the keys of a key table that the fuses admit. -/
def admitted (hash : Vector (List Byte) 4) (prog revoked : BitVec 4) (table : List Byte) : Vector (Option (List Byte)) 4 :=
  Vector.ofFn fun (i : Fin 4) =>
    let key := (table.drop (64 * i.val)).take 64
    if prog.getLsbD i && !revoked.getLsbD i && decide (sha256 key = vget [] hash i) && onCurve key then some key else none

/-! ### Containers (Table 14-3) -/

/-- A section. -/
structure Sect where
  ty : Nat
  rsv : Nat
  target : Nat
  off : Nat
  len : Nat

/-- The sections of a container. -/
def sectsOf (d : List Byte) : List Sect :=
  (List.range (leAt d 6 2)).map fun j =>
    let a := 64 + 16 * j
    ⟨leAt d a 1, leAt d (a + 1) 3, leAt d (a + 4) 4, leAt d (a + 8) 4, leAt d (a + 12) 4⟩

/-- The bytes of a section. -/
def Sect.bytes (x : Sect) (d : List Byte) : List Byte := (d.drop x.off).take x.len

/-- The bytes of the first section of a type. -/
def sectOf (d : List Byte) (ty : Nat) : List Byte :=
  match (sectsOf d).find? fun x => x.ty == ty with
  | some x => x.bytes d
  | none => []

/-- Pairs of 32-bit words of 8-byte entries. -/
def entries8 (d : List Byte) : List (List Byte) := (List.range (d.length / 8)).map fun i => (d.drop (8 * i)).take 8

/-- A section breaks Table 14-3. -/
def Sect.bad (x : Sect) (d : List Byte) (total : Nat) : Bool :=
  x.rsv != 0 || (x.ty != 3 && decide (total < x.off + x.len))
    || (match x.ty with
        | 1 => decide (65536 < x.target + x.len)
        | 2 => decide (65536 < x.target + x.len)
        | 3 => x.off != 0 || decide (65536 < x.target + x.len)
        | 4 => x.len != 128 || decide (47 < x.target)
        | 5 => x.len != 24
        | 6 => x.len % 8 != 0 || (entries8 (x.bytes d)).any fun e => leAt e 0 1 == 0 || decide (12 < leAt e 0 1) || !zeros e 2 8
        | 7 => x.len % 8 != 0
        | 8 => false
        | _ => true)

/-- Word `i` of the BIND section: ENG_BIND, ENG_BIND_AUX, ENG_TB_PERM, ENG_CFG, ENG_FQ_RXBASE, ENG_FQ_RXGEO
(DEDUCED, log entry 168). -/
def bindWord (d : List Byte) (i : Nat) : Word := BitVec.ofNat 32 (leAt (sectOf d 5) (4 * i) 4)

/-- The registers of a BIND section, in its order. -/
def bindRegs : List RegId := [.ENG_BIND, .ENG_BIND_AUX, .ENG_TB_PERM, .ENG_CFG, .ENG_FQ_RXBASE, .ENG_FQ_RXGEO]

/-- Row FORMAT of Table 14-4, after the first check (DEDUCED, log entries 167 and 168). -/
def formatBad (d : List Byte) : Bool :=
  let total := leAt d 8 4
  let n := leAt d 6 2
  n == 0 || decide (32 < n) || decide (total < 64 + 16 * n + 72) || decide (8 ≤ leAt d 16 1) || !zeros d 18 20 || !zeros d 28 64
    || leAt d 20 4 % 8 != 0 || leAt d 24 2 % 8 != 0 || leAt d 26 2 % 8 != 0 || !zeros d (total - 71) (total - 64)
    || (sectsOf d).any (fun x => x.bad d total)
    || ((sectsOf d).filter fun x => x.ty == 5).length != 1 || ((sectsOf d).filter fun x => x.ty == 6).length != 1
    || (List.range 6).any (fun i => let r := bindRegs.getD i .ENG_BIND; rsvBitBad r 0 (bindWord d i) || encBadFields r (bindWord d i))
    || rxGeoBad (bindWord d 5)

/-- The bit of VARIANTS. -/
def variantBit : Variant → Nat
  | .lx2416 => 0
  | .lx2412 => 1
  | .lx1608 => 2

/-- Row NO_RESOURCE. Every extension of ISA_EXT bits 7:0 is present. -/
def noResource (v : Variant) (k : Nat) (d : List Byte) : Bool :=
  !(leAt d 16 1).testBit (variantBit v) || decide (v.cores ≤ k)
    || (!v.full && ((bindWord d 0) &&& 3#32 != 0#32 || bindWord d 1 != 0#32))
    || (sectsOf d).any fun x => x.ty == 4 && decide (v.engines ≤ x.target)

/-- The last column of Table 14-2. -/
def sharesWith : Nat → List Nat
  | 1 => [2, 3, 4, 6, 11, 12]
  | 2 => [1, 3, 4, 6]
  | 3 => [1, 2, 4, 6]
  | 4 => [1, 2, 3, 5, 6]
  | 5 => [4]
  | 6 => [1, 2, 3, 4, 10, 11]
  | 10 => [6]
  | 11 => [1, 6, 12]
  | 12 => [1, 11]
  | _ => []

/-- Two instances may be in one image (R470). -/
def mayShare (a b : Nat) : Bool := if a = b then !(sharesWith a).isEmpty else (sharesWith a).contains b && (sharesWith b).contains a

/-- Every two of a list may share. -/
def allShare : List Nat → Bool
  | [] => true
  | a :: t => t.all (mayShare a) && allShare t

/-- Profile code and load of each instance; pool offset and length of each claim. -/
def instsOf (d : List Byte) : List (Nat × Nat) := (entries8 (sectOf d 6)).map fun e => (leAt e 0 1, leAt e 1 1)
def claimsOf (d : List Byte) : List (Nat × Nat) :=
  (sectsOf d).flatMap fun x => if x.ty = 7 then (entries8 (x.bytes d)).map fun e => (leAt e 0 4, leAt e 4 4) else []

/-- Two ranges overlap. -/
def overlaps (a b : Nat × Nat) : Bool := decide (a.1 < b.1 + b.2) && decide (b.1 < a.1 + a.2)

/-- R478: the profile directory. -/
def profDir : Nat := 0x1FF000

/-- R472 broken by a claim (DEDUCED, log entry 170). -/
def State.claimBad (s : State) (k : Nat) (c : Nat × Nat) : Bool :=
  decide (0x200000 < c.1 + c.2) || overlaps c (profDir, 256) || overlaps c (lockBase, 256)
    || (s.pairOn && overlaps c (s.rf Fx.PAIR_STAGE_BASE * 4096, 16384))
    || (List.range 16).any fun j => j != k && (match vget none s.boot.imgs j with
        | some x => x.claims.any (overlaps c)
        | none => false)

/-- Row CONFLICT: R470, R471, R472 and R346 (DEDUCED, log entry 169). -/
def State.conflict (s : State) (k : Nat) (d : List Byte) : Bool :=
  let is := instsOf d
  is.isEmpty || decide (4 < is.length) || !allShare (is.map (·.1)) || decide (100 < (is.map (·.2)).sum)
    || s.bindBad k (bindWord d 0) || s.bindAuxBad k (bindWord d 1)
    || (List.range 16).any (fun j => j != k && (s.rg .ENG_TB_PERM j &&& bindWord d 2) != 0#32)
    || (claimsOf d).any (s.claimBad k)

/-- Table 14-4: the load status of a container for cluster `k`; `ecc` when a word stays uncorrectable. -/
def State.loadStatus (s : State) (k avail : Nat) (d : List Byte) (ecc : Bool) : Nat :=
  if headBad 0x4C585049 4096 196608 avail d then 2
  else if !sigOk s.boot.keys d (leAt d 8 4) then 1
  else if formatBad d then 2
  else if noResource s.variant k d then 3
  else if s.conflict k d then 4
  else if (s.cluOf k).st = 4 ∨ (s.cluOf k).migPending = true then 5
  else if ecc then 7
  else 0

/-! ### Loading (R476 to R478, R543) -/

/-- What the loader keeps of an image. -/
def imgOf (d : List Byte) : Img where
  ver := leAt d 12 4
  piBase := leAt d 20 4
  inLen := leAt d 24 2
  outLen := leAt d 26 2
  insts := instsOf d
  claims := claimsOf d
  engines := (sectsOf d).filterMap fun x => if x.ty = 4 then some x.target else none
  bind := bindWord d 0
  aux := bindWord d 1
  tbPerm := bindWord d 2

/-- Both core memories as the sections of an image lay them out, 0 elsewhere (DEDUCED, log entry 167). -/
def coreImage (d : List Byte) : Cells × Cells :=
  (sectsOf d).foldl (fun (m : Cells × Cells) x =>
    match x.ty with
    | 1 => (wrBytes m.1 x.target (x.bytes d), m.2)
    | 2 => (m.1, wrBytes m.2 x.target (x.bytes d))
    | 3 => (m.1, wrBytes m.2 x.target (List.replicate x.len 0#8))
    | _ => m) ([], [])

/-- The core memories of a cluster take these contents (R491 where they are not ON). -/
def State.coreFill (s : State) (k : Nat) (m : Cells × Cells) : State :=
  if s.coreOn k then s.coreUpd (s.physOf k) fun c => { c with imem := m.1, dmem := m.2 } else s.bump Fx.MEM_OFF_ACC_COUNT

/-- A Rill program from 128 bytes (R402) (DEDUCED, log entry 171). -/
def State.rillLoad (s : State) (e : Nat) (d : List Byte) : State :=
  (List.range 32).foldl (fun s i => s.progWrite e i (BitVec.ofNat 32 (leAt d (4 * i) 4))) s

/-- The bindings of a cluster are written; the set-up lock does not apply. -/
def State.bindWrite (s : State) (k : Nat) (w : Nat → Word) : State :=
  (List.range 6).foldl (fun s i => s.sg (bindRegs.getD i .ENG_BIND) k 0 (w i)) s

/-- R478: the directory entry of a cluster; 16 zero bytes without image. -/
def State.dirWrite (s : State) (k : Nat) (x : Option Img) : State :=
  s.poolWr (profDir + 16 * k) (match x with
    | some i => leBytes 4 i.piBase ++ leBytes 2 i.inLen ++ leBytes 2 i.outLen ++ leBytes 1 ((i.insts.map (·.1)).headD 0)
        ++ leBytes 1 i.insts.length ++ leBytes 2 0 ++ leBytes 4 i.ver
    | none => List.replicate 16 0#8)

/-- The image of a cluster as the start-up unit records it. -/
def State.imgSet (s : State) (k : Nat) (x : Option Img) : State :=
  { (s.cluUpd k fun c => { c with loaded := x.isSome }) with boot := { s.boot with imgs := vupd s.boot.imgs k fun _ => x } }

/-- A verified container is written into its cluster: memories, Rill programs, bindings, directory. -/
def State.imgLoad (s : State) (k : Nat) (d : List Byte) : State :=
  let s1 := s.coreFill k (coreImage d)
  let s2 := (sectsOf d).foldl (fun s x => if x.ty = 4 then s.rillLoad x.target (x.bytes d) else s) s1
  ((s2.bindWrite k (bindWord d)).imgSet k (some (imgOf d))).dirWrite k (some (imgOf d))

/-- The image of a cluster is unloaded: its memories, programs and directory entry are 0 and its bindings at reset (R543, R545). -/
def State.imgUnload (s : State) (k : Nat) : State :=
  match vget none s.boot.imgs k with
  | none => s
  | some x =>
    let s1 := x.engines.foldl (fun s e => s.rillLoad e []) (s.coreFill k ([], []))
    ((s1.bindWrite k fun i => (bindRegs.getD i .ENG_BIND).resetValue k).imgSet k none).dirWrite k none

/-! ### Replacement (R475 to R477) -/

/-- The request ends with a load status. -/
def State.imgEnd (s : State) (k status ver : Nat) : State :=
  (({ s with boot := { s.boot with req := none, imgCluster := k, imgResult := status } }).maintDone 2 status).tlog 0x54 0 k
    (status * 2 ^ 24 + ver % 2 ^ 24)

/-- The bytes of the container named by a request, as the pool holds them; a bank that is not ON reads 0. -/
def State.poolAll (s : State) (a n : Nat) : List Byte :=
  (List.range n).map fun i => if s.bankSt (poolBank (a + i)) = 0 then sget 0 (a + i) s.pool else 0#8

/-- The reserved cases of BOOT_IMG_CMD. -/
def State.imgCmdBad (s : State) (k : Nat) : Bool := s.boot.req.isSome || decide (s.variant.cores ≤ k) || s.pwr.state != 0

/-- The effect of BOOT_IMG_CMD (DEDUCED, log entry 163). -/
def State.imgReq (s : State) (k addr : Nat) : State :=
  match s.tokAns with
  | .busy => (s.tokReq 2).imgEnd k 6 (leNat (s.poolAll (addr + 12) 4))
  | _ =>
    let s1 := s.tokReq 2
    { s1 with boot := { s1.boot with req := some ⟨k, addr, none⟩, imgCluster := k } }

/-- IMAGE_REPLACE. -/
def execImageReplace (m : Master) (k : Fin 16) (page : BitVec 9) (s : State) : Out State :=
  .next (s.cmdWrite m .BOOT_IMG_CMD 0 0 (BitVec.ofNat 32 (2 ^ 30 + k.val * 2 ^ 24 + page.toNat * 4096)) (s.imgCmdBad k)
    fun s => s.imgReq k (page.toNat * 4096))

/-- An engine of the groups that a pair of binding words names. -/
def bindsEngine (bind aux : Word) (e : Nat) : Bool := if e / 4 < 6 then bind.getLsbD (18 + e / 4) else aux.getLsbD (e / 4 - 6)

/-- Steps 2 to 4 of R476. In HOST the cluster stays IDLE and the engines STOPPED (R545), and no directory
is in use (BOOT_SET_VER). -/
def State.imgAct (s : State) (k : Nat) (d : List Byte) : State :=
  let ob := s.rg .ENG_BIND k
  let oa := s.rg .ENG_BIND_AUX k
  let s1 := if (s.cluOf k).st = 1 then s.stopCluster k else s
  let s2 := (List.range 48).foldl (fun s e =>
    let old := bindsEngine ob oa e
    let new := bindsEngine (bindWord d 0) (bindWord d 1) e
    if !(old || new) || (s.rilOf e).st == 3 then s
    else
      let t := s.rillStop e
      if old && !new then t.relSlots e fun _ => true else t) s1
  let s3 := s2.imgLoad k d
  let s4 := ((s3.startAt0 k).freeLocks k).cluUpd k fun c => { c with failed := false, inWindow := false }
  let s5 :=
    if s.lock then
      (imgOf d).engines.foldl (fun s e => if (s.rilOf e).st = 0 then s.rillStart e true true else s) s4
    else { (s4.cluUpd k fun c => { c with st := 0 }) with boot := { s4.boot with setVer := 0 } }
  let s6 := if s.tickRun then { s5 with boot := { s5.boot with skip := some k } } else s5
  (s6.imgEnd k 0 (imgOf d).ver).tokRelease

/-- IMAGE_VERIFY: step 1 of R476; where no tick is generated, the loader acts at once. -/
def execImageVerify (ecc : Bool) (s : State) : Out State :=
  match s.boot.req with
  | none => .next s
  | some r =>
    if s.tok.holder ≠ 2 ∨ r.verified.isSome = true then .next s
    else
      let avail := 0x200000 - r.addr
      let d := s.poolAll r.addr (min avail (leNat (s.poolAll (r.addr + 8) 4)))
      match s.loadStatus r.cluster avail d ecc with
      | 0 =>
        if s.tickRun then .next { s with boot := { s.boot with req := some { r with verified := some d } } }
        else .next (s.imgAct r.cluster d)
      | st => .next (s.imgEnd r.cluster st (leNat (s.poolAll (r.addr + 12) 4))).tokRelease

/-- IMAGE_REPLACE_ACT: the first tick after verification (DEDUCED, log entry 171). -/
def execImageReplaceAct (s : State) : Out State :=
  match s.boot.req with
  | some ⟨k, _, some d⟩ => .next (s.imgAct k d)
  | _ => .next s

/-- BOOT_IMG_STS and BOOT_IMG_VER. -/
def State.imgSts (s : State) : Nat := b2n s.boot.req.isSome * 2 ^ 31 + s.boot.imgCluster * 2 ^ 24 + s.boot.imgResult
def State.imgVer (s : State) (k : Nat) : Nat := match vget none s.boot.imgs k with | some x => x.ver | none => 0

end Sys2Proof.Machine
end

