-- ==== Sys2Proof/Machine/Boot.lean ====
section
/-!
DEFINITION. Start-up (spec/17): resets, straps, INIT, keys and fuses, flash boot, host download and the entry into RUN. The set-up
writes of a directory are applied in Bus.lean.
-/
namespace Sys2Proof.Machine
open Sys2Proof

def State.bootUpd (s : State) (f : BootU → BootU) : State := { s with boot := f s.boot }

/-! ### Resets (R532, R533) -/

/-- POWER_UP_RESET; `first` when VBAT has just been applied for the first time. -/
def execPowerUpReset (first : Bool) (s : State) : Out State :=
  let s1 := s.deviceReset 0
  .next (if first then s1.firstVbat else { s1 with pwr := { s1.pwr with vbat := false } })

/-- RESET_N_ASSERT. -/
def execResetNAssert (s : State) : Out State := .next (s.deviceReset 1)

/-- GLB_RESET. -/
def execGlbReset (m : Master) (key : BitVec 8) (s : State) : Out State :=
  .next (s.cmdWrite m .GLB_RESET 0 0 (BitVec.ofNat 32 key.toNat) (key != 0xA5#8) fun s => s.deviceReset 2)

/-- FATAL_AUTO_RESET: 10 ms after the trigger. -/
def execFatalAutoReset (s : State) : Out State :=
  if s.tph.fatal && s.rb Fx.TPH_WDG_CFG_AUTO_RESET then .next (s.deviceReset 3) else .next s

/-- PERST_N: the endpoint and its link, and in RUN a QUIESCE of the host ring manager. -/
def execPerstN (s : State) : Out State :=
  let s1 := if s.boot.st = 3 then s.quiesce else s
  .next ({ s1 with pcie := { Pcie.reset with rateKb := s.pcie.rateKb } }).abandonReads

/-- RESET_RELEASE: BOOT_MODE, PAIR_ROLE and FLASH_FAST are latched (R534); the LX1608 ignores PAIR_ROLE (R3). -/
def execResetRelease (mode : Fin 4) (role fast : Bool) (s : State) : Out State :=
  if s.boot.released || s.pwr.state == 4 then .next s
  else
    .next ((s.bootUpd fun b => { b with released := true, mode := mode, role := role, fast := fast }).pairUpd fun p =>
      { p with role := role && s.variant.full })

/-- INIT_COMPLETE: the four PLLs of step 2 are locked; `lse` when the 32.768 kHz crystal runs
(DESIGN CHOICE, log entries 148 and 175). -/
def execInitComplete (lse : Bool) (s : State) : Out State :=
  if s.boot.st != 0 || !s.boot.released || s.clk.lock % 16 != 15 || s.tph.fatal || s.pwr.state != 0 then .next s
  else
    let s1 := ({ s with clk := { s.clk with lse := lse } }).tlog 0x01 0 s.boot.cause (featDev s.variant)
    .next (s1.bootUpd fun b => if b.mode = 0 then { b with st := 1, busy := true, phase := 1 } else { b with st := 2 })

/-! ### Keys and fuses (R537 to R540) -/

/-- BOOT_STS.NO_KEY. -/
def State.noKey (s : State) : Bool := s.boot.prog &&& ~~~s.boot.revoked == 0#4

/-- BOOT_FUSE_DATA as 32 bytes. -/
def State.fuseData (s : State) : List Byte := (List.range 8).flatMap fun w => leBytes 4 (s.rg .BOOT_FUSE_DATA w).toNat

/-- The bit of a slot. -/
def slotBit (k : Nat) : BitVec 4 := BitVec.ofNat 4 (2 ^ k)

/-- R540: the reserved cases of BOOT_FUSE_CMD. -/
def State.fuseBad (s : State) (v : Word) : Bool :=
  let k := bits v 9 8
  let b := s.boot
  bits v 7 0 != 0xC3 || b.fuseBusy
    || (bits v 31 28 == 1 && (b.prog.getLsbD k || s.fuseData.all (· == 0#8)))
    || (bits v 31 28 == 2 && (!b.prog.getLsbD k || b.revoked.getLsbD k || b.prog &&& ~~~(b.revoked ||| slotBit k) == 0#4))

/-- The effect of BOOT_FUSE_CMD: 1 PROGRAM, 2 REVOKE (DESIGN CHOICE, log entry 174). -/
def State.fuseOp (s : State) (v : Word) : State :=
  let k := bits v 9 8
  if bits v 31 28 = 1 then
    s.bootUpd fun b => { b with fuseBusy := true, prog := b.prog ||| slotBit k, hash := vupd b.hash k fun _ => s.fuseData }
  else
    s.bootUpd fun b => { b with fuseBusy := true, revoked := b.revoked ||| slotBit k, keys := vupd b.keys k fun _ => none }

/-- A write of BOOT_FUSE_CMD: LOCKED once the set-up lock is set (R540). -/
def State.fuseCmd (s : State) (m : Master) (v : Word) : State :=
  if s.lock then s.reject m .locked (RegId.addr .BOOT_FUSE_CMD 0 0) v
  else s.cmdWrite m .BOOT_FUSE_CMD 0 0 v (s.fuseBad v) fun s => s.fuseOp v

/-- FUSE_PROGRAM. -/
def execFuseProgram (m : Master) (slot : Fin 4) (key : BitVec 8) (s : State) : Out State :=
  .next (s.fuseCmd m (BitVec.ofNat 32 (2 ^ 28 + slot.val * 256 + key.toNat)))
/-- FUSE_REVOKE. -/
def execFuseRevoke (m : Master) (slot : Fin 4) (key : BitVec 8) (s : State) : Out State :=
  .next (s.fuseCmd m (BitVec.ofNat 32 (2 ^ 29 + slot.val * 256 + key.toNat)))

/-- FUSE_OP_DONE. -/
def execFuseOpDone (s : State) : Out State := .next (s.bootUpd fun b => { b with fuseBusy := false })

/-! ### Flash boot (R541 to R543) -/

/-- The load ends in HOST with BOOT_ERR: STAGE, INDEX and status. -/
def State.bootFail (s : State) (stage idx status : Nat) : State :=
  s.bootUpd fun b => { b with st := 2, busy := false, phase := 0, entries := [], setup := [],
                              err := BitVec.ofNat 32 (2 ^ 31 + stage * 2 ^ 28 + idx % 4096 * 4096 + status) }

/-- Row FORMAT of a directory (Table 17-5), after the first check. -/
def dirFormatBad (d : List Byte) : Bool :=
  let n := leAt d 6 2
  let k := leAt d 18 2
  let total := leAt d 8 4
  decide (16 < n) || decide (4096 < k) || decide (total < 320 + 16 * n + 8 * k + 72) || decide (2 ≤ leAt d 16 1) || !zeros d 17 18
    || !zeros d 20 64 || !zeros d (total - 71) (total - 64)
    || (List.range n).any fun j =>
      let a := 320 + 16 * j
      !zeros d (a + 1) (a + 4) || leAt d (a + 4) 4 % 4096 != 0 || !zeros d (a + 12) (a + 16)

/-- R541: 0 where the directory passes, else its load status; its own key table admits its signature. -/
def State.dirStatus (s : State) (d : List Byte) : Nat :=
  if headBad 0x4C584244 512 65536 d.length d then 2
  else if !sigOk (admitted s.boot.hash s.boot.prog s.boot.revoked ((d.drop 64).take 256)) d (leAt d 8 4) then 1
  else if dirFormatBad d then 2
  else 0

/-- A directory that has passed is taken into use. -/
def State.dirTake (s : State) (d : List Byte) : State :=
  let n := leAt d 6 2
  s.bootUpd fun b =>
    { b with
      keys := admitted b.hash b.prog b.revoked ((d.drop 64).take 256)
      setVer := leAt d 12 4
      entries := (List.range n).map fun j => (leAt d (320 + 16 * j) 1, leAt d (324 + 16 * j) 4, leAt d (328 + 16 * j) 4)
      setup := (List.range (leAt d 18 2)).map fun i =>
        (leAt d (320 + 16 * n + 8 * i) 4, BitVec.ofNat 32 (leAt d (324 + 16 * n + 8 * i) 4))
      auto := leAt d 16 1 % 2 == 1
      next := 0
      phase := if n = 0 then 3 else 2 }

/-- DIRECTORY_LOAD: with the bytes of the directory as the flash returns them. -/
def execDirectoryLoad (d : List Byte) (s : State) : Out State :=
  if s.boot.st != 1 || s.boot.phase != 1 then .next s
  else
    match s.dirStatus d with
    | 0 => .next (s.dirTake d)
    | st => .next (if s.boot.dirB then s.bootFail 1 0 st else s.bootUpd fun b => { b with dirB := true })

/-- Unload every image. -/
def State.unloadAll (s : State) : State := (List.range 16).foldl State.imgUnload s

/-- What a container that fails has written is set back to 0: the memories of its cluster and the programs of its engines (R543)
(DEDUCED, log entry 173). -/
def State.imgBack (s : State) (k : Nat) (d : List Byte) : State :=
  let s1 := if k < s.variant.cores then s.coreFill k ([], []) else s
  if headBad 0x4C585049 4096 196608 d.length d then s1
  else (sectsOf d).foldl (fun s x => if x.ty = 4 ∧ x.target < s.variant.engines then s.rillLoad x.target [] else s) s1

/-- CONTAINER_LOAD: with the bytes of the container that the directory's next entry names. -/
def execContainerLoad (d : List Byte) (ecc : Bool) (s : State) : Out State :=
  match s.boot.entries with
  | [] => .next s
  | (k, _, len) :: rest =>
    if s.boot.st != 1 || s.boot.phase != 2 then .next s
    else
      let st := if leAt d 8 4 ≠ len then 2 else s.loadStatus k d.length d ecc
      if st = 0 then
        .next ((s.imgLoad k d).bootUpd fun b =>
          { b with entries := rest, next := b.next + 1, phase := if rest.isEmpty then 3 else 2 })
      else
        let s1 := s.imgBack k d
        .next (if s.boot.dirB then s1.bootFail 2 s.boot.next st
               else s1.unloadAll.bootUpd fun b => { b with dirB := true, phase := 1, entries := [], setup := [], setVer := 0 })

/-! ### Entering RUN (R546 to R548) -/

/-- Table 17-6; `us` is the time since the release of reset in µs. Step 6 is CYCLE_TICK (DESIGN CHOICE, log entry 182). -/
def State.enterRun (s : State) (us : Nat) : State :=
  let s1 := ({ s with lock := true }).bootUpd fun b => { b with st := 3, busy := false, phase := 0, time := min us 0xFFFFFFFF }
  let s2 := s1.pllStart.gysRun
  let s3 := (List.range 16).foldl (fun s k => if (s.cluOf k).st = 0 ∧ (s.cluOf k).loaded = true then s.startAt0 k else s) s2
  let s4 := (s.boot.imgs.toList.flatMap fun i => match i with | some x => x.engines | none => []).foldl
    (fun s e => if (s.rilOf e).st = 0 then s.rillStart e true true else s) s3
  let s5 := ((List.range 4).foldl (fun s c => if s.rb Fx.CAN_CFG_EN c then s.canIntegrate c else s) s4).pairRun
  let s6 := { s5 with tph := { s5.tph with wdgRun := s5.rb Fx.TPH_WDG_CFG_EN, warn := false, hostMet := false, cluMet := 0#16 },
                      lp := { s5.lp with recordOnly := true } }
  let s7 := if s6.rb Fx.CFL_EDDY_CFG_EN then s6.eddyReq else s6
  if s7.rb Fx.MEM_BT_CFG_EN then s7.btAsk none else s7

/-- R545, R546 and the layout of BOOT_CMD: the reserved cases. -/
def State.bootCmdBad (s : State) (v : Word) : Bool :=
  let idle := s.boot.st == 2 && !s.boot.busy && s.boot.req.isNone
  match bits v 31 28 with
  | 1 => s.lock
  | 2 => bits v 20 8 != 0 || !idle || s.tok.holder != 0 || !s.tok.fifo.isEmpty
  | 3 => bits v 20 8 != 0 || !idle
  | _ => true

/-- KEYS: the key store is replaced from a key table in the pool (R537, R545). -/
def State.keysFrom (s : State) (a : Nat) : State :=
  s.bootUpd fun b => { b with keys := admitted b.hash b.prog b.revoked (s.poolAll a 256) }

/-- FLASH: every image is unloaded and a flash boot starts (R545) (DEDUCED, log entry 173). -/
def State.flashBoot (s : State) : State :=
  s.unloadAll.bootUpd fun b => { b with st := 1, busy := true, phase := 1, dirB := false, setVer := 0 }

/-- The effect of BOOT_CMD; `us` is the time since the release of reset (DESIGN CHOICE, log entry 172). -/
def State.bootOp (s : State) (v : Word) (us : Nat) : State :=
  match bits v 31 28 with
  | 1 => s.keysFrom (bits v 20 8 * 256)
  | 2 => s.enterRun us
  | _ => s.flashBoot

/-- A write of BOOT_CMD. -/
def State.bootCmd (s : State) (m : Master) (v : Word) (us : Nat) : State :=
  s.cmdWrite m .BOOT_CMD 0 0 v (s.bootCmdBad v) fun s => s.bootOp v us

/-- BOOT_KEYS: pool offset bits 20:8 of the key table. -/
def execBootKeys (m : Master) (page : BitVec 13) (s : State) : Out State :=
  .next (s.bootCmd m (BitVec.ofNat 32 (2 ^ 28 + page.toNat * 256)) 0)
/-- BOOT_RUN, `us` µs after the release of reset. -/
def execBootRun (m : Master) (us : Nat) (s : State) : Out State := .next (s.bootCmd m (BitVec.ofNat 32 (2 ^ 29)) us)
/-- BOOT_FLASH. -/
def execBootFlash (m : Master) (s : State) : Out State := .next (s.bootCmd m (BitVec.ofNat 32 (3 * 2 ^ 28)) 0)

/-! ### Register values (R552) -/

/-- BOOT_STS. -/
def State.bootSts (s : State) : Nat :=
  b2n s.boot.busy * 2 ^ 31 + b2n s.boot.dirB * 2 ^ 30 + b2n (s.boot.released && s.boot.mode == 3) * 2 ^ 29 + b2n s.noKey * 2 ^ 28
    + s.boot.st
/-- BOOT_STRAP. -/
def State.bootStrap (s : State) : Nat := b2n s.boot.fast * 8 + b2n s.boot.role * 4 + s.boot.mode
/-- BOOT_KEY_STS. -/
def State.keySts (s : State) : Nat := ((List.range 4).map fun k => if (vget none s.boot.keys k).isSome then 2 ^ k else 0).sum
/-- BOOT_FUSE_HASH and BOOT_FUSE_STS. -/
def State.fuseHash (s : State) (k w : Nat) : Nat := leAt (vget [] s.boot.hash k) (4 * w) 4
def State.fuseSts (s : State) : Nat := b2n s.boot.fuseBusy * 2 ^ 31 + s.boot.revoked.toNat * 16 + s.boot.prog.toNat

end Sys2Proof.Machine
end

