-- ==== Sys2Proof/Machine/Cycle.lean ====
section
/-!
DEFINITION. The device across one cycle (spec/01): the tick, the cycle event of the cores, and the checks of the cycle registers.
-/
namespace Sys2Proof.Machine
open Sys2Proof

/-- GLB_CYC_CFG.SRC selects the Geyser cycle. -/
def State.srcGeyser (s : State) : Bool := s.rf Fx.GLB_CYC_CFG_SRC == 2

/-- R21, R22: a tick can be issued now: ticks are generated, and with SRC = Geyser a cycle start is due whose number is a multiple of
DIV. That the time base passes a multiple of the period is what the command says. -/
def State.tickOk (s : State) : Bool :=
  s.tickRun && (!s.srcGeyser || (s.gys.timer && s.gys.tickDue && s.gys.cyc % s.rf Fx.GLB_CYC_CFG_DIV == 0))

/-- CYCLE_TICK: the count, the steps of the new cycle, R24, and the snapshot of the cycle that closes. -/
def execCycleTick (s : State) : Out State :=
  if !s.tickOk then .next s
  else
    let s1 := if s.srcGeyser && !s.integrated then s.bump Fx.GLB_CYC_LATE_CNT_GYS_FREE else s
    .next ({ s1 with
      cyc := { tick := (s.cyc.tick + 1) % 65536, ticks := s.cyc.ticks + 1, rillDone := false, coreDone := false, loopDone := false }
      gys := { s1.gys with tickDue := false }
      boot := { s1.boot with skip := none } }).pairTick

/-- A cluster with CYC_BIND that is RUNNING, or was before its migration, and is not kept out by R476. -/
def State.cycleBound (s : State) (k : Nat) : Bool :=
  s.rb Fx.ENG_CFG_CYC_BIND k && ((s.cluOf k).st == 1 || ((s.cluOf k).st == 4 && (s.cluOf k).migFrom == 1)) && s.boot.skip != some k

/-- R349, R350: line 0 falls due in a cluster: it is raised, or the cluster has overrun and one event stays pending (Table 01-3)
(DEDUCED, log entry 176). -/
def State.coreDue (s : State) (k : Nat) : State :=
  if (s.ctxOf k).latched.testBit 0 then
    (((s.bump Fx.ENG_CNT_CYC_OVR 1 k).bump Fx.GLB_CYC_LATE_CNT_CORE_OVR).wf Fx.GLB_CYC_STS_CORE_OVR 1).post 1 0x10 k 0 s.cyc.tick
  else s.raiseLine k 0

/-- CORE_CYCLE_EVENT: once after each tick. -/
def execCoreCycleEvent (s : State) : Out State :=
  if !s.cycleOn || s.cyc.coreDone then .next s
  else
    let s1 := (List.range 16).foldl (fun s k => if s.cycleBound k then s.coreDue k else s) s
    .next { s1 with cyc := { s1.cyc with coreDone := true } }

/-- GLB_CYC_STS; bits 2:1 are held. -/
def State.cycSts (s : State) : Nat :=
  let src := s.rf Fx.GLB_CYC_CFG_SRC
  let noguard := src != 0 && !s.rb Fx.TB_CFG_GUARDED (s.rf Fx.GLB_CYC_CFG_TB)
  s.cyc.tick * 65536 + b2n noguard * 16 + b2n (s.tickRun && s.srcGeyser && !s.integrated) * 8
    + s.rf Fx.GLB_CYC_STS_SNAP_SKIP * 4 + s.rf Fx.GLB_CYC_STS_CORE_OVR * 2 + b2n s.tickRun

/-- R30, of a set of cycle registers: the source, DIV, the period of a time base, the Geyser cycle length and the offsets. -/
def cycBad (src div period gysT o0 o1 o2 : Nat) : Bool :=
  let p := if src = 1 then period else div * gysT
  (src != 0 && (decide (p ≤ o0) || decide (p ≤ o1) || decide (p ≤ o2) || decide (p < o1 + 10300)))
    || decide (o1 ≤ o0) || decide (o2 < o0) || decide (o1 ≤ o2)

/-- R30 for the held values, with one register of them written: GLB_CYC_CFG, GLB_CYC_PERIOD, GLB_CYC_OFS[n] or GYS_CYCLE. -/
def State.cycWriteBad (s : State) (r : RegId) (i : Nat) (v : Word) : Bool :=
  let t := s.sg r i 0 v
  cycBad (t.rf Fx.GLB_CYC_CFG_SRC) (t.rf Fx.GLB_CYC_CFG_DIV) (t.rf Fx.GLB_CYC_PERIOD_PERIOD) (t.rf Fx.GYS_CYCLE_NS)
    (t.rf Fx.GLB_CYC_OFS_OFS 0) (t.rf Fx.GLB_CYC_OFS_OFS 1) (t.rf Fx.GLB_CYC_OFS_OFS 2)

end Sys2Proof.Machine
end

