-- ==== Sys2Proof/Machine/RegCheck.lean ====
section
/-!
DEFINITION. A BAR0 offset and its register (Table 00-4, R9), and the reserved encodings that the registers' own rules name (R12), in
one table: `State.regBad`.
-/
namespace Sys2Proof.Machine
open Sys2Proof

/-! ### Offsets (R9) -/

/-- The indices of the register word at an offset. -/
def RegDef.at (d : RegDef) (a : Nat) : Option (Nat × Nat) :=
  if a < d.base then none
  else
    let rel := a - d.base
    let i := if d.s1 = 0 then 0 else rel / d.s1
    let r := if d.s1 = 0 then rel else rel % d.s1
    let j := if d.s2 = 0 then 0 else r / d.s2
    let q := if d.s2 = 0 then r else r % d.s2
    if d.lo1 ≤ i ∧ i < d.hi1 ∧ j < d.n2 ∧ q = 0 then some (i, j) else none

/-- Words inside an array that the block does not define. -/
def regHole (r : RegId) (i j : Nat) : Bool :=
  match r with
  | .HST_RX_STEER => decide (112 ≤ i) && decide (i < 120)
  | .ENG_FQ_STEER => decide (120 ≤ i) && decide (i < 128)
  | .CFL_QCNT => decide (9 ≤ j % 16)
  | .MEM_SPARE => decide (4 ≤ j) && !(decide (16 ≤ i) && decide (i < 32))
  | _ => false

/-- The register whose word lies at an offset, with its indices. -/
def regFind (a : Nat) : List RegId → Option (RegId × Nat × Nat)
  | [] => none
  | r :: t =>
    match r.defn.at a with
    | some (i, j) => if regHole r i j then none else some (r, i, j)
    | none => regFind a t

/-- The register of the naturally aligned word that holds an offset of a register block. -/
def regAt (off : Nat) : Option (RegId × Nat × Nat) := regFind (off - off % 4) allRegs

/-! ### The switch's registers -/

/-- The state with a register provisionally written: what rules that name several registers judge. -/
def State.trial (s : State) (r : RegId) (i j : Nat) (v : Word) : State := s.sg r i j v

/-- R128, of the configuration held for instance `i`. -/
def State.redCfgBad (s : State) (i : Nat) : Bool :=
  s.redA i == s.redB i || [s.redA i, s.redB i].any fun p =>
    decide (10 ≤ p) || !s.variant.hasPort p || (p == 1 && s.p1IsPairLink)
      || (s.rf Fx.CFL_RED_CFG_MODE (1 - i) != 0 && (s.redA (1 - i) == p || s.redB (1 - i) == p))

/-- Table 03-1: the highest rate of a switch port on a variant, in kb/s. -/
def topRate (v : Variant) (p : Nat) : Nat :=
  if p < 2 then (if v = .lx2416 then 10000000 else 2500000)
  else if p < 10 then 2500000
  else if p < 14 then 10000
  else if p = 14 then 15750000
  else if p = 15 then 10000000
  else if v = .lx1608 then 160000 else 320000

/-- The enabled read rules of a direction of a window, in ascending number (R162). -/
def State.readRules (s : State) (w dir : Nat) : List EditRule :=
  ((List.range 32).map (s.rule w)).filter fun x => x.en && x.dir == dir && (x.op == 1 || x.op == 2 || x.op == 3)

/-- R162 for the rules of one direction, the words fetched so far being `acc`; `d` directions hold read rules.
47.5 D W ≤ 80 OFS + 240, doubled. -/
def budgetOk (d : Nat) : Nat → List EditRule → Bool
  | _, [] => true
  | acc, x :: t =>
    let w := acc + (x.pool % 8 + x.len + 7) / 8
    decide (95 * d * w ≤ 160 * x.ofs + 480) && budgetOk d w t

/-- Every enabled window meets the timing budget. -/
def State.twBudgetOk (s : State) : Bool :=
  let dirs := ((List.range 4).filter fun w => s.rb Fx.CFL_TW_CFG_EN w).flatMap fun w => [s.readRules w 0, s.readRules w 1]
  let d := (dirs.filter fun l => !l.isEmpty).length
  dirs.all fun l => budgetOk d 0 l

/-- R155: window `w` is enabled in `s` and a condition does not hold. -/
def State.twCfgBad (s : State) (w : Nat) : Bool :=
  let a := s.rf Fx.CFL_TW_CFG_PORT_A w
  let b := s.rf Fx.CFL_TW_CFG_PORT_B w
  let other := fun (p : Nat) => (List.range 4).any fun q =>
    q != w && s.rb Fx.CFL_TW_CFG_EN q && (s.rf Fx.CFL_TW_CFG_PORT_A q == p || s.rf Fx.CFL_TW_CFG_PORT_B q == p)
  let red := fun (p : Nat) => [0, 1].any fun i => s.rf Fx.CFL_RED_CFG_MODE i != 0 && (s.redA i == p || s.redB i == p)
  s.rb Fx.CFL_TW_CFG_EN w
    && (a == b || !s.twBudgetOk || [a, b].any fun p =>
      other p || red p || s.rf Fx.CFL_PORT_CFG_STATE p != 0
        || s.rf Fx.MAC_CFG_SPEED p != 2 || s.rf Fx.MAC_CFG_DUPLEX p != 0 || s.rf Fx.MAC_CFG_MODE p != 0)

/-- The constraints of Table 04-3 that concern word 0 alone. -/
def EditRule.bad0 (x : EditRule) : Bool :=
  decide (1518 < x.ofs + x.len) || decide (1518 < x.mofs + 4) || (x.op != 0 && decide (x.ofs < 14))
    || ((x.op == 2 || x.op == 4) && decide (4 < x.len))

/-- R158, of the rule as written: constraints between words are judged when the write leaves the rule enabled
(DEDUCED, log entry 179). -/
def EditRule.badWrite (x : EditRule) : Bool := if x.en then x.bad else x.bad0

/-- R119 and the layout of the gate list registers, for a write of `v` (DEDUCED, log entry 180). -/
def State.gclBad (s : State) (r : RegId) (p : Nat) (v : Word) : Bool :=
  (s.gateOf p).pending
    || (r == .CFL_GCL_ADMIN_EXT && decide (s.rf Fx.CFL_GCL_ADMIN_CYCLE_NS p < v.toNat))
    || (r == .CFL_GCL_ENTRY_OP && decide (10 ≤ p) && bits v 9 8 != 0)

/-- R113: the reserved cases of CFL_FDB_CMD. -/
def State.fdbCmdBad (s : State) (v : Word) : Bool := s.cfl.fdbBusy || ((bits v 3 0 == 1 || bits v 3 0 == 2) && s.lock)

/-! ### Other units -/

/-- GYS_CFG: LEAD_TB is not 0 exactly when LEAD_EN is 1. -/
def gysCfgBad (v : Word) : Bool := v.getLsbD 15 != (bits v 14 12 != 0)

/-- GYS_CH_CFG: DLY_SLOT is 0 while DLY_EN is 0; an enabled channel meets Table 07-3. -/
def State.gysChCfgBad (s : State) (c : Nat) : Bool :=
  (!s.rb Fx.GYS_CH_CFG_DLY_EN c && s.rf Fx.GYS_CH_CFG_DLY_SLOT c != 0) || (s.rb Fx.GYS_CH_CFG_EN c && s.schedBad c)

/-- GYS_SLOT_T and GYS_SLOT_D. -/
def State.gysSlotBad (s : State) (c n : Nat) : Bool := s.slotBad c n || (s.rb Fx.GYS_CH_CFG_EN c && s.schedBad c)

/-- PAIR_CMD: more than one bit, and HANDOVER outside the states of R300. -/
def State.pairCmdBad (s : State) (v : Word) : Bool :=
  decide (1 < b2n (v.getLsbD 0) + b2n (v.getLsbD 1) + b2n (v.getLsbD 2))
    || (v.getLsbD 2 && !(s.pair.st == 3 && s.pair.pState == 2))

/-- PAIR_MREG_LEN of an enabled region: 8 to 4096, a multiple of 8 (DEDUCED, log entry 180). -/
def State.mregLenBad (s : State) (i : Nat) (v : Word) : Bool :=
  s.rb Fx.PAIR_MREG_BASE_EN i && (bits v 12 0 % 8 != 0 || bits v 12 0 == 0 || decide (4096 < bits v 12 0))

/-- A CLUSTER field that names an absent cluster (Table 10-6). -/
def noCluster (v : Variant) (k : Nat) : Bool := decide (v.cores ≤ k)

/-! ### The table -/

/-- The reserved encodings of a write of `v` to a register, beside those of its fields (DEDUCED, log entry 69). -/
def State.regBad (s : State) (r : RegId) (i j : Nat) (v : Word) : Bool :=
  match r with
  | .GLB_CYC_CFG | .GLB_CYC_PERIOD | .GLB_CYC_OFS => s.cycWriteBad r i v
  | .HST_CMD => hstCmdBad v
  | .HST_POLL => s.hstPollBad v
  | .HST_POLL_IDLE => s.hstPollIdleBad v
  | .HST_TXR_CTL => s.ringCtlBad .tx i v
  | .HST_RXR_CTL => s.ringCtlBad .rx i v
  | .HST_EVR_CTL => s.ringCtlBad .ev i v
  | .CFL_PORT_FC => bits v 15 0 != 0 && decide (bits v 31 16 ≤ bits v 15 0)
  | .CFL_PORT_MAX => i == 16 && decide (1522 < bits v 13 0)
  | .CFL_FDB_CMD => s.fdbCmdBad v
  | .CFL_VT_CMD => bits v 13 12 == 1 && s.lock
  | .CFL_RED_CFG => (s.trial r i j v).redCfgBad i
  | .CFL_OQ_SLOPE => decide (topRate s.variant i < bits v 23 0)
  | .CFL_GCL_ADMIN_CFG | .CFL_GCL_ADMIN_CYCLE | .CFL_GCL_ADMIN_EXT | .CFL_GCL_ADMIN_BASE_NS | .CFL_GCL_ADMIN_BASE_SEC_LO
  | .CFL_GCL_ADMIN_BASE_SEC_HI | .CFL_GCL_ENTRY_INT | .CFL_GCL_ENTRY_OP => s.gclBad r i v
  | .CFL_GCL_CMD => (v.getLsbD 0 && v.getLsbD 1) || (v.getLsbD 0 && (s.gateOf i).pending)
  | .CFL_TW_CFG => (s.trial r i j v).twCfgBad i
  | .CFL_TW_RULE0 | .CFL_TW_RULE1 | .CFL_TW_RULE2 | .CFL_TW_RULE3 => ((s.trial r i j v).rule i j).badWrite
  | .MAC_CFG => macCfgBad s i v
  | .MAC_MAXLEN => macMaxlenBad i v
  | .MAC_UC_HI => macUcBad v
  | .MAC_CMD => macCmdBad v
  | .MAC_MDIO => (s.macOf i).mdio.isSome
  | .TB_CFG => s.tbCfgBad i v
  | .TB_CMD => s.tbCmdBad i (bits v 3 0) (s.rf Fx.TB_ADJ_NS_NS i)
  | .TB_RATE => i == 0 && v != 0#32
  | .TB_CAP_CFG => tbCapCfgBad v
  | .TB_PLS_CFG => s.plsCfgBad i v
  | .GYS_CFG => gysCfgBad v
  | .GYS_CYCLE => s.cycWriteBad r i v || (s.trial r i j v).gysSchedBad
  | .GYS_TIMING => (s.trial r i j v).gysSchedBad
  | .GYS_CH_CFG => (s.trial r i j v).gysChCfgBad i
  | .GYS_SLOT_T | .GYS_SLOT_D => (s.trial r i j v).gysSlotBad i j
  | .GYS_CH_CMD => v.getLsbD 0 && v.getLsbD 1
  | .PAIR_CFG => (s.trial r i j v).pairCfgBad
  | .PAIR_CMD => s.pairCmdBad v
  | .PAIR_MREG_LEN => s.mregLenBad i v
  | .ENG_BIND => s.bindBad i v
  | .ENG_BIND_AUX => s.bindAuxBad i v
  | .ENG_CMD => s.engCmdBad i (bits v 3 0) (bits v 12 8)
  | .ENG_FQ_RXGEO => rxGeoBad v
  | .ENG_CORE_CMD => s.coreCmdBad i (bits v 1 0)
  | .ENG_FQ_ETYPE => noCluster s.variant (bits v 19 16)
  | .ENG_FQ_STEER => noCluster s.variant (bits v 3 0)
  | .MBX_CFG => mbxCfgBad s.variant v
  | .MBX_CMD => s.mbxCmdBad i (bits v 2 0)
  | .RIL_SYNC_CMD => s.syncBad v
  | .RIL_GRP_CMD => s.grpBad v
  | .RIL_ECFG => s.rilEcfgBad i v
  | .RIL_DIV => s.rilDivBad i v
  | .RIL_CMP_VAL | .RIL_CMP_MASK => s.rilBusy i
  | .RIL_CTL => s.rilCtlBad i v
  | .RIL_SLOT => s.rilSlotBad i j v
  | .CAN_NBT => nbtBad v
  | .CAN_DBT => dbtBad v
  | .CAN_XCH_CFG => s.xchBad i v
  | .CAN_CMD => s.canCmdBad i v
  | .CAN_RXF_ACK => s.rb Fx.CAN_XCH_CFG_EN i || !(if j = 0 then (s.canOf i).f0 else (s.canOf i).f1).names 64 (bits v 5 0)
  | .CAN_EVF_ACK => s.rb Fx.CAN_XCH_CFG_EN i || !(s.canOf i).ev.names 32 (bits v 4 0)
  | .CAN_HP_ACK => s.rb Fx.CAN_XCH_CFG_EN i
  | .CAN_RAM_WIN => s.ramBad i (s.ramIndex i j) v
  | .LOOP_SCFG => loopScfgBad v
  | .LOOP_IMIN => decide (s.lreg .LOOP_IMAX i < sgn32 v.toNat)
  | .LOOP_IMAX => decide (sgn32 v.toNat < s.lreg .LOOP_IMIN i)
  | .LOOP_UMIN => decide (s.lreg .LOOP_UMAX i < sgn32 v.toNat)
  | .LOOP_UMAX => decide (sgn32 v.toNat < s.lreg .LOOP_UMIN i)
  | .BOOT_IMG_CMD => s.imgCmdBad (bits v 27 24)
  | .PWR_CMD => s.pwrCmdBad (bits v 2 0)
  | .MEM_BANK_CMD => s.bankBad (bits v 31 28) (bits v 5 0)
  | .MEM_BT_CMD => s.btCmdBad v
  | .MEM_ATOM_CMD => s.atomBad
  | .TPH_CMD => s.tphCmdBad v
  | .TPH_WDG_CFG => s.wdgCfgBad v
  | .TPH_WDG_CLU => s.wdgCluBad v
  | .BOOT_CMD => s.bootCmdBad v
  | .BOOT_FUSE_CMD => s.fuseBad v
  | _ => false

/-- The cause for which a naturally aligned 32-bit write of a register word is rejected (R14). UNMAPPED: RAM of a CAN window that is
reserved or not ON (R414, R491), the log window (R530). LOCKED: fuse commands in RUN (R540). A lock word takes every write (R369). -/
def State.regCause (s : State) (r : RegId) (i j : Nat) (v : Word) : Option RejCause :=
  match r with
  | .TPH_WIN => some .unmapped
  | .MEM_LOCK => none
  | .CAN_RAM_WIN =>
    if ramRsv (s.ramIndex i j) || s.bankSt (48 + i) != 0 then some .unmapped else writeCause s r i v (s.regBad r i j v)
  | .BOOT_FUSE_CMD => if s.lock then some .locked else writeCause s r i v (s.regBad r i j v)
  | _ => writeCause s r i v (s.regBad r i j v)

end Sys2Proof.Machine
end

