-- ==== Sys2Proof/Machine/RegAct.lean ====
section
/-!
DEFINITION. What a BAR0 write that is not rejected does: the side effects of the registers that have any, and for every other register
the access classes of its fields (R11).
-/
namespace Sys2Proof.Machine
open Sys2Proof

/-- The next state of an outcome; nothing changes where a meaning stops. -/
def nextOf (o : Out State) (s : State) : State :=
  match o with
  | .next t => t
  | _ => s

/-- R11: the write of a register without side effects. -/
def State.plainWrite (s : State) (r : RegId) (i j : Nat) (v : Word) : State := s.sg r i j (applyFields (s.rg r i j) v r.defn.flds)

/-- A ring's CFG: a ring enabled afresh starts at index 0. -/
def State.ringCfgWrite (s : State) (r : RegId) (k : RingKind) (n : Nat) (v : Word) : State :=
  let s1 := s.plainWrite r n 0 v
  if v.getLsbD 0 && !s.ringEn k n then s1.ringEnabled k n else s1

/-- CFL_FDB_CMD. -/
def State.fdbCmd (s : State) (m : Master) (v : Word) : State :=
  match bits v 3 0 with
  | 1 => nextOf (execFdbAdd m s) s
  | 2 => nextOf (execFdbDelete m s) s
  | 3 => nextOf (execFdbRead m (Fin.ofNat 16384 (bits v 29 16)) s) s
  | 4 => nextOf (execFdbLookup m s) s
  | _ => nextOf (execFdbFlush m (v.getLsbD 14) (v.getLsbD 13) (Fin.ofNat 32 (bits v 12 8)) s) s

/-- CFL_VT_CMD. -/
def State.vtCmd (s : State) (m : Master) (v : Word) : State :=
  if bits v 13 12 = 1 then nextOf (execVlanTableWrite m (Fin.ofNat 4096 (bits v 11 0)) s) s
  else nextOf (execVlanTableRead m (Fin.ofNat 4096 (bits v 11 0)) s) s

/-- CFL_GCL_CMD. -/
def State.gclCmd (s : State) (m : Master) (p : Nat) (v : Word) : State :=
  if v.getLsbD 0 then nextOf (execGclChange m (Fin.ofNat 14 p) s) s
  else if v.getLsbD 1 then nextOf (execGclCancel m (Fin.ofNat 14 p) s) s
  else s

/-- MAC_MDIO. -/
def State.mdioCmd (s : State) (p : Nat) (v : Word) : State :=
  let w := bits v 31 30 == 1
  s.mdioReq p ⟨w, bits v 29 25, bits v 24 20, if w then bits v 15 0 else 0⟩

/-- TB_CMD, with the amounts that stand in TB_ADJ. -/
def State.tbAct (s : State) (n op : Nat) : State :=
  s.tbOp n op (s.rf Fx.TB_ADJ_SEC_HI_SEC n * 2 ^ 32 + s.rf Fx.TB_ADJ_SEC_LO_SEC n) (s.rf Fx.TB_ADJ_NS_NS n) (s.rf Fx.TB_ADJ_FRAC_FRAC n)

/-- PAIR_CMD. -/
def State.pairAct (s : State) (m : Master) (v : Word) : State :=
  if v.getLsbD 0 then nextOf (execPairIsolate m s) s
  else if v.getLsbD 1 then nextOf (execPairJoin m s) s
  else if v.getLsbD 2 then nextOf (execPairHandover m s) s
  else s

/-- GYS_CH_CMD. -/
def State.gysChAct (s : State) (c : Nat) (v : Word) : State :=
  if v.getLsbD 0 then s.gysIsolate c else if v.getLsbD 1 then s.gysJoin c else s

/-- CAN_RXF_ACK, CAN_EVF_ACK and CAN_HP_ACK. -/
def State.canRxFree (s : State) (c f i : Nat) : State :=
  s.canUpd c fun y => if f = 0 then { y with f0 := y.f0.ack 64 i } else { y with f1 := y.f1.ack 64 i }
def State.canEvFree (s : State) (c i : Nat) : State := s.canUpd c fun y => { y with ev := y.ev.ack 32 i }
def State.canHpFree (s : State) (c : Nat) (ack : Bool) : State :=
  if ack then s.canUpd c fun y => { y with hpFull := false, hpColl := false } else s

/-- BOOT_CMD: the time of entry into RUN is the world's and no operand of a plain write carries it: a free value
(DESIGN CHOICE, log entry 182). -/
def State.bootAct (s : State) (v : Word) : State := (s.bootOp v s.freeVal.toNat).freeNext

/-- The ID of a bus in a lock word (R370). -/
def hostLockId (m : Master) : Nat := lockId (.host m)

/-- The effect of a write of `v` that no rule rejects. -/
def State.regAct (s : State) (m : Master) (r : RegId) (i j : Nat) (v : Word) : State :=
  match r with
  | .HST_CMD => s.hstCmd v
  | .HST_TXR_CFG => s.ringCfgWrite r .tx i v
  | .HST_RXR_CFG => s.ringCfgWrite r .rx i v
  | .HST_EVR_CFG => s.ringCfgWrite r .ev i v
  | .HST_TXR_CTL => s.ringCtl .tx i v
  | .HST_RXR_CTL => s.ringCtl .rx i v
  | .HST_EVR_CTL => s.ringCtl .ev i v
  | .CFL_FDB_CMD => s.fdbCmd m v
  | .CFL_VT_CMD => s.vtCmd m v
  | .CFL_GCL_CMD => s.gclCmd m i v
  | .MAC_CMD => s.macCmd i v (s.rxPart i)
  | .MAC_EEE_TW => s.macUpd i fun x => { x with twNext := bits v 15 0 }
  | .MAC_MDIO => s.mdioCmd i v
  | .TB_CFG => s.tbCfgWrite i v
  | .TB_CMD => s.tbAct i (bits v 3 0)
  | .TB_PLS_CFG | .TB_PLS_START_NS | .TB_PLS_START_SEC_LO | .TB_PLS_START_SEC_HI | .TB_PLS_PERIOD | .TB_PLS_WIDTH =>
    (s.plainWrite r i j v).plsRestart i
  | .GYS_CH_CMD => s.gysChAct i v
  | .PAIR_CMD => s.pairAct m v
  | .ENG_CMD => s.engOp i (bits v 3 0) (bits v 12 8)
  | .ENG_CORE_CMD => s.coreOp i (bits v 1 0)
  | .ENG_LOCK_FORCE => s.lockFree (bits v 5 0)
  | .MBX_CMD => s.mbxOp i (bits v 2 0) (bits v 31 16)
  | .RIL_SYNC_LO => { s with rilSyncLo := v.toNat }
  | .RIL_SYNC_CMD => s.syncOp v
  | .RIL_GRP_CMD => s.grpOp v
  | .RIL_CTL => s.rilCtl i v
  | .RIL_PROG => s.progWrite i j v
  | .CAN_XCH_CFG => s.xchWrite i v
  | .CAN_CMD => s.canOp i v
  | .CAN_TXREQ => s.forBits v fun t b => t.canRequest i b
  | .CAN_TXCAN => s.forBits v fun t b => t.canCancel i b
  | .CAN_RXF_ACK => s.canRxFree i j (bits v 5 0)
  | .CAN_EVF_ACK => s.canEvFree i (bits v 4 0)
  | .CAN_HP_ACK => s.canHpFree i (v.getLsbD 0)
  | .CAN_RAM_WIN => s.canUpd i fun x => x.putWords (s.ramIndex i j) [v]
  | .LOOP_OPT | .LOOP_MODE | .LOOP_MAN | .LOOP_KI | .LOOP_KD | .LOOP_KF | .LOOP_IMIN | .LOOP_IMAX | .LOOP_UMIN | .LOOP_UMAX
  | .LOOP_RMAX | .LOOP_FR_X0 | .LOOP_VDB | .LOOP_CG_X0 | .LOOP_GAIN | .LOOP_FRIC | .LOOP_COG => s.coefPut r i j v
  | .BOOT_IMG_CMD => s.imgReq (bits v 27 24) (bits v 20 12 * 4096)
  | .PWR_CMD => s.pwrOp (bits v 2 0)
  | .MEM_BANK_CMD => s.bankReq (bits v 31 28) (bits v 5 0)
  | .MEM_BT_CMD => s.btOp v
  | .MEM_ATOM_CMD => s.atomOp (bits v 1 0)
  | .MEM_LOCK => s.lockWrite (hostLockId m) i v.toNat
  | .TPH_CMD => s.tphOp v
  | .TPH_WDG_KICK => nextOf (execWdgKick m (BitVec.ofNat 8 (bits v 7 0)) s) s
  | .GLB_RESET => s.deviceReset 2
  | .BOOT_CMD => s.bootAct v
  | .BOOT_FUSE_CMD => s.fuseOp v
  | _ => s.plainWrite r i j v

end Sys2Proof.Machine
end

