-- ==== Sys2Proof/Machine/RegRead.lean ====
section
/-!
DEFINITION. What a BAR0 read of a register returns, and what the read does (R11, R17, R211, R238, R204, R371, R530): the values that the
device computes from the state behind a register, and the held value of every other register.
-/
namespace Sys2Proof.Machine
open Sys2Proof

/-! ### FEAT (R5, Table 00-1) -/

def featUnits : Variant → Nat
  | .lx2416 => 0x5F
  | .lx2412 => 0x3F
  | .lx1608 => 0x08
def featCounts : Variant → Nat
  | .lx2416 => 0x40300C10
  | .lx2412 => 0x20300C0C
  | .lx1608 => 0x00180608
def featPorts : Variant → Nat
  | .lx1608 => 0xFFFFFC
  | _ => 0xFFFFFF

/-! ### The switch and the MACs -/

/-- CFL_FDB_STS. -/
def State.fdbSts (s : State) : Nat := b2n s.cfl.fdbBusy * 2 ^ 31 + s.cfl.fdbResult * 2 ^ 28 + s.cfl.fdbIndex

/-- CFL_OQ_STS (DEDUCED, log entry 112). -/
def State.oqSts (s : State) (p c : Nat) : Nat :=
  b2n (decide (vget 0 (s.outOf p).credit c < 0)) * 2 ^ 31 + b2n (s.gateOpen p c) * 2 ^ 30 + s.occupancy p c

/-- CFL_GCL_STS. -/
def State.gclSts (s : State) (p : Nat) : Nat :=
  let g := s.gateOf p
  b2n g.pending * 2 ^ 31 + b2n g.operEn * 2 ^ 30 + b2n (s.tbOos g.operTb) * 2 ^ 29 + g.entry * 2 ^ 12 + g.gates.toNat

/-- CFL_FP_STS. -/
def State.fpSts (s : State) (p : Nat) : Nat :=
  b2n (s.gateOf p).hold * 16 + b2n (s.preemptActive p) * 8 + (s.outOf p).verify

/-- CFL_EDDY_STS. -/
def State.eddySts (s : State) : Nat :=
  s.cfl.eddySweeps % 65536 * 65536 + s.cfl.eddySkip * 256 + b2n (decide (2 ≤ s.cfl.eddySweeps)) * 4 + b2n s.cfl.eddyWaiting * 2
    + b2n s.cfl.eddyRunning

/-- CFL_TW_STS: frames are turned back while one of the two exit links is down with AUTO_LOOP (R167). -/
def State.twSts (s : State) (w : Nat) : Nat :=
  let a := s.portLink (s.rf Fx.CFL_TW_CFG_PORT_A w)
  let b := s.portLink (s.rf Fx.CFL_TW_CFG_PORT_B w)
  let en := s.rb Fx.CFL_TW_CFG_EN w
  let sus := s.twSuspended w
  b2n sus * 4 + b2n (en && !sus && s.rb Fx.CFL_TW_CFG_AUTO_LOOP w && a != b) * 2 + b2n (en && !sus)

/-- MAC_PLCA_STS. -/
def State.plcaSts (s : State) (p : Nat) : Nat :=
  (s.macOf p).plcaLoss * 65536 + b2n (s.plcaOn p && s.rf Fx.MAC_PLCA_CFG_NODE_ID p == 0) * 2 + b2n (s.macOf p).plcaActive

/-- MAC_EEE_STS: the wake time of the SerDes is 6 µs; an enabled SGMII port reads 0 there (DEDUCED, log entry 183). -/
def State.eeeSts (s : State) (p : Nat) : Nat :=
  (s.macOf p).twForce * 65536 + (if s.rb Fx.MAC_CFG_EN p && s.rf Fx.MAC_CFG_MODE p == 0 then 0 else 6)

/-! ### Time bases, Geyser and pair -/

/-- TB_STS: the held flags and what the time base shows. -/
def State.tbSts (s : State) (n : Nat) : Nat :=
  let t := s.tbOf n
  s.rf Fx.TB_STS_REFUSED n * 2 ^ 31 + s.rf Fx.TB_STS_SW_REFUSED n * 2 ^ 30 + s.rf Fx.TB_STS_STOPPED n * 2 ^ 29
    + s.tbPrimary n * 256 + b2n t.oosCmd * 16 + b2n (s.tbServed n && t.ofs != 0) * 8 + b2n (t.slewRem != 0) * 4 + b2n (s.tbOos n) * 2
    + b2n (s.tbServed n)

/-- The latch of a bus (R211). -/
def State.nowLatch (s : State) (m : Master) (n : Nat) : NowLatch :=
  match m with
  | .pcie => (s.tbOf n).latchPcie
  | .qspi => (s.tbOf n).latchQspi

/-- GYS_STS. -/
def State.gysSts (s : State) : Nat :=
  b2n (s.rb Fx.GYS_CFG_LEAD_EN && !s.rb Fx.TB_CFG_GUARDED (s.rf Fx.GYS_CFG_LEAD_TB)) * 4 + b2n s.gys.first * 2 + b2n s.gys.timer

/-! ### The table -/

/-- The word a read of a register returns; registers not named read their held value. -/
def State.regVal (s : State) (m : Master) (r : RegId) (i j : Nat) : Nat :=
  match r with
  | .FEAT_DEV => featDev s.variant
  | .FEAT_UNITS => featUnits s.variant
  | .FEAT_COUNTS => featCounts s.variant
  | .FEAT_CORE_MAP => 2 ^ s.variant.cores - 1
  | .FEAT_PORT_MAP => featPorts s.variant
  | .GLB_SETUP_LOCK => b2n s.lock
  | .GLB_CYC_STS => s.cycSts
  | .HST_STS => s.hstSts
  | .HST_TXR_STS => s.ringSts .tx i
  | .HST_RXR_STS => s.ringSts .rx i
  | .HST_EVR_STS => s.ringSts .ev i
  | .CFL_BUF_STS => s.cfl.freeCells * 65536 + s.cfl.freeFd
  | .CFL_BUF_QE => s.cfl.freeQe
  | .CFL_FDB_STS => s.fdbSts
  | .CFL_RED_SEQ => s.redSeqOf i
  | .CFL_OQ_STS => s.oqSts i j
  | .CFL_GCL_STS => s.gclSts i
  | .CFL_GCL_OPER_CYCLE => (s.gateOf i).operCycle
  | .CFL_GCL_CHG_NS => (s.gateOf i).cct % nsPerSec
  | .CFL_GCL_CHG_SEC_LO => (s.gateOf i).cct / nsPerSec % 2 ^ 32
  | .CFL_GCL_CHG_SEC_HI => (s.gateOf i).cct / nsPerSec / 2 ^ 32 % 65536
  | .CFL_FP_STS => s.fpSts i
  | .CFL_RESIDUE_STS => s.cfl.residue.length
  | .CFL_EDDY_STS => s.eddySts
  | .CFL_TW_STS => s.twSts i
  | .MAC_STS => s.macSts i
  | .MAC_PLCA_STS => s.plcaSts i
  | .MAC_EEE_STS => s.eeeSts i
  | .MAC_MDIO_STS => b2n (s.macOf i).mdio.isSome * 2 ^ 31 + (s.macOf i).mdioData
  | .MAC_CNT_LO => (s.macOf i).count j % 2 ^ 32
  | .MAC_CNT_HI => sget 0 j (s.macOf i).cntLatch
  | .TB_STS => s.tbSts i
  | .TB_NOW_NS => tbNsOf (s.tbTime i)
  | .TB_NOW_FRAC => (s.nowLatch m i).frac
  | .TB_NOW_SEC_LO => (s.nowLatch m i).sec % 2 ^ 32
  | .TB_NOW_SEC_HI => (s.nowLatch m i).sec / 2 ^ 32
  | .TB_SLEW_REM_NS => enc32 (sat32 (wholeNs (s.tbOf i).slewRem))
  | .TB_SERVE_OFS_NS => if s.tbServed i then enc32 (sat32 (wholeNs ((s.tbOf i).ofs * 65536))) else 0
  | .TB_SNAP_NS => tbNsOf (s.tbOf i).snapRaw
  | .TB_SNAP_FRAC => tbFrac (s.tbOf i).snapRaw
  | .TB_SNAP_SEC_LO => tbSec (s.tbOf i).snapRaw % 2 ^ 32
  | .TB_SNAP_SEC_HI => tbSec (s.tbOf i).snapRaw / 2 ^ 32
  | .TB_SNAP_OFS_NS => enc32 ((s.tbOf i).snapOfs / 65536)
  | .TB_SNAP_OFS_FRAC => (s.tbOf i).snapPrimary * 65536 + ((s.tbOf i).snapOfs % 65536).toNat
  | .TB_CAP_NS => (s.capRead i).2
  | .TB_CAP_FRAC => (s.capOf i).frac
  | .TB_CAP_SEC_LO => (s.capOf i).sec % 2 ^ 32
  | .TB_CAP_SEC_HI => (s.capOf i).sec / 2 ^ 32
  | .TB_CAP_STS => s.rf Fx.TB_CAP_STS_LOST i * 65536 + (s.capOf i).fifo.length
  | .TB_PLS_STS => b2n (s.plsOf i).running * 2 + b2n (s.plsOf i).active
  | .GYS_STS => s.gysSts
  | .GYS_NOW_CYC => s.gys.cyc
  | .GYS_NOW_OFS => s.gys.nowOfs
  | .GYS_RATE => enc32 s.gys.rate
  | .GYS_OFFSET => enc32 (sat32 s.gys.lastE)
  | .GYS_CS_NS => s.gys.csNs
  | .GYS_CH_STS => (s.gysChSts i).toNat
  | .GYS_CH_DLY => (s.gysChOf i).good * 65536 + s.gysDly i
  | .PAIR_STS => s.pairSts.toNat
  | .PAIR_EPOCH => s.pair.epoch
  | .PAIR_SNAP => s.snapZ * 65536 + s.pair.seq
  | .PAIR_HB_STS => s.pair.pSeq * 65536 + s.pair.pByte
  | .PAIR_PARTNER_EPOCH => s.pair.pEpoch
  | .PAIR_TB_DIFF => enc32 (sat32 (vget 0 s.pair.tbDiff i))
  | .ENG_STS => (s.engSts i).toNat
  | .ENG_CORE_STS => (s.coreSts i).toNat
  | .MBX_HOST_RX_LO => s.mbxHostRx 0
  | .MBX_HOST_RX_HI => s.mbxHostRx 32
  | .MBX_HOST_ACK_LO => s.mbxHostAck 0
  | .MBX_HOST_ACK_HI => s.mbxHostAck 32
  | .MBX_STS => (s.mbxSts i).toNat
  | .MBX_PTR => (s.mbxOf i).ptr.toNat
  | .MBX_INFO => (s.mbxOf i).code * 65536 + (s.mbxOf i).tag
  | .RIL_GRP_STS => s.grpSts
  | .RIL_STS => (s.rilSts i).toNat
  | .RIL_SR => (s.rilOf i).sr.toNat
  | .RIL_CTR => (s.rilOf i).ctr
  | .RIL_TS_NS => (s.rilOf i).tsNs
  | .RIL_TS_FRAC => b2n (s.rilOf i).tsValid * 2 ^ 31 + (s.rilOf i).tsFrac
  | .RIL_LAST => (s.rilOf i).last.toNat
  | .CAN_STS => s.canSts i
  | .CAN_ECNT => s.canEcnt i
  | .CAN_TDC_STS => (s.canOf i).tdcv
  | .CAN_TXPEND => (s.canOf i).pendMask
  | .CAN_RXF_STS =>
    (if j = 0 then (s.canOf i).f0 else (s.canOf i).f1).fill * 65536 + (if j = 0 then (s.canOf i).f0 else (s.canOf i).f1).get * 256
  | .CAN_EVF_STS => (s.canOf i).ev.fill * 65536 + (s.canOf i).ev.get * 256
  | .CAN_HP_STS => b2n (s.canOf i).hpColl * 2 + b2n (s.canOf i).hpFull
  | .CAN_RAM_WIN => (s.ramRead i j).toNat
  | .LOOP_SSTS => (s.loopSsts i).toNat
  | .LOOP_I_ST => enc32 (s.slotOf i).i
  | .LOOP_D_ST => enc32 (s.slotOf i).d
  | .LOOP_U_ST => enc32 (s.slotOf i).u
  | .LOOP_SAMPLE_SEQ => (s.slotOf i).sampleSeq
  | .LOOP_COEF_SEQ => s.lp.coefSeq
  | .LOOP_PCMD_STS => s.lp.seq * 2 ^ 24
  | .LOOP_STS => s.loopSts.toNat
  | .BOOT_IMG_STS => s.imgSts
  | .BOOT_IMG_VER => s.imgVer i
  | .CLK_STS => s.clkSts
  | .PWR_STS => s.pwrSts
  | .PWR_SEC => s.pwr.sec
  | .MEM_TOKEN_STS => s.tokenSts
  | .MEM_BANK_RES => s.bankResWord
  | .MEM_BANK_STS => s.bankSts i
  | .MEM_BT_STS => s.btSts
  | .MEM_LOCK => (s.lockRead (hostLockId m) i).2
  | .TPH_STS => s.tphSts
  | .TPH_TOTAL => s.tph.total
  | .TPH_FREEZE_SEQ => s.tph.freezeSeq
  | .TPH_WDG_STS => s.wdgSts
  | .TPH_WIN => (s.tphRead i false).2
  | .BOOT_STS => s.bootSts
  | .BOOT_STRAP => s.bootStrap
  | .BOOT_ERR => s.boot.err.toNat
  | .BOOT_SET_VER => s.boot.setVer
  | .BOOT_TIME => s.boot.time
  | .BOOT_KEY_STS => s.keySts
  | .BOOT_FUSE_HASH => s.fuseHash i j
  | .BOOT_FUSE_STS => s.fuseSts
  | _ => (s.rg r i j).toNat

/-- A read clears the RC fields of a register. -/
def State.readClear (s : State) (r : RegId) (i j : Nat) : State := s.sg r i j (clearRc (s.rg r i j) r.defn.flds)

/-- What a read of a register does to the state. -/
def State.regReadAct (s : State) (m : Master) (r : RegId) (i j : Nat) : State :=
  match r with
  | .GLB_REJ_CNT => ((s.readClear r i j).sg .GLB_REJ_ADDR 0 0 0#32).sg .GLB_REJ_DATA 0 0 0#32
  | .MAC_CNT_LO => s.macCntLatch i j
  | .TB_NOW_NS => s.tbLatch m i
  | .TB_CAP_NS => (s.capRead i).1
  | .GYS_NOW_CYC => s.gysUpd fun g => { g with nowOfs := g.ofs / unitsPerNs }
  | .MEM_LOCK => (s.lockRead (hostLockId m) i).1
  | .TPH_WIN => (s.tphRead i false).1
  | _ => s.readClear r i j

end Sys2Proof.Machine
end

