-- ==== Sys2Proof/Machine/Bus.lean ====
section
/-!
DEFINITION. Accesses to BAR0 and BAR2 (spec/00, R574, R569), the QSPI target, and the set-up writes of a directory (R544).
-/
namespace Sys2Proof.Machine
open Sys2Proof

/-! ### Places (Table 00-4) -/

/-- What lies at a BAR0 offset: a word of a register block, a byte of the pool, a byte of a core's memory pair, or nothing. -/
inductive BusPlace where
  | reg
  | pool (a : Nat)
  | core (k a : Nat)
  | none
  deriving DecidableEq, Repr

def busPlace (off : Nat) : BusPlace :=
  if off < 0xC0000 then .reg
  else if 0x1000000 ≤ off ∧ off < 0x1200000 then .pool (off - 0x1000000)
  else if 0x2000000 ≤ off ∧ off < 0x2200000 then .core ((off - 0x2000000) / 0x20000) ((off - 0x2000000) % 0x20000)
  else .none

/-- R10: a naturally aligned access of 1, 2, 4 or 8 bytes. -/
def aligned (off width : Nat) : Bool := (width == 1 || width == 2 || width == 4 || width == 8) && off % width == 0

/-- A naturally aligned 32-bit access. -/
def aligned32 (off width : Nat) : Bool := width == 4 && off % 4 == 0

/-- GLB_REJ_DATA of a rejected write: its data; of a narrower one the bytes in their lane positions; of a 64-bit write the four bytes
at its lowest addresses (DEDUCED, log entry 70). -/
def rejData (off width data : Nat) : Word :=
  BitVec.ofNat 32 (if 4 ≤ width then data else data % 2 ^ (8 * width) * 2 ^ (8 * (off % 4)))

/-! ### Writes -/

/-- What a write meets: it is ignored, rejected with a cause, or served. -/
inductive WriteAns where
  | ignored
  | rejected (c : RejCause)
  | served
  deriving DecidableEq, Repr

/-- The slices of the register blocks that belong to a port, for P0 and P1: first offset and stride. -/
def portSlices : List (Nat × Nat) :=
  [(0x30000, 0x400), (0x20400, 0x20), (0x21000, 0x100), (0x22800, 0x40), (0x22C00, 0x20), (0x23000, 0x40), (0x24000, 0x200),
   (0x26840, 0x8), (0x26C00, 0x20), (0x28000, 0x800), (0x14000, 0x20), (0xB0900, 0x20), (0x40280, 0x8)]

/-- The ranges of the register blocks that belong to absent units (R6, Table 00-2): first and last offset, plus 1. -/
def absentSpans (v : Variant) : List (Nat × Nat) :=
  [(0xB0000 + 0x1000 * v.cores, 0xC0000), (0x71000 + 0x40 * v.engines, 0x71C00), (0x74000 + 0x80 * v.engines, 0x75800)]
    ++ if v.full then
      [(0x80000 + 0x80 * v.slots, 0x82000), (0x82000 + 0x80 * v.slots, 0x84000), (0x84000 + 0x100 * v.slots, 0x88000)]
    else [(0x80000, 0x90000), (0x58000, 0x60000), (0x52000, 0x53000)] ++ portSlices.map fun p => (p.1, p.1 + 2 * p.2)

/-- R6: an offset lies in the slice of an absent unit. -/
def absentOff (v : Variant) (off : Nat) : Bool := (absentSpans v).any fun p => decide (p.1 ≤ off) && decide (off < p.2)

/-- R6, R9, R10, R14, R524 for a write to a register block. -/
def State.regAns (s : State) (off width data : Nat) : WriteAns :=
  match regAt off with
  | none => if absentOff s.variant off || (s.tph.fatal && !fatalLive off) then .ignored else .rejected .unmapped
  | some (r, i, j) =>
    if s.regDead r i j then .ignored
    else if !aligned32 off width then .rejected .width
    else
      match s.regCause r i j (BitVec.ofNat 32 data) with
      | some c => .rejected c
      | none => .served

/-- R10, R369, R491 for a write to the pool window; its first byte's bank is judged. -/
def State.poolAns (s : State) (a width : Nat) : WriteAns :=
  if s.tph.fatal then .ignored
  else if s.bankSt (poolBank a) ≠ 0 then .rejected .unmapped
  else if lockBase ≤ a then (if aligned32 a width then .served else .rejected .width)
  else if aligned a width then .served else .rejected .width

/-- R6, R10, R342, R491 for a write to a core memory window. -/
def State.coreAns (s : State) (k a width : Nat) : WriteAns :=
  if s.tph.fatal || decide (s.variant.cores ≤ k) then .ignored
  else if s.bankSt (16 + s.physOf k) ≠ 0 then .rejected .unmapped
  else if aligned a width then .served else .rejected .width

/-- What a BAR0 write meets (DEDUCED, log entry 67). -/
def State.writeAns (s : State) (off width data : Nat) : WriteAns :=
  match busPlace off with
  | .reg => s.regAns off width data
  | .pool a => s.poolAns a width
  | .core k a => s.coreAns k a width
  | .none => if s.tph.fatal then .ignored else .rejected .unmapped

/-- Store bytes into the memory pair of cluster `k`'s core: instruction memory, then data memory. -/
def State.coreStore (s : State) (k a : Nat) (d : List Byte) : State :=
  s.coreUpd (s.physOf k) fun c =>
    if a < 0x10000 then { c with imem := wrBytes c.imem a d } else { c with dmem := wrBytes c.dmem (a - 0x10000) d }

/-- The effect of a write that is served. -/
def State.busAct (s : State) (m : Master) (off width data : Nat) : State :=
  match busPlace off with
  | .reg =>
    match regAt off with
    | some (r, i, j) => s.regAct m r i j (BitVec.ofNat 32 data)
    | none => s
  | .pool a =>
    if lockBase ≤ a then s.lockWrite (hostLockId m) ((a - lockBase) / 4) (data % 2 ^ 32) else s.poolWrProt a (leBytes width data)
  | .core k a => s.coreStore k a (leBytes width data)
  | .none => s

/-- A BAR0 write. -/
def State.busWrite (s : State) (m : Master) (off width data : Nat) : State :=
  match s.writeAns off width data with
  | .ignored => s
  | .rejected c => s.reject m c off (rejData off width data)
  | .served => s.busAct m off width data

/-! ### Reads -/

/-- The state after a BAR0 read and what it returns (DEDUCED, log entry 184). -/
def State.busRead (s : State) (m : Master) (off width : Nat) : State × Nat :=
  match busPlace off with
  | .reg =>
    match regAt off with
    | none => (s, 0)
    | some (r, i, j) =>
      if s.regDead r i j || !aligned32 off width then (s, 0) else (s.regReadAct m r i j, s.regVal m r i j)
  | .pool a =>
    if s.tph.fatal || s.bankSt (poolBank a) != 0 then (s, 0)
    else if lockBase ≤ a then (if aligned32 a width then s.lockRead (hostLockId m) ((a - lockBase) / 4) else (s, 0))
    else if aligned a width then (s, leNat (rdBytes s.pool a width)) else (s, 0)
  | .core k a =>
    if s.tph.fatal || decide (s.variant.cores ≤ k) || s.bankSt (16 + s.physOf k) != 0 || !aligned a width then (s, 0)
    else
      let c := s.coreOf (s.physOf k)
      (s, leNat (if a < 0x10000 then rdBytes c.imem a width else rdBytes c.dmem (a - 0x10000) width))
  | .none => (s, 0)

/-- A BAR0 read with its answer on the bus. -/
def State.busAnswer (s : State) (m : Master) (off width : Nat) : State :=
  let r := s.busRead m off width
  r.1.emit (.readData m off width r.2)

/-! ### The rows of BAR0 -/

/-- REGISTER_WRITE: R11 (DESIGN CHOICE, log entry 181). -/
def execRegisterWrite (m : Master) (off : BitVec 26) (width : Nat) (data : BitVec 64) (s : State) : Out State :=
  .next (s.busWrite m off.toNat width data.toNat)

/-- READ_GLB_REJ_CNT: R17. -/
def execReadGlbRejCnt (m : Master) (s : State) : Out State :=
  .next (((s.emit (.readData m 0x14 4 (s.rg .GLB_REJ_CNT).toNat)).readClear .GLB_REJ_CNT 0 0).sg .GLB_REJ_ADDR 0 0 0#32 |>.sg
    .GLB_REJ_DATA 0 0 0#32)

/-- RC_COUNTER_READ: R11; the command carries any BAR0 read (DESIGN CHOICE, log entry 181). -/
def execRcCounterRead (m : Master) (off : BitVec 26) (width : Nat) (s : State) : Out State := .next (s.busAnswer m off.toNat width)

/-! ### BAR2 (R574) -/

/-- The MSI-X table word `k` is written; a vector that this unmasks sends what is pending (R79). -/
def State.msixPut (s : State) (k : Nat) (v : Word) : State :=
  let s1 := { s with pcie := { s.pcie with msix := sput (msixReset k) k v s.pcie.msix } }
  if k % 4 = 3 then s1.msixFlush else s1

/-- A BAR2 write. -/
def State.bar2Write (s : State) (off width data : Nat) : State :=
  if off < 0x400 then
    if aligned32 off width then s.msixPut (off / 4) (BitVec.ofNat 32 data)
    else if width = 8 ∧ off % 8 = 0 then (s.msixPut (off / 4) (BitVec.ofNat 32 data)).msixPut (off / 4 + 1) (BitVec.ofNat 32 (data / 2 ^ 32))
    else s
  else s

/-- What a BAR2 read returns. -/
def State.bar2Read (s : State) (off width : Nat) : Nat :=
  let ok := aligned off width && decide (4 ≤ width)
  if ok && decide (off < 0x400) then
    (s.pcie.word (off / 4)).toNat + (if width = 8 then (s.pcie.word (off / 4 + 1)).toNat * 2 ^ 32 else 0)
  else if ok && decide (0x800 ≤ off) && decide (off + width ≤ 0x808) then s.pcie.pend.toNat / 2 ^ (8 * (off - 0x800)) % 2 ^ (8 * width)
  else 0

/-- BAR2_ACCESS. -/
def execBar2Access (write : Bool) (off : BitVec 12) (width : Nat) (data : BitVec 64) (s : State) : Out State :=
  if write then .next (s.bar2Write off.toNat width data.toNat)
  else .next (s.emit (.bar2Data off.toNat (s.bar2Read off.toNat width)))

/-! ### The QSPI target (R569) -/

/-- The target answers from the end of INIT on (R535, R545) (DEDUCED, log entry 188). -/
def State.qspiOn (s : State) : Bool := s.boot.st != 0

/-- The write of a QSPI transaction; nothing where the transaction is incomplete. -/
def State.qspiWrite (s : State) (complete : Bool) (off : Nat) (data : Nat) : State :=
  if complete && s.qspiOn then s.busWrite .qspi off 4 data else s

/-- The read of a QSPI transaction. -/
def State.qspiRead (s : State) (complete : Bool) (off : Nat) : State := if complete && s.qspiOn then s.busAnswer .qspi off 4 else s

/-- QSPI_WRITE: command 0x02, one line. -/
def execQspiWrite (complete : Bool) (off : BitVec 26) (data : Word) (s : State) : Out State :=
  .next (s.qspiWrite complete off.toNat data.toNat)
/-- QSPI_READ: command 0x0B, one line. -/
def execQspiRead (complete : Bool) (off : BitVec 26) (s : State) : Out State := .next (s.qspiRead complete off.toNat)
/-- QSPI_WRITE_QUAD: command 0x12; the access of QSPI_WRITE on four lines. -/
def execQspiWriteQuad (complete : Bool) (off : BitVec 26) (data : Word) (s : State) : Out State :=
  .next (s.qspiWrite complete off.toNat data.toNat)
/-- QSPI_READ_QUAD: command 0xEB; the access of QSPI_READ on four lines. -/
def execQspiReadQuad (complete : Bool) (off : BitVec 26) (s : State) : Out State := .next (s.qspiRead complete off.toNat)

/-! ### Set-up writes (R544) -/

/-- The writes of a directory from number `i` on, each as a PCIe write; the first that is rejected stops the list, and so does a
write that resets the device. Answers the number of the rejected one (DEDUCED, log entry 185). -/
def State.setupFrom (s : State) (i : Nat) : List (Nat × Word) → State × Option Nat
  | [] => (s, none)
  | (off, v) :: t =>
    let u := s.busWrite .pcie off 4 v.toNat
    match s.writeAns off 4 v.toNat with
    | .rejected _ => (u, some i)
    | _ => if u.boot.st = 1 then u.setupFrom (i + 1) t else (u, none)

/-- SETUP_WRITES, `us` µs after the release of reset. -/
def execSetupWrites (us : Nat) (s : State) : Out State :=
  if s.boot.st != 1 || s.boot.phase != 3 then .next s
  else
    match s.setupFrom 0 s.boot.setup with
    | (t, some i) => .next (t.bootFail 3 i 0)
    | (t, none) =>
      .next (if t.boot.st != 1 then t
             else if s.boot.auto then t.enterRun us
             else t.bootUpd fun b => { b with st := 2, busy := false, phase := 0, setup := [] })

end Sys2Proof.Machine
end

