-- ==== Sys2Proof/Machine/Dispatch.lean ====
section
/-!
DEFINITION. The dispatch of a command to its meaning: one arm for each constructor of `Instr`.
-/
namespace Sys2Proof.Machine
open Sys2Proof

/-- The effect of a command on everything but the queue. -/
def exec (i : Instr) (s : State) : Host.Outcome State Fault Refusal :=
  match i with
  | .registerWrite m off width data => Sys2Proof.Machine.execRegisterWrite m off width data s
  | .readGlbRejCnt m => Sys2Proof.Machine.execReadGlbRejCnt m s
  | .rcCounterRead m off width => Sys2Proof.Machine.execRcCounterRead m off width s
  | .bar2Access write off width data => Sys2Proof.Machine.execBar2Access write off width data s
  | .msixUnmask v => Sys2Proof.Machine.execMsixUnmask v s
  | .qspiWrite complete off data => Sys2Proof.Machine.execQspiWrite complete off data s
  | .qspiRead complete off => Sys2Proof.Machine.execQspiRead complete off s
  | .qspiWriteQuad complete off data => Sys2Proof.Machine.execQspiWriteQuad complete off data s
  | .qspiReadQuad complete off => Sys2Proof.Machine.execQspiReadQuad complete off s
  | .cycleTick => Sys2Proof.Machine.execCycleTick s
  | .rillSyncRelease => Sys2Proof.Machine.execRillSyncRelease s
  | .coreCycleEvent => Sys2Proof.Machine.execCoreCycleEvent s
  | .loopPass ws failed ecc => Sys2Proof.Machine.execLoopPass ws failed ecc s
  | .loopDone clks => Sys2Proof.Machine.execLoopDone clks s
  | .poolBatch b arrivals => Sys2Proof.Machine.execPoolBatch b arrivals s
  | .doorbellPoll => Sys2Proof.Machine.execDoorbellPoll s
  | .pollCompletion words => Sys2Proof.Machine.execPollCompletion words s
  | .pollNow m => Sys2Proof.Machine.execPollNow m s
  | .quiesce m => Sys2Proof.Machine.execQuiesce m s
  | .quiesceComplete => Sys2Proof.Machine.execQuiesceComplete s
  | .hostResume m => Sys2Proof.Machine.execHostResume m s
  | .busMasterLoss linkDown bmeOff => Sys2Proof.Machine.execBusMasterLoss linkDown bmeOff s
  | .busMasterRestore rate bmeOn => Sys2Proof.Machine.execBusMasterRestore rate bmeOn s
  | .descriptorFetchDone n descs => Sys2Proof.Machine.execDescriptorFetchDone n descs s
  | .txBufferReadDone n data => Sys2Proof.Machine.execTxBufferReadDone n data s
  | .dmaCompletionTimeout kind rx n b => Sys2Proof.Machine.execDmaCompletionTimeout kind rx n b s
  | .txCompletion n => Sys2Proof.Machine.execTxCompletion n s
  | .msixModerationTimeout n => Sys2Proof.Machine.execMsixModerationTimeout n s
  | .rxFrameDelivery descs => Sys2Proof.Machine.execRxFrameDelivery descs s
  | .shadowUpdate k n => Sys2Proof.Machine.execShadowUpdate k n s
  | .ringHaltCmd m k n => Sys2Proof.Machine.execRingHaltCmd m k n s
  | .ringReset m k n => Sys2Proof.Machine.execRingReset m k n s
  | .ringResume m k n => Sys2Proof.Machine.execRingResume m k n s
  | .ingressAdmission p hdr ts => Sys2Proof.Machine.execIngressAdmission p hdr ts s
  | .frameEndAtInput p data fcs codeErrs partialByte form => Sys2Proof.Machine.execFrameEndAtInput p data fcs codeErrs partialByte form s
  | .outputSelect p => Sys2Proof.Machine.execOutputSelect p s
  | .frameTransmitEnd p how deferred ts => Sys2Proof.Machine.execFrameTransmitEnd p how deferred ts s
  | .preemption p => Sys2Proof.Machine.execPreemption p s
  | .preemptionHold p hold => Sys2Proof.Machine.execPreemptionHold p hold s
  | .preemptionVerify p response => Sys2Proof.Machine.execPreemptionVerify p response s
  | .gateEntryChange p => Sys2Proof.Machine.execGateEntryChange p s
  | .gclChange m p => Sys2Proof.Machine.execGclChange m p s
  | .gclCancel m p => Sys2Proof.Machine.execGclCancel m p s
  | .gclConfigChangeTime p => Sys2Proof.Machine.execGclConfigChangeTime p s
  | .fdbAgeSweep => Sys2Proof.Machine.execFdbAgeSweep s
  | .fdbAdd m => Sys2Proof.Machine.execFdbAdd m s
  | .fdbDelete m => Sys2Proof.Machine.execFdbDelete m s
  | .fdbRead m index => Sys2Proof.Machine.execFdbRead m index s
  | .fdbLookup m => Sys2Proof.Machine.execFdbLookup m s
  | .fdbFlush m byFid byPort port => Sys2Proof.Machine.execFdbFlush m byFid byPort port s
  | .fdbOpComplete => Sys2Proof.Machine.execFdbOpComplete s
  | .vlanTableWrite m vid => Sys2Proof.Machine.execVlanTableWrite m vid s
  | .vlanTableRead m vid => Sys2Proof.Machine.execVlanTableRead m vid s
  | .duplicateEntryLapse i0 src seq => Sys2Proof.Machine.execDuplicateEntryLapse i0 src seq s
  | .residueExpiry => Sys2Proof.Machine.execResidueExpiry s
  | .ageExamination p => Sys2Proof.Machine.execAgeExamination p s
  | .eddyRequest => Sys2Proof.Machine.execEddyRequest s
  | .eddySweep => Sys2Proof.Machine.execEddySweep s
  | .eddySweepComplete => Sys2Proof.Machine.execEddySweepComplete s
  | .transitFrameStart w fromA data => Sys2Proof.Machine.execTransitFrameStart w fromA data s
  | .transitFrameEnd w fromA fcs full ts => Sys2Proof.Machine.execTransitFrameEnd w fromA fcs full ts s
  | .collision p late => Sys2Proof.Machine.execCollision p late s
  | .backoffExpiry p => Sys2Proof.Machine.execBackoffExpiry p s
  | .plcaBeaconReceived t => Sys2Proof.Machine.execPlcaBeaconReceived t s
  | .plcaBeaconLoss t => Sys2Proof.Machine.execPlcaBeaconLoss t s
  | .plcaTransmitOpportunity t => Sys2Proof.Machine.execPlcaTransmitOpportunity t s
  | .mdioWrite m q phyad regad data => Sys2Proof.Machine.execMdioWrite m q phyad regad data s
  | .mdioRead m q phyad regad => Sys2Proof.Machine.execMdioRead m q phyad regad s
  | .mdioComplete answer => Sys2Proof.Machine.execMdioComplete answer s
  | .eeeLpiEntry p => Sys2Proof.Machine.execEeeLpiEntry p s
  | .eeeWake p => Sys2Proof.Machine.execEeeWake p s
  | .eeeWakeComplete p => Sys2Proof.Machine.execEeeWakeComplete p s
  | .eeeTwWrite m p tw => Sys2Proof.Machine.execEeeTwWrite m p tw s
  | .partnerLpi p present => Sys2Proof.Machine.execPartnerLpi p present s
  | .pauseHoldExpiry p => Sys2Proof.Machine.execPauseHoldExpiry p s
  | .pauseRepeat p => Sys2Proof.Machine.execPauseRepeat p s
  | .serdesSignalLoss p part => Sys2Proof.Machine.execSerdesSignalLoss p part s
  | .retrainTimeout p => Sys2Proof.Machine.execRetrainTimeout p s
  | .linkUp p rate half => Sys2Proof.Machine.execLinkUp p rate half s
  | .phyLinkDown p => Sys2Proof.Machine.execPhyLinkDown p s
  | .loopOn m p => Sys2Proof.Machine.execLoopOn m p s
  | .loopOff m p => Sys2Proof.Machine.execLoopOff m p s
  | .retrain m p part => Sys2Proof.Machine.execRetrain m p part s
  | .cntClr m p => Sys2Proof.Machine.execCntClr m p s
  | .macCounterLowRead m p j => Sys2Proof.Machine.execMacCounterLowRead m p j s
  | .tbStep m n => Sys2Proof.Machine.execTbStep m n s
  | .tbSet m n => Sys2Proof.Machine.execTbSet m n s
  | .tbSlew m n => Sys2Proof.Machine.execTbSlew m n s
  | .tbSlewStop m n => Sys2Proof.Machine.execTbSlewStop m n s
  | .tbServeSwitch m n => Sys2Proof.Machine.execTbServeSwitch m n s
  | .tbOutOfService m n => Sys2Proof.Machine.execTbOutOfService m n s
  | .tbInService m n => Sys2Proof.Machine.execTbInService m n s
  | .tbSnapshot m n => Sys2Proof.Machine.execTbSnapshot m n s
  | .tbRateWrite m n adj => Sys2Proof.Machine.execTbRateWrite m n adj s
  | .tbNowRead m n => Sys2Proof.Machine.execTbNowRead m n s
  | .slewComplete n => Sys2Proof.Machine.execSlewComplete n s
  | .serveSlewComplete n => Sys2Proof.Machine.execServeSlewComplete n s
  | .captureEdge k rising t => Sys2Proof.Machine.execCaptureEdge k rising t s
  | .tbCapRead m k => Sys2Proof.Machine.execTbCapRead m k s
  | .pulseEdge k active => Sys2Proof.Machine.execPulseEdge k active s
  | .gysCycleStart => Sys2Proof.Machine.execGysCycleStart s
  | .slotPayloadFetch c n => Sys2Proof.Machine.execSlotPayloadFetch c n s
  | .slotTransmit c n mismatch ts => Sys2Proof.Machine.execSlotTransmit c n mismatch ts s
  | .gysFrameReceive c coding bytes ago => Sys2Proof.Machine.execGysFrameReceive c coding bytes ago s
  | .slotClose c n => Sys2Proof.Machine.execSlotClose c n s
  | .delayReqSend c t1 => Sys2Proof.Machine.execDelayReqSend c t1 s
  | .delayRespSend c t3 => Sys2Proof.Machine.execDelayRespSend c t3 s
  | .gysListenTimeout => Sys2Proof.Machine.execGysListenTimeout s
  | .coldstartSend => Sys2Proof.Machine.execColdstartSend s
  | .coldstartFrameEnd clean ago => Sys2Proof.Machine.execColdstartFrameEnd clean ago s
  | .integrationAttemptEnd => Sys2Proof.Machine.execIntegrationAttemptEnd s
  | .gysIsolate m c => Sys2Proof.Machine.execGysIsolate m c s
  | .gysJoin m c => Sys2Proof.Machine.execGysJoin m c s
  | .hbInTransition => Sys2Proof.Machine.execHbInTransition s
  | .hbPathLost => Sys2Proof.Machine.execHbPathLost s
  | .loneStartTimeout => Sys2Proof.Machine.execLoneStartTimeout s
  | .enterActive ws failed ecc => Sys2Proof.Machine.execEnterActive ws failed ecc s
  | .pairingLinkFrameReceive data => Sys2Proof.Machine.execPairingLinkFrameReceive data s
  | .snapshotCommitDone => Sys2Proof.Machine.execSnapshotCommitDone s
  | .standbyStale => Sys2Proof.Machine.execStandbyStale s
  | .pairHandover m => Sys2Proof.Machine.execPairHandover m s
  | .pairIsolate m => Sys2Proof.Machine.execPairIsolate m s
  | .pairJoin m => Sys2Proof.Machine.execPairJoin m s
  | .handoverTick => Sys2Proof.Machine.execHandoverTick s
  | .handoverTimeout => Sys2Proof.Machine.execHandoverTimeout s
  | .revertHoldoffExpiry => Sys2Proof.Machine.execRevertHoldoffExpiry s
  | .interruptEntry k => Sys2Proof.Machine.execInterruptEntry k s
  | .coreTimerExpiry k => Sys2Proof.Machine.execCoreTimerExpiry k s
  | .waitWake k expired => Sys2Proof.Machine.execWaitWake k expired s
  | .tbwaitEnd k => Sys2Proof.Machine.execTbwaitEnd k s
  | .rfifoWaitEnd k expired => Sys2Proof.Machine.execRfifoWaitEnd k expired s
  | .add k e => Sys2Proof.Machine.execAdd k e s
  | .sub k e => Sys2Proof.Machine.execSub k e s
  | .and k e => Sys2Proof.Machine.execAnd k e s
  | .or k e => Sys2Proof.Machine.execOr k e s
  | .xor k e => Sys2Proof.Machine.execXor k e s
  | .andn k e => Sys2Proof.Machine.execAndn k e s
  | .shl k e => Sys2Proof.Machine.execShl k e s
  | .shr k e => Sys2Proof.Machine.execShr k e s
  | .sar k e => Sys2Proof.Machine.execSar k e s
  | .ror k e => Sys2Proof.Machine.execRor k e s
  | .slt k e => Sys2Proof.Machine.execSlt k e s
  | .sltu k e => Sys2Proof.Machine.execSltu k e s
  | .min k e => Sys2Proof.Machine.execMin k e s
  | .max k e => Sys2Proof.Machine.execMax k e s
  | .minu k e => Sys2Proof.Machine.execMinu k e s
  | .maxu k e => Sys2Proof.Machine.execMaxu k e s
  | .mul k e => Sys2Proof.Machine.execMul k e s
  | .mulh k e => Sys2Proof.Machine.execMulh k e s
  | .mulhu k e => Sys2Proof.Machine.execMulhu k e s
  | .div k e => Sys2Proof.Machine.execDiv k e s
  | .divu k e => Sys2Proof.Machine.execDivu k e s
  | .rem k e => Sys2Proof.Machine.execRem k e s
  | .remu k e => Sys2Proof.Machine.execRemu k e s
  | .clz k e => Sys2Proof.Machine.execClz k e s
  | .popc k e => Sys2Proof.Machine.execPopc k e s
  | .rev8 k e => Sys2Proof.Machine.execRev8 k e s
  | .sextb k e => Sys2Proof.Machine.execSextb k e s
  | .sexth k e => Sys2Proof.Machine.execSexth k e s
  | .mulq k e => Sys2Proof.Machine.execMulq k e s
  | .sadd k e => Sys2Proof.Machine.execSadd k e s
  | .ssub k e => Sys2Proof.Machine.execSsub k e s
  | .addi k e => Sys2Proof.Machine.execAddi k e s
  | .andi k e => Sys2Proof.Machine.execAndi k e s
  | .ori k e => Sys2Proof.Machine.execOri k e s
  | .xori k e => Sys2Proof.Machine.execXori k e s
  | .lih k e => Sys2Proof.Machine.execLih k e s
  | .shi k e => Sys2Proof.Machine.execShi k e s
  | .slti k e => Sys2Proof.Machine.execSlti k e s
  | .lw k e => Sys2Proof.Machine.execLw k e s
  | .lh k e => Sys2Proof.Machine.execLh k e s
  | .lhu k e => Sys2Proof.Machine.execLhu k e s
  | .lb k e => Sys2Proof.Machine.execLb k e s
  | .lbu k e => Sys2Proof.Machine.execLbu k e s
  | .sw k e => Sys2Proof.Machine.execSw k e s
  | .sh k e => Sys2Proof.Machine.execSh k e s
  | .sb k e => Sys2Proof.Machine.execSb k e s
  | .lwp k e => Sys2Proof.Machine.execLwp k e s
  | .lhup k e => Sys2Proof.Machine.execLhup k e s
  | .lbup k e => Sys2Proof.Machine.execLbup k e s
  | .swp k e => Sys2Proof.Machine.execSwp k e s
  | .shp k e => Sys2Proof.Machine.execShp k e s
  | .sbp k e => Sys2Proof.Machine.execSbp k e s
  | .bfxu k e => Sys2Proof.Machine.execBfxu k e s
  | .bfxs k e => Sys2Proof.Machine.execBfxs k e s
  | .bfi k e => Sys2Proof.Machine.execBfi k e s
  | .bfclr k e => Sys2Proof.Machine.execBfclr k e s
  | .crc k e => Sys2Proof.Machine.execCrc k e s
  | .crcm k e => Sys2Proof.Machine.execCrcm k e s
  | .aadd k e => Sys2Proof.Machine.execAadd k e s
  | .aswp k e => Sys2Proof.Machine.execAswp k e s
  | .mbsend k e => Sys2Proof.Machine.execMbsend k e s
  | .mbtake k e => Sys2Proof.Machine.execMbtake k e s
  | .mback k e => Sys2Proof.Machine.execMback k e s
  | .mbackr k e => Sys2Proof.Machine.execMbackr k e s
  | .mbstat k e => Sys2Proof.Machine.execMbstat k e s
  | .tbrd k e => Sys2Proof.Machine.execTbrd k e s
  | .tbstep k e => Sys2Proof.Machine.execTbstep k e s
  | .tbslew k e => Sys2Proof.Machine.execTbslew k e s
  | .tbrate k e => Sys2Proof.Machine.execTbrate k e s
  | .tbwait k e => Sys2Proof.Machine.execTbwait k e s
  | .rfpush k e => Sys2Proof.Machine.execRfpush k e s
  | .rfpop k e => Sys2Proof.Machine.execRfpop k e s
  | .rflvl k e => Sys2Proof.Machine.execRflvl k e s
  | .fqtx k e => Sys2Proof.Machine.execFqtx k e s
  | .fqrx k e => Sys2Proof.Machine.execFqrx k e s
  | .fqfree k e => Sys2Proof.Machine.execFqfree k e s
  | .fqlvl k e => Sys2Proof.Machine.execFqlvl k e s
  | .crd k e => Sys2Proof.Machine.execCrd k e s
  | .cwr k e => Sys2Proof.Machine.execCwr k e s
  | .cset k e => Sys2Proof.Machine.execCset k e s
  | .cclr k e => Sys2Proof.Machine.execCclr k e s
  | .nop k e => Sys2Proof.Machine.execNop k e s
  | .fence k e => Sys2Proof.Machine.execFence k e s
  | .wait k e => Sys2Proof.Machine.execWait k e s
  | .ecall k e => Sys2Proof.Machine.execEcall k e s
  | .break k e => Sys2Proof.Machine.execBreak k e s
  | .reti k e => Sys2Proof.Machine.execReti k e s
  | .ei k e => Sys2Proof.Machine.execEi k e s
  | .di k e => Sys2Proof.Machine.execDi k e s
  | .bcc k e => Sys2Proof.Machine.execBcc k e s
  | .bcci k e => Sys2Proof.Machine.execBcci k e s
  | .j k e => Sys2Proof.Machine.execJ k e s
  | .call k e => Sys2Proof.Machine.execCall k e s
  | .jr k e => Sys2Proof.Machine.execJr k e s
  | .callr k e => Sys2Proof.Machine.execCallr k e s
  | .ret k e => Sys2Proof.Machine.execRet k e s
  | .loop k e => Sys2Proof.Machine.execLoop k e s
  | .loopi k e => Sys2Proof.Machine.execLoopi k e s
  | .rep k e => Sys2Proof.Machine.execRep k e s
  | .repi k e => Sys2Proof.Machine.execRepi k e s
  | .engStart m k => Sys2Proof.Machine.execEngStart m k s
  | .engStop m k => Sys2Proof.Machine.execEngStop m k s
  | .engRestart m k => Sys2Proof.Machine.execEngRestart m k s
  | .engMigrate m k target => Sys2Proof.Machine.execEngMigrate m k target s
  | .engSoft m k => Sys2Proof.Machine.execEngSoft m k s
  | .autoRestart k => Sys2Proof.Machine.execAutoRestart k s
  | .restartWindowExpiry k => Sys2Proof.Machine.execRestartWindowExpiry k s
  | .migrationRun => Sys2Proof.Machine.execMigrationRun s
  | .migrationComplete eccAbort ns => Sys2Proof.Machine.execMigrationComplete eccAbort ns s
  | .migrationTimeout => Sys2Proof.Machine.execMigrationTimeout s
  | .coreOutOfService m n => Sys2Proof.Machine.execCoreOutOfService m n s
  | .coreInService m n => Sys2Proof.Machine.execCoreInService m n s
  | .coreInitDone n => Sys2Proof.Machine.execCoreInitDone n s
  | .fqFrameReadDone k eccFail => Sys2Proof.Machine.execFqFrameReadDone k eccFail s
  | .fqTxCompletion k => Sys2Proof.Machine.execFqTxCompletion k s
  | .fqRxDelivery => Sys2Proof.Machine.execFqRxDelivery s
  | .mbxCmdSend src m data => Sys2Proof.Machine.execMbxCmdSend src m data s
  | .mbxCmdTake src m data => Sys2Proof.Machine.execMbxCmdTake src m data s
  | .mbxCmdAck src m data => Sys2Proof.Machine.execMbxCmdAck src m data s
  | .mbxCmdAckClr src m data => Sys2Proof.Machine.execMbxCmdAckClr src m data s
  | .lockRead who n => Sys2Proof.Machine.execLockRead who n s
  | .lockWrite who n v => Sys2Proof.Machine.execLockWrite who n v s
  | .lockForce m n => Sys2Proof.Machine.execLockForce m n s
  | .rillGoto e lv => Sys2Proof.Machine.execRillGoto e lv s
  | .rillAwait e lv before => Sys2Proof.Machine.execRillAwait e lv before s
  | .rillShift e samples => Sys2Proof.Machine.execRillShift e samples s
  | .rillFetch e => Sys2Proof.Machine.execRillFetch e s
  | .rillPost e => Sys2Proof.Machine.execRillPost e s
  | .rillWaitEnd e lv before => Sys2Proof.Machine.execRillWaitEnd e lv before s
  | .rillLoad e => Sys2Proof.Machine.execRillLoad e s
  | .rillCopy e lv => Sys2Proof.Machine.execRillCopy e lv s
  | .rillVerify e lvl lvl2 => Sys2Proof.Machine.execRillVerify e lvl lvl2 s
  | .rillHalt e => Sys2Proof.Machine.execRillHalt e s
  | .rilStart m e clrSr flush => Sys2Proof.Machine.execRilStart m e clrSr flush s
  | .rilStop m e => Sys2Proof.Machine.execRilStop m e s
  | .rilStopEffect e => Sys2Proof.Machine.execRilStopEffect e s
  | .syncStart m hi => Sys2Proof.Machine.execSyncStart m hi s
  | .syncPhase m hi => Sys2Proof.Machine.execSyncPhase m hi s
  | .groupOutOfService m g => Sys2Proof.Machine.execGroupOutOfService m g s
  | .groupInService m g => Sys2Proof.Machine.execGroupInService m g s
  | .programWordWrite m e i0 v => Sys2Proof.Machine.execProgramWordWrite m e i0 v s
  | .canFrameReceive c own msg ts => Sys2Proof.Machine.execCanFrameReceive c own msg ts s
  | .canTxRequest m c b => Sys2Proof.Machine.execCanTxRequest m c b s
  | .canTxCancel m c b => Sys2Proof.Machine.execCanTxCancel m c b s
  | .canArbitration c won ecc => Sys2Proof.Machine.execCanArbitration c won ecc s
  | .canTxComplete c ts tdcv => Sys2Proof.Machine.execCanTxComplete c ts tdcv s
  | .canError c kind add => Sys2Proof.Machine.execCanError c kind add s
  | .canRecover m c => Sys2Proof.Machine.execCanRecover m c s
  | .canAutoRecovery c => Sys2Proof.Machine.execCanAutoRecovery c s
  | .canRecoveryComplete c => Sys2Proof.Machine.execCanRecoveryComplete c s
  | .canIntegrationComplete c => Sys2Proof.Machine.execCanIntegrationComplete c s
  | .canOutOfService m c => Sys2Proof.Machine.execCanOutOfService m c s
  | .canInService m c => Sys2Proof.Machine.execCanInService m c s
  | .canExchangePoll c => Sys2Proof.Machine.execCanExchangePoll c s
  | .canRingCopy c what ecc => Sys2Proof.Machine.execCanRingCopy c what ecc s
  | .canRxfAck m c f i0 => Sys2Proof.Machine.execCanRxfAck m c f i0 s
  | .canEvfAck m c i0 => Sys2Proof.Machine.execCanEvfAck m c i0 s
  | .canHpAck m c ack => Sys2Proof.Machine.execCanHpAck m c ack s
  | .canRamWrite m c j v => Sys2Proof.Machine.execCanRamWrite m c j v s
  | .loopCoefficientWrite m c v => Sys2Proof.Machine.execLoopCoefficientWrite m c v s
  | .imageReplace m k page => Sys2Proof.Machine.execImageReplace m k page s
  | .imageVerify ecc => Sys2Proof.Machine.execImageVerify ecc s
  | .imageReplaceAct => Sys2Proof.Machine.execImageReplaceAct s
  | .eccReread m off e => Sys2Proof.Machine.execEccReread m off e s
  | .atomAdd m => Sys2Proof.Machine.execAtomAdd m s
  | .atomSwap m => Sys2Proof.Machine.execAtomSwap m s
  | .bankOn src m => Sys2Proof.Machine.execBankOn src m s
  | .bankRet src m => Sys2Proof.Machine.execBankRet src m s
  | .bankOff src m => Sys2Proof.Machine.execBankOff src m s
  | .bankOos src m => Sys2Proof.Machine.execBankOos src m s
  | .bankPowerDone => Sys2Proof.Machine.execBankPowerDone s
  | .pllLockLoss n => Sys2Proof.Machine.execPllLockLoss n s
  | .pllLockTimeout n => Sys2Proof.Machine.execPllLockTimeout n s
  | .lseLoss => Sys2Proof.Machine.execLseLoss s
  | .hseLoss => Sys2Proof.Machine.execHseLoss s
  | .secondsTick => Sys2Proof.Machine.execSecondsTick s
  | .pwrDoze m => Sys2Proof.Machine.execPwrDoze m s
  | .pwrSleep m => Sys2Proof.Machine.execPwrSleep m s
  | .pwrHibernate m => Sys2Proof.Machine.execPwrHibernate m s
  | .pwrWake m => Sys2Proof.Machine.execPwrWake m s
  | .wakeSource srcs => Sys2Proof.Machine.execWakeSource srcs s
  | .btRequest => Sys2Proof.Machine.execBtRequest s
  | .rowTest => Sys2Proof.Machine.execRowTest s
  | .rowTestDone failed => Sys2Proof.Machine.execRowTestDone failed s
  | .btAbort => Sys2Proof.Machine.execBtAbort s
  | .btRow src m row => Sys2Proof.Machine.execBtRow src m row s
  | .btFull src m => Sys2Proof.Machine.execBtFull src m s
  | .wdgKick m key => Sys2Proof.Machine.execWdgKick m key s
  | .wdgWarn => Sys2Proof.Machine.execWdgWarn s
  | .wdgExpiry => Sys2Proof.Machine.execWdgExpiry s
  | .fatalAutoReset => Sys2Proof.Machine.execFatalAutoReset s
  | .undervolt => Sys2Proof.Machine.execUndervolt s
  | .overtemp temp => Sys2Proof.Machine.execOvertemp temp s
  | .tphFreeze m => Sys2Proof.Machine.execTphFreeze m s
  | .tphClear m => Sys2Proof.Machine.execTphClear m s
  | .tphClearDone => Sys2Proof.Machine.execTphClearDone s
  | .tphRelease m => Sys2Proof.Machine.execTphRelease m s
  | .tephraEntryWrite => Sys2Proof.Machine.execTephraEntryWrite s
  | .tphWindowRead m w ecc => Sys2Proof.Machine.execTphWindowRead m w ecc s
  | .mainRailLoss => Sys2Proof.Machine.execMainRailLoss s
  | .powerUpReset first => Sys2Proof.Machine.execPowerUpReset first s
  | .resetNAssert => Sys2Proof.Machine.execResetNAssert s
  | .glbReset m key => Sys2Proof.Machine.execGlbReset m key s
  | .perstN => Sys2Proof.Machine.execPerstN s
  | .hseStartupTimeout => Sys2Proof.Machine.execHseStartupTimeout s
  | .initComplete lse => Sys2Proof.Machine.execInitComplete lse s
  | .directoryLoad d => Sys2Proof.Machine.execDirectoryLoad d s
  | .containerLoad d ecc => Sys2Proof.Machine.execContainerLoad d ecc s
  | .setupWrites us => Sys2Proof.Machine.execSetupWrites us s
  | .bootKeys m page => Sys2Proof.Machine.execBootKeys m page s
  | .bootRun m us => Sys2Proof.Machine.execBootRun m us s
  | .bootFlash m => Sys2Proof.Machine.execBootFlash m s
  | .fuseProgram m slot key => Sys2Proof.Machine.execFuseProgram m slot key s
  | .fuseRevoke m slot key => Sys2Proof.Machine.execFuseRevoke m slot key s
  | .fuseOpDone => Sys2Proof.Machine.execFuseOpDone s
  | .resetRelease mode role fast => Sys2Proof.Machine.execResetRelease mode role fast s
  | .pllLock n => Sys2Proof.Machine.execPllLock n s
  | .launchTimeReached target lead => Sys2Proof.Machine.execLaunchTimeReached target lead s
  | .creditRecovered p cls => Sys2Proof.Machine.execCreditRecovered p cls s
  | .hbOutToggle => Sys2Proof.Machine.execHbOutToggle s
  | .powerEntryComplete => Sys2Proof.Machine.execPowerEntryComplete s
  | .mainRailReturn => Sys2Proof.Machine.execMainRailReturn s
  | .lseReturn => Sys2Proof.Machine.execLseReturn s

end Sys2Proof.Machine
end

