-- ==== Sys2Proof/Machine/Idle.lean ====
section
/-!
DEFINITION. What a step does on an empty queue: one edge of the 250 MHz time base clock passes (log entry 52). The time bases, the Geyser
bus timer, the credits of shaped classes and the clocks of running cores advance by 4 ns; no command is served.
-/
namespace Sys2Proof.Machine
open Sys2Proof

/-! ### Credits (R115, Table 03-5) -/

/-- What a slope of `r` kb/s adds to a credit in 4 ns, in 2^-16 byte, rounded down. -/
def slope4 (r : Int) : Int := r * 4096 / 125000

/-- A frame of class `c` is on the wire of an output, its inter-packet gap included. -/
def OutPort.onWire (o : OutPort) (c : Nat) : Bool :=
  (match o.cur with | some x => x.cls == c | none => false) || (o.cur.isNone && o.gap && o.lastCls == c)

/-- The credit of class `c` of output `p` after 4 ns: open gate, frame on the wire, queue empty or not, idle slope and port rate in
kb/s, and the bounds in bytes (DEDUCED, log entry 186). -/
def creditStep (k : Int) (isOpen wire empty : Bool) (idle rate lo hi : Nat) : Int :=
  let i : Int := Int.ofNat idle
  let k1 :=
    if !isOpen then k
    else if wire then k + slope4 (i - Int.ofNat rate)
    else if !empty then k + slope4 i
    else if k < 0 then min 0 (k + slope4 i)
    else 0
  let k2 := max (-(Int.ofNat lo) * 65536) (min (Int.ofNat hi * 65536) k1)
  if rate ≤ idle then max 0 k2 else k2

/-- The credit of class `n` of output `p` after 4 ns. -/
def State.creditAfter (s : State) (p n : Nat) (o : OutPort) : Int :=
  let idle := s.rf Fx.CFL_OQ_SLOPE_IDLE p n
  let lo := s.rf Fx.CFL_OQ_CRED_LO p n
  let hi := s.rf Fx.CFL_OQ_CRED_HI p n
  if s.rb Fx.CFL_OQ_CFG_CBS_EN p n then
    creditStep (vget 0 o.credit n) (s.gateOpen p n) (o.onWire n) (o.queue n).isEmpty idle (s.portRate p) lo hi
  else 0

/-- The credits of an output (DEDUCED, log entry 186). -/
def State.creditEdge (s : State) (p : Nat) : State :=
  s.outUpd p fun o => { o with credit := Vector.ofFn fun (c : Fin 8) => s.creditAfter p c.val o }

/-! ### Core clocks -/

/-- 4 ns of the 800 MHz core clock: 3.2 core clocks, counted in fifths. TIMER stops at 1: its last count is CORE_TIMER_EXPIRY
(DEDUCED, log entry 187). -/
def Ctx.clockEdge (c : Ctx) : Ctx :=
  let n := (c.clk5 + 16) / 5 - c.clk5 / 5
  { c with clk5 := (c.clk5 + 16) % (5 * 2 ^ 64), timer := if c.timer = 0 then 0 else max 1 (c.timer - n) }

/-- The clock of a cluster runs: it is RUNNING and its core is not gated by WAIT. -/
def Clu.clocked (c : Clu) : Bool :=
  c.st == 1 && (match c.ctx.wait with | some .wait => false | _ => true)

/-- The clocks of the running clusters (DESIGN CHOICE, log entry 115). -/
def State.coreEdge (s : State) : State :=
  if s.pll pllCore && s.pwr.state == 0 then
    { s with clu := s.clu.map fun c => if c.clocked then { c with ctx := c.ctx.clockEdge } else c }
  else s

/-! ### The edge -/

/-- One edge, while PLL_TB is locked and no power state has stopped the clock (R208, R209, R503) (DESIGN CHOICE, log entry 52). -/
def State.clockEdge (s : State) : State :=
  if s.pll pllTb && decide (s.pwr.state ≤ 2) then
    let s1 := s.tbEdge.gysEdge
    let s2 := if s1.swOn then (List.range 17).foldl State.creditEdge s1 else s1
    s2.coreEdge
  else s

end Sys2Proof.Machine
end

