-- ==== Sys2Proof/Machine/Step.lean ====
section
/-!
DEFINITION. One step: the command at the front of the queue, or on an empty queue one edge of the time base clock (log entry 1, log
entry 52).
-/
namespace Sys2Proof.Machine
open Sys2Proof

/-- The state with the command that a word spells at the front of its queue; unchanged where the word spells none
(DESIGN CHOICE, log entry 7). -/
def State.withFetchWord (s : State) (nbits w : Nat) : State :=
  match decodeTableWord nbits w with
  | some c => { s with pending := c :: s.pending }
  | none => s

/-- One step (DESIGN CHOICE, log entries 1 and 52 and 101). -/
def step (s : State) : Host.Outcome State Fault Refusal :=
  match s.pending with
  | [] => .next s.clockEdge
  | c :: rest => exec c { s with pending := rest }

end Sys2Proof.Machine
end

