-- ==== Sys2Proof/WellFormed.lean ====
section
/-!
DEFINITION. Which commands are well formed: the bounds on operands that their types do not give. The meanings are total, so an
ill-formed command has one too; it names nothing that the spec describes.
-/
namespace Sys2Proof

/-- R10: the widths of a bus access in bytes. -/
def widthOk (w : Nat) : Bool := w == 1 || w == 2 || w == 4 || w == 8

/-- There are 32 rings of descriptors of a kind, and 16 event rings (Table 02-1). -/
def ringOk (k : RingKind) (n : Fin 32) : Bool :=
  match k with
  | .ev => decide (n.val < 16)
  | _ => true

/-- Descriptors have 32 bytes (R43). -/
def descsOk (ds : List (List Byte)) : Bool := ds.all fun d => d.length == 32

/-- A stamp in 1/256 ns lies within the 48-bit seconds count (R206). -/
def stampOk (ts : Nat) : Bool := decide (ts < 2 ^ 48 * 1000000000 * 256)

/-- A CAN message: a base identifier in bits 28:18, remote frames in classic CAN only, at most 8 or 64 data bytes. -/
def canMsgOk (m : CanMsg) : Bool :=
  (m.xtd || m.id.toNat % 2 ^ 18 == 0) && !(m.rtr && m.fdf) && decide (m.data.length ≤ if m.fdf then 64 else 8)

/-- The byte offset of an uncorrectable error in the memory of a loop is that of a whole word; slots are bounded by their type. -/
def loopEccOk (l : List (Fin 64 × BitVec 16)) : Bool := l.all fun p => p.2.toNat % 4 == 0

/-- The command is well formed. Every command not named has its operands bounded by their types. -/
def Instr.wf : Instr → Bool
  | .registerWrite _ _ width _ => widthOk width
  | .rcCounterRead _ _ width => widthOk width
  | .bar2Access _ _ width _ => widthOk width
  | .pollCompletion words => words.length == 80
  | .descriptorFetchDone _ descs => descsOk descs
  | .rxFrameDelivery descs => descsOk descs
  | .shadowUpdate k n => ringOk k n
  | .ringHaltCmd _ k n => ringOk k n
  | .ringReset _ k n => ringOk k n
  | .ringResume _ k n => ringOk k n
  | .ingressAdmission _ hdr ts => hdr.length == 64 && stampOk ts
  | .frameTransmitEnd _ _ _ ts => stampOk ts
  | .rillShift _ samples => samples.length ≤ 32
  | .canFrameReceive _ _ m ts => canMsgOk m && stampOk ts
  | .loopPass _ _ ecc => loopEccOk ecc
  | .enterActive _ _ ecc => loopEccOk ecc
  | _ => true

end Sys2Proof
end

