-- ==== Sys2Proof/Safety.lean ====
section
/-!
DEFINITION. What the claims are stated in: when a command does what it names, the tables of the spec in Lean's own operations, and the
invariant of the machine.
-/
namespace Sys2Proof.Safety
open Sys2Proof Sys2Proof.Machine

/-! ### Registers -/

/-- The sparse register map is in its canonical order: offsets strictly rising. -/
def regsRising (s : State) : Prop := (s.regs.map Prod.fst).Pairwise (· < ·)

/-- A BAR0 offset is the word of register `r` with indices `i` and `j`, which the device has and which is accessible now. -/
def regHere (s : State) (off : Nat) (r : RegId) (i j : Nat) : Prop :=
  busPlace off = .reg ∧ regAt off = some (r, i, j) ∧ s.regDead r i j = false

/-- The word of a captured reject (GLB_REJ_ADDR). -/
def rejWord (m : Master) (c : RejCause) (off : Nat) : Word :=
  BitVec.ofNat 32 (2 ^ 31 + c.code * 2 ^ 27 + b2n (m == .qspi) * 2 ^ 26 + off % 2 ^ 26)

/-- Only the registers, the counters among them, have changed. -/
def onlyRegs (s t : State) : Prop := t = { s with regs := t.regs }

/-- The field reads as the count plus 1, saturating. -/
def counted (s t : State) (x : FRef) (i : Nat := 0) : Prop :=
  t.rf x i = min (s.rf x i + 1) (2 ^ (x.hi + 1 - x.lo) - 1)

/-! ### Host path -/

/-- HST_CMD, CTL and other commands of the host path are accessible: no fatal fault. -/
def live (s : State) : Prop := s.tph.fatal = false

/-! ### The invariant -/

/-- What every step keeps: the register map and the pool in their canonical form, the token FIFO, the Tephra queue and the list of suspect
rows within their lengths (R512, R528, R487). -/
def MachInv (s : State) : Prop :=
  regsRising s ∧ Memory.wf s.pool = true ∧ s.tok.fifo.length ≤ 8 ∧ s.tph.queue.length ≤ 16 ∧ s.mem.suspects.length ≤ 16

/-! ### Pool batches -/

/-- The order in which a batch serves the places (R32): mirror engine, host, loop engine, C0 to C15. -/
def placeRank : PoolPlace → Nat
  | .mirror => 0
  | .host _ => 1
  | .loop => 2
  | .core n _ => 3 + n.val

/-- Polls and fetches of the host ring manager can be made (R41, R87): it is enabled, is a bus master, is neither quiesced nor quiescing. -/
def hostPolls (s : State) : Prop :=
  s.rb Fx.HST_CTL_EN = true ∧ s.pcie.linkUp = true ∧ s.pcie.bme = true ∧ s.hst.quiesced = false ∧ s.hst.quiescing = false ∧ s.hst.dmaOff = false ∧
    s.tph.fatal = false

/-- A single posted descriptor that is a whole chain: FIRST and LAST. -/
def oneDesc (d : List Byte) : Prop := d.length = 32 ∧ dFirst d = true ∧ dLast d = true

/-- The status with which Table 02-4 completes a chain of one descriptor, `none` where its buffer is read (R61). -/
def oneDescStatus (s : State) (d : List Byte) : Option Nat :=
  let reserved := byteAt d 10 / 64 ≠ 0 ∨ byteAt d 11 / 128 = 1 ∨ byteAt d 11 / 8 % 2 = 1 ∨ descLe d 12 4 / 2 ^ 17 % 2 ^ 14 ≠ 0
  let ports := if dSwitch d then [14] else (List.range 17).filter fun p => (dMask d).testBit p
  if reserved ∨ dLen d = 0 ∨ 9216 < dLen d ∨ (dSwitch d = true ∧ dMask d ≠ 0) ∨ (dSwitch d = false ∧ dMask d = 0)
      ∨ (dMask d).testBit 14 = true then some 0x01
  else if ∃ p ∈ ports, s.variant.hasPort p = false then some 0x02
  else if dLen d < 14 then some 0x01
  else if ∃ p ∈ ports, s.maxLen p true < dLen d + 4 then some 0x03
  else if dLaunch d = true ∧ s.tbOos (dLtb d) = true then some 0x0B
  else none

/-- The host write-backs of a descriptor: the bytes before byte 31, then byte 31 (R54). -/
def writeBacks (base idx from_ : Nat) (body : List Byte) (b31 : Nat) : List Output :=
  [.hostWrite (base + 32 * idx + from_) body, .hostWrite (base + 32 * idx + 31) [BitVec.ofNat 8 b31]]

/-! ### Switch -/

/-- The key of the database access registers: MAC and FID (Table 03-9). -/
def keyMac (s : State) : Nat := (s.rg .CFL_FDB_KEY_HI).toNat % 65536 * 2 ^ 32 + (s.rg .CFL_FDB_KEY_LO).toNat
def keyFid (s : State) : Nat := (s.rg .CFL_FDB_KEY_HI).toNat / 65536 % 4096

/-- The bucket of a key (R108): the XOR of the four 12-bit chunks of the address and the FID. -/
def bucketOf (mac fid : Nat) : Nat :=
  [mac / 2 ^ 36, mac / 2 ^ 24, mac / 2 ^ 12, mac, fid].foldl (fun x y => Nat.xor x (y % 4096)) 0

/-- Way `w` of the bucket of a key holds an entry. -/
def wayOf (s : State) (mac fid : Nat) (w : Fin 4) : Option FdbEntry := sfind (4 * bucketOf mac fid + w.val) s.cfl.fdb

/-- An entry is that of a key. -/
def isKey (mac fid : Nat) (e : Option FdbEntry) : Prop := ∃ x, e = some x ∧ x.mac = mac ∧ x.fid = fid

/-- A database operation is under way, with its result and index. -/
def fdbDone (s : State) (fdb : List (Nat × FdbEntry)) (result index : Nat) : State :=
  { s with cfl := { s.cfl with fdb := fdb, fdbBusy := true, fdbOp := result, fdbIndex := index } }

/-- The VID, PCP and acceptance of a frame received on port `p` (R102, R103). -/
def frameVid (s : State) (p : Nat) (d : List Byte) : Nat :=
  if be16 d 12 = 0x8100 ∧ be16 d 14 % 4096 ≠ 0 then be16 d 14 % 4096 else s.rf Fx.CFL_PORT_VLAN_PVID p
def framePcp (s : State) (p : Nat) (d : List Byte) : Nat :=
  if be16 d 12 = 0x8100 then be16 d 14 / 8192 else s.rf Fx.CFL_PORT_CFG_DEF_PCP p
def vlanRefuses (s : State) (p : Nat) (d : List Byte) : Prop :=
  let vid := frameVid s p d
  let carriesVid := be16 d 12 = 0x8100 ∧ be16 d 14 % 4096 ≠ 0
  (s.rf Fx.CFL_PORT_VLAN_ACCEPT p = 1 ∧ ¬ carriesVid) ∨ (s.rf Fx.CFL_PORT_VLAN_ACCEPT p = 2 ∧ carriesVid) ∨ vid = 0xFFF ∨
    match s.vlanOf vid with
    | none => True
    | some v => s.rb Fx.CFL_PORT_VLAN_IN_FILT p = true ∧ v.member.testBit p = false

/-- The class of a frame received on port `p` (R105). -/
def frameClass (s : State) (p : Nat) (d : List Byte) : Nat :=
  let pcp := if s.rb Fx.CFL_PORT_CFG_TRUST p then framePcp s p d else s.rf Fx.CFL_PORT_CFG_DEF_PCP p
  (s.rg .CFL_PCP_MAP p).toNat / 2 ^ (3 * pcp) % 8

/-- Output `q` is a target of a frame from `p` by lookup and filtering (step 7, R109), for the VLAN entry `v` of its VID. -/
def isTarget (s : State) (p q : Nat) (v : VlanEntry) (dst : Nat) : Prop :=
  q ≠ p ∧ s.variant.hasPort q = true ∧ v.member.testBit q = true ∧ s.rf Fx.CFL_PORT_CFG_STATE q = 2 ∧ ¬ (q = 1 ∧ s.p1IsPairLink = true) ∧
    match s.fdbFind dst v.fid with
    | some (_, e) => e.ports.testBit q = true
    | none => dst = 0xFFFFFFFFFFFF ∨ (dst / 2 ^ 40 % 2 = 1 ∧ s.rb Fx.CFL_PORT_CFG_MFLOOD q = true) ∨
        (dst / 2 ^ 40 % 2 = 0 ∧ s.rb Fx.CFL_PORT_CFG_UFLOOD q = true)

/-- No redundancy instance is on. -/
def noRed (s : State) : Prop := s.rf Fx.CFL_RED_CFG_MODE 0 = 0 ∧ s.rf Fx.CFL_RED_CFG_MODE 1 = 0

/-- A counter with two indices reads as the count plus 1, saturating. -/
def counted2 (s t : State) (x : FRef) (i j : Nat) : Prop := t.rf x i j = min (s.rf x i j + 1) (2 ^ (x.hi + 1 - x.lo) - 1)

/-- A frame arrives on port `p` and reaches the switch. -/
def arrives (s : State) (p : Nat) (d : List Byte) : Prop :=
  s.rxOpen p = true ∧ 64 ≤ d.length + 4 ∧ be16 d 12 ≠ 0x8808 ∧ s.filterPass p d = true

/-- Frame `f` is being received on port `p`, every target stored, none of it on a queue or a wire. -/
def receiving (s : State) (p : Nat) (f : Frame) : Prop :=
  (s.inOf p).rx = some (some f.fid) ∧ s.frameOf f.fid = some f ∧ f.inp = p ∧ f.refc = 0 ∧ f.origin = .wire ∧ f.explicit = false ∧
    f.launch = none ∧ f.red = none ∧ f.redIn = none ∧
    (∀ q : Fin 17, (s.outOf q).sending f.fid = false ∧ ∀ c : Fin 8, ∀ e ∈ (s.outOf q).queue c, e.fid ≠ f.fid)

/-- Rule `r` alone of a window is enabled in a direction, and takes effect on a frame of it (R157, R159). -/
def loneRule (s : State) (w : Fin 4) (dir : Nat) (r : Fin 32) (d : List Byte) : Prop :=
  s.rf Fx.CFL_TW_ETYPE_ETYPE w ≠ 0 ∧ be16 d 12 = s.rf Fx.CFL_TW_ETYPE_ETYPE w ∧
    (∀ q : Fin 32, q ≠ r → s.rb Fx.CFL_TW_RULE0_EN w q = false ∨ s.rf Fx.CFL_TW_RULE0_DIR w q ≠ dir) ∧
    s.rb Fx.CFL_TW_RULE0_EN w r = true ∧ s.rf Fx.CFL_TW_RULE0_DIR w r = dir ∧
    ∀ k < 32, (s.rg .CFL_TW_RULE2 w r).getLsbD k = true →
      (s.rg .CFL_TW_RULE1 w r).getLsbD k = (d.getD (s.rf Fx.CFL_TW_RULE0_MOFS w r + k / 8) 0).getLsbD (k % 8)

/-- A window enabled, with both links up and both MACs at 100 Mb/s full duplex. -/
def windowUp (s : State) (w : Fin 4) : Prop :=
  s.rb Fx.CFL_TW_CFG_EN w = true ∧ ∀ p, p = s.rf Fx.CFL_TW_CFG_PORT_A w ∨ p = s.rf Fx.CFL_TW_CFG_PORT_B w →
    s.portLink p = true ∧ s.phyOn p = true ∧ (s.macOf p).rate = 2 ∧ (s.macOf p).half = false

/-! ### Geyser bus -/

/-- A frame on the wire, from its header to its CRC (Tables 07-1 and 07-2). -/
def busFrame (kind node ch slot first cycle sched : Nat) (payload : List Byte) : List Byte :=
  let d := leBytes 1 (0x10 + kind) ++ leBytes 1 (node * 16 + ch * 8) ++ leBytes 1 slot ++ leBytes 1 first ++ leBytes 4 cycle
    ++ leBytes 2 payload.length ++ leBytes 2 sched ++ payload
  d ++ leBytes 4 (crc32c d)

/-- Channel `c` follows the node, which is in SYNC with its bus timer running. -/
def inSync (s : State) (c : Fin 2) : Prop := (s.gysChOf c).mode = 1 ∧ s.gys.node = 4 ∧ s.gys.timer = true

/-- A slot table entry: enabled, with this KIND and OWNER. -/
def slotIs (s : State) (c : Fin 2) (n : Fin 64) (kind owner : Nat) : Prop :=
  s.rb Fx.GYS_SLOT_T_EN c n = true ∧ s.rf Fx.GYS_SLOT_T_KIND c n = kind ∧ s.rf Fx.GYS_SLOT_T_OWNER c n = owner

/-- Cycle `n` carries no delay exchange on channel `c` (R248). -/
def normalCycle (s : State) (c : Fin 2) : Prop := s.rb Fx.GYS_CH_CFG_DLY_EN c = false ∨ s.gys.cyc % 256 ≠ 255

/-- The calibration words of a channel, signed, in 1/256 ns (R230). -/
def calRx (s : State) (c : Nat) : Int := (BitVec.ofNat 24 (s.rf Fx.TB_CAL_GYS_RX_DELAY c)).toInt
def calTx (s : State) (c : Nat) : Int := (BitVec.ofNat 24 (s.rf Fx.TB_CAL_GYS_TX_DELAY c)).toInt

/-- d_c in 1/256 ns: the measurement, else GYS_DLY_INIT (R268). -/
def busDelay (s : State) (c : Fin 2) : Nat := (s.gysChOf c).meas.getD (s.rf Fx.GYS_DLY_INIT_DLY)

/-! ### Redundant pair -/

/-- The pair unit runs: PAIR_CFG.EN on a device that has it, in a state other than OFF, with no fatal fault. -/
def pairRuns (s : State) : Prop :=
  s.variant.full = true ∧ s.rb Fx.PAIR_CFG_EN = true ∧ s.pair.st ≠ 4 ∧ s.tph.fatal = false ∧ regsRising s

/-- A frame of the pairing link without its FCS (R291): destination, source, EtherType, KIND, fragment header, body bytes and padding. -/
def linkFrame (src : List Byte) (seq off total : Nat) (body : List Byte) : List Byte :=
  let d := List.replicate 6 0xFF ++ src ++ [0x88, 0xB5, 0x02, 0x00] ++ leBytes 2 seq ++ leBytes 2 off ++ leBytes 2 total ++ [0, 0] ++ body
  d ++ List.replicate (60 - d.length) 0

/-! ### Ilutas words (spec/09) -/

/-- Cluster `k` executes now, its pc lies in its instruction memory, which is ON, and the word there is `w`. -/
def atWord (s : State) (k : Nat) (w : Word) : Prop :=
  s.coreRuns k = true ∧ (s.ctxOf k).pc % 4 = 0 ∧ (s.ctxOf k).pc < 0x10000 ∧ s.coreOn k = true ∧ s.word k = w

/-- The state after the fetch at the pc of cluster `k`: a good second read is counted and logged (R318). -/
def fetched (s : State) (k : Nat) (e : CoreEcc) : State :=
  if e = .fetchRetry then s.eccRetry (16 + s.physOf k) (s.ctxOf k).pc else s

/-- The fetch succeeds. -/
def fetchGood (e : CoreEcc) : Prop := e ≠ .fetchFail

/-- Neither the fetch nor the load of an instruction meets an uncorrectable error. -/
def eccGood (e : CoreEcc) : Prop := e = .clean ∨ e = .fetchRetry

/-- A row of Table 09-4: FN, the command, whether rb must be 0, and the result from ra and rb. -/
structure AluRow where
  fn : Nat
  ins : Fin 16 → CoreEcc → Instr
  unary : Bool
  f : Word → Word → Word

/-- Saturation of an exact result to −2^31 and 2^31 − 1. -/
def saturated (x : Int) : Word :=
  if x < -2147483648 then 0x80000000#32 else if 2147483647 < x then 0x7FFFFFFF#32 else BitVec.ofInt 32 x

/-- Table 09-4, each result in the operations of Lean's bit vectors. -/
def aluRows : List AluRow := [
  ⟨0x00, .add, false, fun a b => a + b⟩,
  ⟨0x01, .sub, false, fun a b => a - b⟩,
  ⟨0x02, .and, false, fun a b => a &&& b⟩,
  ⟨0x03, .or, false, fun a b => a ||| b⟩,
  ⟨0x04, .xor, false, fun a b => a ^^^ b⟩,
  ⟨0x05, .andn, false, fun a b => a &&& ~~~b⟩,
  ⟨0x06, .shl, false, fun a b => a <<< (b % 32#32)⟩,
  ⟨0x07, .shr, false, fun a b => a >>> (b % 32#32)⟩,
  ⟨0x08, .sar, false, fun a b => a.sshiftRight' (b % 32#32)⟩,
  ⟨0x09, .ror, false, fun a b => a >>> (b % 32#32) ||| a <<< (32#32 - b % 32#32)⟩,
  ⟨0x0A, .slt, false, fun a b => if a.slt b then 1#32 else 0#32⟩,
  ⟨0x0B, .sltu, false, fun a b => if a.ult b then 1#32 else 0#32⟩,
  ⟨0x0C, .min, false, fun a b => if b.slt a then b else a⟩,
  ⟨0x0D, .max, false, fun a b => if b.slt a then a else b⟩,
  ⟨0x0E, .minu, false, fun a b => if b.ult a then b else a⟩,
  ⟨0x0F, .maxu, false, fun a b => if b.ult a then a else b⟩] ++ [
  ⟨0x10, .mul, false, fun a b => (a.setWidth 64 * b.setWidth 64).extractLsb' 0 32⟩,
  ⟨0x11, .mulh, false, fun a b => (a.signExtend 64 * b.signExtend 64).extractLsb' 32 32⟩,
  ⟨0x12, .mulhu, false, fun a b => (a.setWidth 64 * b.setWidth 64).extractLsb' 32 32⟩,
  ⟨0x13, .div, false, fun a b => if b = 0#32 then 0xFFFFFFFF#32 else a.sdiv b⟩,
  ⟨0x14, .divu, false, fun a b => if b = 0#32 then 0xFFFFFFFF#32 else a.udiv b⟩,
  ⟨0x15, .rem, false, fun a b => if b = 0#32 then a else a.srem b⟩,
  ⟨0x16, .remu, false, fun a b => if b = 0#32 then a else a.umod b⟩,
  ⟨0x18, .clz, true, fun a _ => BitVec.ofNat 32 ((List.range 32).takeWhile fun i => !a.getLsbD (31 - i)).length⟩,
  ⟨0x19, .popc, true, fun a _ => BitVec.ofNat 32 ((List.range 32).filter fun i => a.getLsbD i).length⟩,
  ⟨0x1A, .rev8, true, fun a _ => a.extractLsb' 0 8 ++ a.extractLsb' 8 8 ++ a.extractLsb' 16 8 ++ a.extractLsb' 24 8⟩,
  ⟨0x1B, .sextb, true, fun a _ => (a.setWidth 8).signExtend 32⟩,
  ⟨0x1C, .sexth, true, fun a _ => (a.setWidth 16).signExtend 32⟩,
  ⟨0x20, .mulq, false, fun a b => saturated (a.toInt * b.toInt / 65536)⟩,
  ⟨0x21, .sadd, false, fun a b => saturated (a.toInt + b.toInt)⟩,
  ⟨0x22, .ssub, false, fun a b => saturated (a.toInt - b.toInt)⟩]

/-- An immediate row of Table 09-5: the major opcode, the command, the ra and immediates it defines, and the result. -/
structure ImmRow where
  maj : Nat
  ins : Fin 16 → CoreEcc → Instr
  ok : Fin 32 → BitVec 16 → Bool
  f : Word → BitVec 16 → Word

/-- Table 09-5, majors 0x01 to 0x07. -/
def immRows : List ImmRow := [
  ⟨0x01, .addi, fun _ _ => true, fun a i => a + i.signExtend 32⟩,
  ⟨0x02, .andi, fun _ _ => true, fun a i => a &&& i.setWidth 32⟩,
  ⟨0x03, .ori, fun _ _ => true, fun a i => a ||| i.setWidth 32⟩,
  ⟨0x04, .xori, fun _ _ => true, fun a i => a ^^^ i.setWidth 32⟩,
  ⟨0x05, .lih, fun ra _ => ra.val == 0, fun _ i => i ++ 0#16⟩,
  ⟨0x06, .shi, fun _ i => i.extractLsb' 5 9 == 0#9, fun a i =>
    let n := i.setWidth 32 % 32#32
    match (i.extractLsb' 14 2).toNat with
    | 0 => a <<< n
    | 1 => a >>> n
    | 2 => a.sshiftRight' n
    | _ => a >>> n ||| a <<< (32#32 - n)⟩,
  ⟨0x07, .slti, fun _ _ => true, fun a i => if a.slt (i.signExtend 32) then 1#32 else 0#32⟩]

/-- A bit field row of Table 09-5: FN, the command, and the result from rd, ra, LSB and WM1. -/
structure FieldRow where
  fn : Nat
  ins : Fin 16 → CoreEcc → Instr
  f : Word → Word → Nat → Nat → Word

/-- `n` ones. -/
def ones (n : Nat) : Word := BitVec.ofNat 32 (2 ^ n - 1)

/-- Table 09-5, major 0x11. -/
def fieldRows : List FieldRow := [
  ⟨0, .bfxu, fun _ a lsb wm1 => a >>> lsb &&& ones (wm1 + 1)⟩,
  ⟨1, .bfxs, fun _ a lsb wm1 => (a.extractLsb' lsb (wm1 + 1)).signExtend 32⟩,
  ⟨2, .bfi, fun d a lsb wm1 => d &&& ~~~(ones (wm1 + 1) <<< lsb) ||| (a &&& ones (wm1 + 1)) <<< lsb⟩,
  ⟨3, .bfclr, fun _ a lsb wm1 => a &&& ~~~(ones (wm1 + 1) <<< lsb)⟩]

/-- One bit of a reflected algorithm (R323). -/
def crcShift (poly c : Word) : Word := if c.getLsbD 0 then (c >>> 1) ^^^ poly else c >>> 1

/-- One byte of a reflected algorithm. -/
def crcStep (poly c : Word) (b : Byte) : Word := Nat.repeat (crcShift poly) 8 (c ^^^ b.setWidth 32)

/-- Table 09-6: algorithm 0 to 5 over bytes. -/
def crcTable (alg : Nat) (c : Word) (bs : List Byte) : Word :=
  match alg with
  | 0 => bs.foldl (crcStep 0xEDB88320#32) c
  | 1 => bs.foldl (crcStep 0x82F63B78#32) c
  | 2 => bs.foldl (crcStep 0xA001#32) (c &&& 0xFFFF#32)
  | 3 => bs.foldl (crcStep 0x8408#32) (c &&& 0xFFFF#32)
  | 4 => bs.foldl (fun c b => c ^^^ b.setWidth 32) (c &&& 0xFF#32)
  | _ => bs.foldl (fun c b => (c + b.setWidth 32) &&& 0xFF#32) (c &&& 0xFF#32)

/-- The low 1, 2 or 4 bytes of a word, least significant first. -/
def lowBytes (n : Nat) (a : Word) : List Byte := (List.range n).map fun i => a.extractLsb' (8 * i) 8

/-- The bytes that a load of `n` bytes at `a` may read without a trap or a lock: aligned, in the instruction memory, the data memory or
the pool below the lock range, and the memory is ON (Table 09-2, R315, R369). -/
def loadable (s : State) (k a n : Nat) : Bool :=
  a % n == 0 &&
    (decide (a < 0x20000) && s.coreOn k
      || decide (0x100000 ≤ a) && decide (a < 0x100000 + lockBase) && s.bankSt (poolBank (a - 0x100000)) == 0)

/-- The bytes that a store may write without a trap or a lock. -/
def storable (s : State) (k a n : Nat) : Bool := loadable s k a n && decide (0x10000 ≤ a)

/-- The value of a load from its bytes: zero-extended or sign-extended. -/
def loaded (signed : Bool) (bs : List Byte) : Word :=
  if signed then (BitVec.ofNat (8 * bs.length) (leNat bs)).signExtend 32 else BitVec.ofNat 32 (leNat bs)

/-- A load row of Table 09-5: the major opcode or KIND, the command, the size and whether it sign-extends. -/
structure MemRow where
  sel : Nat
  ins : Fin 16 → CoreEcc → Instr
  size : Nat
  signed : Bool

def loadRows : List MemRow :=
  [⟨0x08, .lw, 4, false⟩, ⟨0x09, .lh, 2, true⟩, ⟨0x0A, .lhu, 2, false⟩, ⟨0x0B, .lb, 1, true⟩, ⟨0x0C, .lbu, 1, false⟩]
def storeRows : List MemRow := [⟨0x0D, .sw, 4, false⟩, ⟨0x0E, .sh, 2, false⟩, ⟨0x0F, .sb, 1, false⟩]
def loadPRows : List MemRow := [⟨0, .lwp, 4, false⟩, ⟨1, .lhup, 2, false⟩, ⟨2, .lbup, 1, false⟩]
def storePRows : List MemRow := [⟨3, .swp, 4, false⟩, ⟨4, .shp, 2, false⟩, ⟨5, .sbp, 1, false⟩]

/-- Every command of an Ilutas instruction. -/
def coreInstrs : List (Fin 16 → CoreEcc → Instr) :=
  aluRows.map AluRow.ins ++ immRows.map ImmRow.ins ++ fieldRows.map FieldRow.ins
    ++ loadRows.map MemRow.ins ++ storeRows.map MemRow.ins ++ loadPRows.map MemRow.ins ++ storePRows.map MemRow.ins
    ++ [.crc, .crcm, .aadd, .aswp, .mbsend, .mbtake, .mback, .mbackr, .mbstat, .tbrd, .tbstep, .tbslew, .tbrate, .tbwait]
    ++ [.rfpush, .rfpop, .rflvl, .fqtx, .fqrx, .fqfree, .fqlvl, .crd, .cwr, .cset, .cclr, .nop, .fence, .wait, .ecall, .break]
    ++ [.reti, .ei, .di, .bcc, .bcci, .j, .call, .jr, .callr, .ret, .loop, .loopi, .rep, .repi]

/-! ### Engine run time -/

/-- The cluster's locks are free and the others as before (R372). -/
def locksFreed (s t : State) (k : Nat) : Prop :=
  ∀ n : Fin 64, t.lckOf n = (if s.lckOf n = 2 ^ 31 + k then 0 else s.lckOf n)

/-- A cluster runs from vector 0 with its registers as at core start; the memories and the mailboxes are as before. -/
def freshRun (s t : State) (k : Nat) : Prop :=
  (t.cluOf k).st = 1 ∧ (t.cluOf k).ctx = Ctx.reset ∧ (t.cluOf k).phys = (s.cluOf k).phys ∧ t.core = s.core ∧ t.mbx = s.mbx ∧ t.pool = s.pool

/-- A request for a frame of `len` bytes at `addr`, to port `q` alone, class `tc`, with no launch time (Table 10-2). -/
def frameRequest (addr len q tc tag : Nat) (wb : List Byte) : List Byte :=
  leBytes 4 addr ++ leBytes 2 len ++ leBytes 1 0 ++ leBytes 1 tc ++ leBytes 4 (2 ^ q) ++ leBytes 4 0 ++ leBytes 4 tag ++ leBytes 4 0 ++ wb

/-! ### Rill engines -/

/-- An instruction word of Table 11-1: OP, CL, STRETCH and the operand bits 21:0. -/
def rillIns (op cl st : Fin 16) (x : Nat) : Word := BitVec.ofNat 32 (op.val * 2 ^ 28 + cl.val % 4 * 2 ^ 26 + st.val * 2 ^ 22 + x)

/-- Engine `e` is RUNNING at a tick, not inside an instruction, on the word `w`, whose slots are set up for what it does (R390). -/
def rillAt (s : State) (e : Fin 48) (w : Word) : Prop :=
  e.val < s.variant.engines ∧ s.pll pllRill = true ∧ (s.rilOf e).st = 1 ∧ (s.rilOf e).waiting = false ∧
    s.rg .RIL_PROG e (s.rilOf e).pc = w ∧ s.rillForbid e w = false

/-- Slot S3 after the control-line action CL (R386). -/
def clDone (cl : Fin 16) (r : Ril) : Ril :=
  { r with slots := vupd r.slots 3 fun x =>
      { x with level := match cl.val % 4 with | 1 => false | 2 => true | 3 => !x.level | _ => x.level } }

/-- The engine goes on at `pc` after `n` ticks: the divider's accumulator has added FRAC at each of them (R385). -/
def ranTo (s : State) (e : Fin 48) (n pc : Nat) (r : Ril) : Ril :=
  { r with acc := (r.acc + s.rf Fx.RIL_DIV_FRAC e * n) % 256, pc := pc % 32, waiting := false }

/-- Engine `e` becomes `r` but for the stamp of a compare event; nothing else changes but RIL_STS. -/
def rilIs (s t : State) (e : Fin 48) (r : Ril) : Prop :=
  t = { s with regs := t.regs, ril := t.ril } ∧
    t.rilOf e = { r with tsNs := (t.rilOf e).tsNs, tsFrac := (t.rilOf e).tsFrac, tsValid := (t.rilOf e).tsValid } ∧
    ∀ i : Fin 48, i ≠ e → t.rilOf i = s.rilOf i

/-- The bits of a SHIFT IN enter SR. -/
def shiftIn (right : Bool) (sr : Word) (bs : List Bool) : Word :=
  bs.foldl (fun v b => if right then v >>> 1 ||| (if b then 0x80000000#32 else 0#32) else v <<< 1 ||| (if b then 1#32 else 0#32)) sr

/-! ### CAN FD -/

/-- Controller `c` takes part in its bus: clocked, not OFF, not silent, nothing waiting for the end of a frame; its message RAM and the
register map are in their canonical form. -/
def canUp (s : State) (c : Fin 4) : Prop :=
  s.canClk = true ∧ s.pwr.state = 0 ∧ ((s.canOf c).st = 2 ∨ (s.canOf c).st = 3) ∧ s.rb Fx.CAN_CFG_LISTEN c = false ∧
    (s.canOf c).forced = false ∧ (s.canOf c).forceDue = false ∧ (s.canOf c).relDue = false ∧ (s.canOf c).oosDue = false ∧
    scanon (0#32) 0 (s.canOf c).ram = true ∧ regsRising s

/-- Words 0 to 3 of a receive element with a valid stamp `t` in 1/256 ns (Table 12-5). -/
def rxHead (m : CanMsg) (filt : BitVec 7) (noHit coll fifo1 : Bool) (tb : BitVec 3) (t : Nat) : List Word :=
  [BitVec.ofBool m.xtd ++ BitVec.ofBool m.rtr ++ BitVec.ofBool m.esi ++ m.id,
   BitVec.ofBool m.fdf ++ BitVec.ofBool m.brs ++ BitVec.ofBool noHit ++ BitVec.ofBool coll ++ BitVec.ofBool fifo1 ++ tb ++ 1#1 ++ filt ++
     0#12 ++ m.dlc,
   BitVec.ofNat 32 (t / 256), BitVec.ofNat 32 (t % 256)]

/-- The data bytes of a frame (R409). -/
def canBytes (m : CanMsg) : Nat :=
  let d := m.dlc.toNat
  if m.rtr then 0 else if d ≤ 8 then d else if m.fdf then [12, 16, 20, 24, 32, 48, 64].getD (d - 9) 0 else 8

/-- The event element of buffer `b` lies behind the others in the event FIFO: its first two words, and the buffer number (Table 12-6). -/
def eventPut (s t : State) (c : Fin 4) (b : Fin 32) (w : List Word) (result : BitVec 3) (status : BitVec 8) (late : Bool) : Prop :=
  let f := (s.canOf c).ev
  let at_ := 768 + 4 * ((f.get + f.fill) % 32)
  let x := t.canOf c
  x.ev = ⟨f.get, f.fill + 1⟩ ∧ x.word at_ = w.getD 0 0 ∧ (x.word (at_ + 1)).getLsbD 29 = late ∧
    (x.word (at_ + 1)).extractLsb' 26 3 = result ∧ (x.word (at_ + 1)).extractLsb' 8 12 = (w.getD 1 0).extractLsb' 8 12 ∧
    (x.word (at_ + 1)).extractLsb' 0 8 = status ∧ (x.word (at_ + 3)).extractLsb' 27 5 = BitVec.ofNat 5 b

/-- A buffer pending without a launch time. -/
def plainBuf (b : Nat) (w : List Word) : CanBuf := ⟨b, w, none, true, false, false⟩

/-- Words of a transmit buffer that R420 admits: a frame without a launch time, in one or in repeated attempts. -/
def plainWords (s : State) (c : Fin 4) (w : List Word) (oneshot : Bool) : Prop :=
  canBufBad (s.rb Fx.CAN_CFG_FDOE c) w = false ∧ (w.getD 1 0).getLsbD 28 = false ∧ (w.getD 1 0).getLsbD 29 = oneshot

/-! ### Loop engine -/

/-- A pass can begin now (R446), its command word is off, and slot `n` alone is not OFF. -/
def loneSlot (s : State) (n : Fin 64) : Prop :=
  s.cycleOn = true ∧ s.loopEnabled = true ∧ s.rb Fx.PAIR_CFG_EN = false ∧ s.lp.running = false ∧ s.cyc.loopDone = false ∧
    s.rb Fx.LOOP_PCMD_EN = false ∧ n.val < s.variant.slots ∧
    ∀ m : Fin 64, m ≠ n → s.rf Fx.LOOP_MODE_MODE m = 0 ∧ (s.slotOf m).mPrev = 0 ∧ (s.slotOf m).first = true

/-- The sample of slot `n` is due in this cycle (R446). -/
def slotDue (s : State) (n : Fin 64) : Prop :=
  (s.cyc.tick + 65536 - s.rf Fx.LOOP_SCFG_PHASE n) % 2 ^ s.rf Fx.LOOP_SCFG_DIVL n = 0

/-- The output word of Table 13-1. -/
def outWord (seq cycle mode : Nat) (stale bump hi lo : Bool) (u : Int) : List Byte :=
  leBytes 4 (enc32 u) ++ leBytes 4 (seq * 2 ^ 24 + cycle % 65536 * 2 ^ 8 + mode * 2 ^ 6 + b2n stale * 2 ^ 5 + b2n bump * 2 ^ 4 + b2n hi * 8
    + b2n lo * 4)

/-- A value of signed Q16.16. -/
def fits32 (z : Int) : Prop := -2 ^ 31 ≤ z ∧ z < 2 ^ 31

/-! ### Profile images and start-up -/

/-- The bytes of the container at a pool offset, as many as its TOTAL and the pool allow; a bank that is not ON reads 0. -/
def containerAt (s : State) (a : Nat) : List Byte :=
  let byte := fun (b : Nat) => if s.bankSt (b / 131072) = 0 then sget 0#8 b s.pool else 0#8
  (List.range (min (0x200000 - a) (leNat ((List.range 4).map fun i => byte (a + 8 + i))))).map fun i => byte (a + i)

/-- The first check of R474 fails: MAGIC, FMT, TOTAL, for a container in a storage of `avail` bytes. -/
def firstCheckFails (avail : Nat) (d : List Byte) : Prop :=
  leAt d 0 4 ≠ 0x4C585049 ∨ leAt d 4 2 ≠ 1 ∨ leAt d 8 4 < 4096 ∨ 196608 < leAt d 8 4 ∨ avail < leAt d 8 4

/-- Section `x` gives byte `a` of the instruction memory, or of the data memory. -/
def covers (data : Bool) (a : Nat) (x : Sect) : Bool :=
  (if data then x.ty == 2 || x.ty == 3 else x.ty == 1) && decide (x.target ≤ a) && decide (a < x.target + x.len)

/-- Byte `a` of a core memory as the sections of a container give it: of the last one that covers it, 0 where none does (R473, R476). -/
def imageByte (d : List Byte) (data : Bool) (a : Nat) : Byte :=
  match (sectsOf d).reverse.find? (covers data a) with
  | none => 0
  | some x => if x.ty = 3 then 0 else d.getD (x.off + (a - x.target)) 0

/-- A container whose format is right and whose bytes are all there. -/
def formed (d : List Byte) : Prop := formatBad d = false ∧ 4096 ≤ leAt d 8 4 ∧ leAt d 8 4 ≤ d.length

/-- The directory entry of an image (Table 14-5). -/
def dirEntry (d : List Byte) : List Byte :=
  (d.drop 20).take 8 ++ leBytes 1 (((instsOf d).map Prod.fst).headD 0) ++ leBytes 1 (instsOf d).length ++ [0, 0] ++ (d.drop 12).take 4

/-! ### Memories, clocks and power -/

/-- Memory `m` is on the device (R484, Table 00-2). -/
def memHere (s : State) (m : Nat) : Prop :=
  m < 56 ∧ (16 ≤ m → m < 32 → m < 16 + s.variant.cores) ∧ (m = 52 → s.variant.full = true)

/-- The Tephra controller takes the event (R528), as the last of its queue. -/
def logRoom (s : State) : Prop := s.tph.frozen = false ∧ s.tph.queue.length < 16
def logged (s t : State) (code cls obj data : Nat) : Prop :=
  t.tph.queue = s.tph.queue ++ [⟨s.pwr.sec, s.tb0Ns, code, obj, cls, data⟩]

/-- The stored errors of a row in the present window of REP_WIN_S seconds (R487). -/
def storedIn (s : State) (m row : Nat) : Nat :=
  (s.mem.stored.filter fun x => x.1 == m && x.2.1 == row && decide (s.pwr.sec ≤ x.2.2 + s.rf Fx.MEM_REP_CFG_REP_WIN_S)).length

/-- A row of Table 15-1 that is not suspect becomes the last of the suspect rows, or is lost and counted where 16 wait (R487). -/
def suspected (s t : State) (m row : Nat) : Prop :=
  m < 53 → (m, row) ∉ s.mem.suspects →
    (s.mem.suspects.length < 16 → t.mem.suspects = s.mem.suspects ++ [(m, row)]) ∧
    (16 ≤ s.mem.suspects.length → t.mem.suspects = s.mem.suspects ∧ counted s t Fx.MEM_ECC_CNT_SUSPECT_LOST)

/-- The row of a byte offset (R484): 64 words of the width of the memory. -/
def rowAt (m off : Nat) : Nat := if m / 16 = 2 then off / (64 * 32) else off / (64 * 8)

/-- A memory whose bank states are more than ON (Table 15-1). -/
def hasStates (m : Nat) : Prop := m < 32 ∨ (48 ≤ m ∧ m < 52)

/-- The bytes and words of memory `m` read 0, or are as they were; those of every other memory are as they were. -/
def contents (s t : State) (m : Nat) (lost : Prop) : Prop :=
  (∀ b < 0x200000, sget 0#8 b t.pool = sget 0#8 b s.pool ∨ (b / 131072 = m ∧ lost)) ∧
  (lost → ∀ b < 0x200000, b / 131072 = m → sget 0#8 b t.pool = 0) ∧
  (∀ n : Fin 16, 16 + n.val ≠ m ∨ ¬ lost → t.coreOf n = s.coreOf n) ∧
  (lost → ∀ n : Fin 16, 16 + n.val = m → (t.coreOf n).imem = [] ∧ (t.coreOf n).dmem = []) ∧
  (∀ c : Fin 4, 48 + c.val ≠ m ∨ ¬ lost → t.canOf c = s.canOf c) ∧
  (lost → ∀ c : Fin 4, 48 + c.val = m → (t.canOf c).ram = [])

/-- The background test holds the token for a row. -/
def rowRun (s : State) (x : BtRun) (rest : List (Option Nat)) : Prop :=
  s.tok = ⟨6, []⟩ ∧ s.mem.btQ = none :: rest ∧ s.mem.btRun = some x ∧ x.src = 0 ∧ x.m < 53 ∧ s.bankSt x.m = 0 ∧ memHere s x.m ∧
    x.row < rowsOf x.m ∧ regsRising s

/-- What the device finds at a wake from DOZE or SLEEP (R503): ON, the clusters, engines and channels that entry has stopped go on, and the
memories held in retention are ON. -/
def woken (s t : State) (src : Nat) : Prop :=
  t.pwr = { s.pwr with state := 0, wakeSrc := src, last := s.pwr.state, retained := [], clusters := [], engines := [], channels := [] } ∧
  (∀ k : Fin 16, t.cluOf k = if k.val ∈ s.pwr.clusters ∧ (s.cluOf k).st = 2 then { s.cluOf k with st := 1 } else s.cluOf k) ∧
  (∀ e : Fin 48, e.val ∈ s.pwr.engines → (s.rilOf e).st = 0 → (t.rilOf e).st = 1 ∧ (t.rilOf e).pc = s.rf Fx.RIL_ECFG_ENTRY e ∧
    (t.rilOf e).sr = (s.rilOf e).sr ∧ (t.rilOf e).tx = (s.rilOf e).tx ∧ (t.rilOf e).rx = (s.rilOf e).rx) ∧
  (∀ e : Fin 48, e.val ∉ s.pwr.engines → t.rilOf e = s.rilOf e) ∧
  (∀ c : Fin 4, s.rb Fx.CAN_CFG_EN c = true → (s.canOf c).st ≠ 6 → (t.canOf c).st = 1) ∧
  (∀ c : Fin 2, c.val ∈ s.pwr.channels → (s.gysChOf c).mode = 6 → (t.gysChOf c).mode = 1) ∧
  (∀ m : Fin 64, t.bankSt m = if m.val ∈ s.pwr.retained then 0 else s.bankSt m) ∧
  t.pool = s.pool ∧ t.core = s.core ∧ t.tph.total = s.tph.total ∧ (logRoom s → logged s t 0x03 0 0 src)

/-- The wake sources that act in DOZE or SLEEP, of those active (Table 15-5). -/
def actingSources (s : State) (src : BitVec 7) : BitVec 7 :=
  let pins := s.rb Fx.PWR_WAKE_PIN_EN0 || s.rb Fx.PWR_WAKE_PIN_EN1
  let can := s.rb Fx.CAN_CFG_EN 0 || s.rb Fx.CAN_CFG_EN 1 || s.rb Fx.CAN_CFG_EN 2 || s.rb Fx.CAN_CFG_EN 3
  src &&& (s.rg .PWR_WAKE_EN).setWidth 7 &&&
    (0b1110000#7 ||| (if s.pwr.state = 2 then 2#7 else 0#7) ||| (if can then 4#7 else 0#7) ||| (if pins then 8#7 else 0#7))

/-- Outside the always-on island everything is as reset leaves it (R532, R533): the device waits for the release of reset. -/
def resetLeft (s t : State) (cause : Nat) : Prop :=
  t.boot.st = 0 ∧ t.boot.released = false ∧ t.boot.cause = cause ∧ t.lock = false ∧ t.pool = [] ∧
  (∀ n : Fin 16, (t.coreOf n).imem = [] ∧ (t.coreOf n).dmem = []) ∧ (∀ k : Fin 16, (t.cluOf k).st = 0 ∧ (t.cluOf k).loaded = false) ∧
  t.tok = ⟨0, []⟩ ∧ t.tph.fatal = false ∧ t.hst = State.reset.hst ∧ t.can = State.reset.can ∧ t.ril = State.reset.ril ∧ t.variant = s.variant ∧
  t.boot.hash = s.boot.hash ∧ t.boot.prog = s.boot.prog ∧ t.boot.revoked = s.boot.revoked ∧
  (∀ off r i j, regAt off = some (r, i, j) → r ∉ [RegId.PWR_STS, .PWR_ALARM, .PWR_WAKE_PIN, .TPH_STS, .PWR_WAKE_EN] →
    t.rg r i j = r.resetValue i) ∧
  (∀ r ∈ [RegId.PWR_STS, .PWR_ALARM, .PWR_WAKE_PIN, .TPH_STS], t.rg r = s.rg r) ∧
  t.pwr.sec = s.pwr.sec ∧ t.tph.total = s.tph.total ∧ t.tph.freezeSeq = s.tph.freezeSeq ∧ t.tph.frozen = s.tph.frozen ∧ t.tph.log = s.tph.log

/-! ### Faults -/

/-- The fatal state (R524): clusters stand, Rill output slots are released, pulse units inactive, CAN controllers out of service, Geyser channels
isolated, polling and the pass of the loop engine stopped, HB_OUT low. The memories and the register map but for status bits are as before. -/
def fatalState (s t : State) : Prop :=
  t.tph.fatal = true ∧ t.pool = s.pool ∧ t.core = s.core ∧ t.mbx = s.mbx ∧ t.lck = s.lck ∧ t.cfl = s.cfl ∧
  (∀ k : Fin 16, (s.cluOf k).st ≤ 4 → (t.cluOf k).st ≠ 1 ∧ t.coreRuns k = false ∧ (t.ctxOf k).pc = (s.ctxOf k).pc ∧
    ((s.cluOf k).st = 1 → (t.cluOf k).st = 2)) ∧
  (∀ e : Fin 48, (s.rilOf e).st ≤ 3 → (t.rilOf e).st ≠ 1 ∧ (t.rilOf e).st ≠ 2 ∧
    ∀ j : Fin 4, s.slotOut e j = true → ((t.rilOf e).slots[j]).released = true ∧ ((t.rilOf e).slots[j]).drive = false) ∧
  (∀ u : Fin 4, (t.plsOf u).running = false ∧ (t.plsOf u).active = false) ∧
  (∀ c : Fin 4, (s.canOf c).st ≠ 0 → (t.canOf c).st = 6) ∧ (∀ c : Fin 2, (t.gysChOf c).mode ≠ 1) ∧
  t.hst.inFlight = false ∧ t.lp.running = false ∧ t.pair.hbOut = false

/-- A fatal trigger with its entry (R523, Table 16-4). -/
def fatalBy (s t : State) (code obj data : Nat) : Prop :=
  fatalState s t ∧ (logRoom s → logged s t code 3 obj data)

/-- The watchdog counts: started at entry into RUN, ON, some enabled condition not met since the last kick (R520, R521). -/
def wdgOpen (s : State) : Prop :=
  s.tph.wdgRun = true ∧ s.pwr.state = 0 ∧
    ((s.rb Fx.TPH_WDG_CFG_HOST = true ∧ s.tph.hostMet = false) ∨
      ∃ k : Fin 16, (s.rg .TPH_WDG_CLU).getLsbD k = true ∧ s.tph.cluMet.getLsbD k = false ∧ ((s.cluOf k).st = 1 ∨ (s.cluOf k).st = 4))

/-- The word `i` of an entry (Table 16-6). -/
def entryWord (e : TphEntry) (i : Nat) : Nat :=
  [e.sec, e.ns, e.code + e.obj * 2 ^ 16 + e.cls * 2 ^ 30, e.data].getD i 0

/-! ### Start-up -/

/-- The key of slot `n` in a key table at pool offset `a`. -/
def keyAt (s : State) (a : Nat) (n : Nat) : List Byte :=
  (List.range 64).map fun i => let b := a + 64 * n + i; if s.bankSt (b / 131072 % 16) = 0 then sget 0#8 b s.pool else 0

/-- R537: the key store holds a key table. -/
def holdsKeys (s t : State) (key : Nat → List Byte) : Prop :=
  ∀ n : Fin 4, t.boot.keys[n] =
    if s.boot.prog.getLsbD n = true ∧ s.boot.revoked.getLsbD n = false ∧ sha256 (key n) = s.boot.hash[n] ∧ onCurve (key n) = true
    then some (key n) else none

/-- BOOT_FUSE_DATA as the bytes of a hash. -/
def fuseBytes (s : State) : List Byte := (List.range 32).map fun i => ((s.rg .BOOT_FUSE_DATA (i / 4)).extractLsb' (8 * (i % 4)) 8)

/-- The load ends in HOST with BOOT_ERR (R542 to R544). -/
def hostWith (t : State) (stage index status : Nat) : Prop :=
  t.boot.st = 2 ∧ t.boot.busy = false ∧ t.boot.err = BitVec.ofNat 32 (2 ^ 31 + stage * 2 ^ 28 + index * 2 ^ 12 + status)

/-- BOOT_STS.STATE is HOST, and nothing is in progress (R545, R546). -/
def hostIdle (s : State) : Prop := s.boot.st = 2 ∧ s.boot.busy = false ∧ s.boot.req = none

/-- The clusters, engines and units after the entry into RUN (Table 17-6). -/
def inRun (s t : State) : Prop :=
  t.lock = true ∧ t.boot.st = 3 ∧ t.boot.busy = false ∧
  (∀ k : Fin 16, ((s.cluOf k).st = 0 → (s.cluOf k).loaded = true → (t.cluOf k).st = 1 ∧ (t.cluOf k).ctx = Ctx.reset) ∧
    ((s.cluOf k).st ≠ 0 ∨ (s.cluOf k).loaded = false → t.cluOf k = s.cluOf k)) ∧
  (∀ k : Fin 16, ∀ x, s.boot.imgs[k] = some x → ∀ e ∈ x.engines, e < 48 → (s.rilOf e).st = 0 →
    (t.rilOf e).st = 1 ∧ (t.rilOf e).pc = s.rf Fx.RIL_ECFG_ENTRY e ∧ (t.rilOf e).sr = 0#32 ∧ (t.rilOf e).tx = []) ∧
  (∀ c : Fin 4, s.rb Fx.CAN_CFG_EN c = true → (t.canOf c).st = 1 ∧ (t.canOf c).tec = 0 ∧ (t.canOf c).recC = 0) ∧
  (∀ c : Fin 2, s.variant.hasCh c = true → s.rb Fx.GYS_CH_CFG_EN c = true → (t.gysChOf c).mode = 1) ∧
  (s.variant.full = true → s.rb Fx.PAIR_CFG_EN = true → s.pair.st = 4 → t.pair.st = 0) ∧
  t.tph.wdgRun = s.rb Fx.TPH_WDG_CFG_EN ∧
  (∀ n : Fin 8, 4 ≤ n.val → s.clk.started.testBit n = false →
    t.clk.started.testBit n = ((!(s.rf Fx.CLK_CFG_STOP_UNUSED).testBit (n.val - 4) || s.pllUsed n) && !s.clk.fail.testBit n)) ∧
  (s.rb Fx.CFL_EDDY_CFG_EN = true → s.tok.holder = 0 → t.tok.holder = 5)

end Sys2Proof.Safety
end

