-- ==== Sys2Proof/Certificates/Slice0/Obligations.lean ====
section
/-!
DEFINITION. The statements for the provers.
-/
open Sys2Proof Sys2Proof.Machine Sys2Proof.Safety

/-! ### The machine as a whole -/

/-- The queue: a step serves the command at its front with the rest of the queue; on an empty queue one edge of the time base clock
passes (log entries 1 and 52). -/
def Obligations.StepServesFrontCommand : Prop :=
  (∀ (c : Instr) (s : State) (rest : List Instr), s.pending = c :: rest → step s = exec c { s with pending := rest }) ∧
  (∀ s : State, s.pending = [] → step s = .next s.clockEdge)

/-- The invariant of the machine holds at reset. -/
def Obligations.InvariantAtReset : Prop := MachInv State.reset

/-- The invariant of the machine is kept by every step, and no step changes the variant (R5). -/
def Obligations.InvariantKept : Prop := ∀ s t : State, MachInv s → step s = .next t → MachInv t ∧ t.variant = s.variant

/-- R5: the FEAT registers read what Table 00-1 states for the variant, in every state, and no write changes them. -/
def Obligations.FeatRegisters : Prop :=
  ∀ (s : State) (m : Master) (off : BitVec 26) (v : Nat),
    (off.toNat, v) ∈ [
      (0x804, match s.variant with | .lx2416 => 0x5F | .lx2412 => 0x3F | .lx1608 => 0x08),
      (0x808, match s.variant with | .lx2416 => 0x40300C10 | .lx2412 => 0x20300C0C | .lx1608 => 0x00180608),
      (0x80C, match s.variant with | .lx2416 => 0xFFFF | .lx2412 => 0xFFF | .lx1608 => 0xFF),
      (0x810, match s.variant with | .lx1608 => 0xFFFFFC | _ => 0xFFFFFF)] →
    (∃ t, exec (.rcCounterRead m off 4) s = .next t ∧ t.out = s.out ++ [.readData m off.toNat 4 v]) ∧
    ∀ (width : Nat) (data : BitVec 64), ∃ u, exec (.registerWrite m off width data) s = .next u ∧
      ∃ t, exec (.rcCounterRead m off 4) u = .next t ∧ t.out = s.out ++ [.readData m off.toNat 4 v]

/-! ### Registers and buses (spec/00) -/

/-- R13, R17: a rejected write changes no register but the count and, when none is captured, the capture; nothing else of the device
changes. -/
def Obligations.RejectedWrites : Prop :=
  ∀ (s : State) (m : Master) (off : BitVec 26) (width : Nat) (data : BitVec 64) (c : RejCause),
    regsRising s → s.writeAns off.toNat width data.toNat = .rejected c →
    ∃ t, exec (.registerWrite m off width data) s = .next t ∧ onlyRegs s t ∧ counted s t Fx.GLB_REJ_CNT_COUNT ∧
      (s.rb Fx.GLB_REJ_ADDR_VALID = true →
        t.rg .GLB_REJ_ADDR = s.rg .GLB_REJ_ADDR ∧ t.rg .GLB_REJ_DATA = s.rg .GLB_REJ_DATA) ∧
      (s.rb Fx.GLB_REJ_ADDR_VALID = false →
        t.rg .GLB_REJ_ADDR = rejWord m c off.toNat ∧ t.rg .GLB_REJ_DATA = rejData off.toNat width data.toNat) ∧
      (∀ (r : RegId) (i j : Nat),
        r.addr i j ∉ [RegId.addr .GLB_REJ_CNT 0 0, RegId.addr .GLB_REJ_ADDR 0 0, RegId.addr .GLB_REJ_DATA 0 0] → t.rg r i j = s.rg r i j)

/-- R6, R10, R14, R19: what a write to a register block meets, the causes in their order. A word of an absent unit ignores it; then WIDTH;
then LOCKED for a register with set-up fields in RUN; then RSV_BIT; then RSV_ENC of a field. An offset outside every block is
UNMAPPED (R9). -/
def Obligations.RejectOrder : Prop :=
  ∀ (s : State) (m : Master) (off : BitVec 26) (width : Nat) (data : BitVec 64) (r : RegId) (i j : Nat),
    let w := BitVec.ofNat 32 data.toNat
    let answers := fun (c : RejCause) =>
      exec (.registerWrite m off width data) s = .next (s.reject m c off.toNat (rejData off.toNat width data.toNat))
    (busPlace off.toNat = .reg → regAt off.toNat = some (r, i, j) → absentReg s.variant r i = true →
      exec (.registerWrite m off width data) s = .next s ∧
      exec (.rcCounterRead m off width) s = .next (s.emit (.readData m off.toNat width 0))) ∧
    (regHere s off.toNat r i j →
      (aligned32 off.toNat width = false → answers .width) ∧
      (r ∉ [.TPH_WIN, .MEM_LOCK, .CAN_RAM_WIN, .BOOT_FUSE_CMD] → aligned32 off.toNat width = true →
        (s.lock = true → hasRwl r = true → answers .locked) ∧
        ((s.lock = true → hasRwl r = false) → rsvBitBad r i w = true → answers .rsvBit) ∧
        ((s.lock = true → hasRwl r = false) → rsvBitBad r i w = false → encBadFields r w = true → answers .rsvEnc))) ∧
    (live s → busPlace off.toNat = .none → answers .unmapped)

/-- R11, R17: a read of a register whose fields are all RC returns the value and clears it; a read of GLB_REJ_CNT also clears the capture, and
READ_GLB_REJ_CNT is that read at its own offset. A served write of a register without side effects and with set-up fields only leaves the value
written in it, and nothing else changes; the registers named stand for those of every block. -/
def Obligations.RegisterAccessClasses : Prop :=
  (∀ (s : State) (m : Master), regsRising s →
    (∀ (off : BitVec 26) (r : RegId) (i j : Nat),
      regHere s off.toNat r i j → aligned32 off.toNat 4 = true → r ≠ .GLB_REJ_CNT → r.defn.flds ≠ [] →
      (∀ f ∈ r.defn.flds, f.acc = .rc) →
      ∃ t, exec (.rcCounterRead m off 4) s = .next t ∧ t = { s with regs := t.regs, out := t.out } ∧
        t.out = s.out ++ [.readData m off.toNat 4 (s.rg r i j).toNat] ∧
        ∀ f ∈ r.defn.flds, bits (t.rg r i j) f.hi f.lo = 0) ∧
    (∃ t, exec (.readGlbRejCnt m) s = .next t ∧ t = { s with regs := t.regs, out := t.out } ∧
      t.out = s.out ++ [.readData m 0x14 4 (s.rg .GLB_REJ_CNT).toNat] ∧
      t.rf Fx.GLB_REJ_CNT_COUNT = 0 ∧ t.rg .GLB_REJ_ADDR = 0#32 ∧ t.rg .GLB_REJ_DATA = 0#32)) ∧
  (∀ (s : State) (m : Master) (off : BitVec 26) (v : Word) (r : RegId) (i j : Nat),
    r ∈ [.HST_EV_ROUTE, .HST_EV_EN, .HST_IRQ_MAP, .HST_DB_BASE_LO, .CFL_CTL, .TB_GUARD, .GYS_TIMING, .PAIR_MREG_BASE, .ENG_CFG,
      .MBX_CFG, .RIL_CMP_VAL, .CAN_CFG, .LOOP_CFG, .MEM_REP_CFG, .TPH_WDG_CFG] →
    regHere s off.toNat r i j → s.lock = false → s.regCause r i j v = none → aligned32 off.toNat 4 = true →
    (∀ b : Nat, b < 32 → (fieldMask r.defn.flds).testBit b = false → (s.rg r i j).getLsbD b = false) →
    exec (.registerWrite m off 4 (v.setWidth 64)) s = .next (s.sg r i j v))

/-- R569, R574: a complete QSPI transaction is one aligned 32-bit access, an incomplete one has no effect, and on four lines it is the same
access; the MSI-X table in BAR2 holds what is written to it, other BAR2 accesses have no effect and read 0. -/
def Obligations.QspiAndBar2 : Prop :=
  ∀ (s : State) (off : BitVec 26) (data : Word) (complete : Bool),
    (let t := if complete ∧ s.boot.st ≠ 0 then s.busWrite .qspi off.toNat 4 data.toNat else s
     exec (.qspiWrite complete off data) s = .next t ∧ exec (.qspiWriteQuad complete off data) s = .next t) ∧
    (let t := if complete ∧ s.boot.st ≠ 0 then s.busAnswer .qspi off.toNat 4 else s
     exec (.qspiRead complete off) s = .next t ∧ exec (.qspiReadQuad complete off) s = .next t) ∧
    (∀ (a : BitVec 12) (w : BitVec 64),
      (a.toNat < 0x400 → a.toNat % 4 = 0 → a.toNat / 4 % 4 ≠ 3 →
        exec (.bar2Access true a 4 w) s = .next { s with pcie := { s.pcie with
          msix := sput 0#32 (a.toNat / 4) (BitVec.ofNat 32 w.toNat) s.pcie.msix } }) ∧
      (0x400 ≤ a.toNat → exec (.bar2Access true a 4 w) s = .next s) ∧
      (a.toNat < 0x400 → a.toNat % 4 = 0 →
        exec (.bar2Access false a 4 w) s = .next (s.emit (.bar2Data a.toNat (s.pcie.word (a.toNat / 4)).toNat))) ∧
      (∀ width, (0x400 ≤ a.toNat ∧ a.toNat < 0x800) ∨ 0x808 ≤ a.toNat →
        exec (.bar2Access false a width w) s = .next (s.emit (.bar2Data a.toNat 0)))) ∧
    (∀ v : Fin 64, s.pcie.pend = 0#64 →
      exec (.msixUnmask v) s = .next { s with pcie := { s.pcie with
        msix := sput 1#32 (4 * v.val + 3) (s.pcie.word (4 * v.val + 3) &&& 0xFFFFFFFE#32) s.pcie.msix } })

/-! ### The cycle (spec/01) -/

/-- R21, R22, R349, R573: a tick counts, opens the steps of its cycle and takes the due Geyser cycle start; without a guarded time base no tick
is issued and nothing changes. The cycle event sets line 0 in every cluster with CYC_BIND that is RUNNING, once in a cycle; no other
cluster changes. -/
def Obligations.CycleTickAndEvent : Prop :=
  (∀ s : State,
    (s.tickOk = true → ∃ t, exec .cycleTick s = .next t ∧
      t.cyc = { tick := (s.cyc.tick + 1) % 65536, ticks := s.cyc.ticks + 1, rillDone := false, coreDone := false, loopDone := false } ∧
      t.gys.tickDue = false ∧ t.boot.skip = none ∧ t.clu = s.clu ∧ t.pool = s.pool ∧ t.ril = s.ril ∧ t.lp = s.lp ∧ t.cfl = s.cfl ∧
      t.mac = s.mac ∧ t.can = s.can) ∧
    (s.rf Fx.GLB_CYC_CFG_SRC = 0 ∨ s.rb Fx.TB_CFG_GUARDED (s.rf Fx.GLB_CYC_CFG_TB) = false → exec .cycleTick s = .next s)) ∧
  (∀ s : State,
    (s.cycleOn = true → s.cyc.coreDone = false → ∃ t, exec .coreCycleEvent s = .next t ∧ t.cyc = { s.cyc with coreDone := true } ∧
      ∀ k : Fin 16,
        (s.cycleBound k = false → t.cluOf k = s.cluOf k) ∧
        (s.cycleBound k = true → (s.ctxOf k).latched.testBit 0 = false →
          t.cluOf k = { s.cluOf k with ctx := { s.ctxOf k with latched := Nat.lor (s.ctxOf k).latched 1 } }) ∧
        (s.cycleBound k = true → (s.ctxOf k).latched.testBit 0 = true → t.cluOf k = s.cluOf k)) ∧
    (s.cyc.coreDone = true → exec .coreCycleEvent s = .next s))

/-- R32, R33: a pool bank that is ON serves the requests of a batch in the order mirror engine, host, loop engine, cores. A lone request is
served at once. Of two writes to one word in a batch the later-served one stands; a read served after a write in the same batch returns the
written value, and one served before it the old value. A second request of the same place waits. -/
def Obligations.PoolBatches : Prop :=
  ∀ (s : State) (b : Fin 16) (w : BitVec 14) (p q : PoolPlace) (v u : BitVec 64),
    let a := b.val * 131072 + w.toNat * 8
    let old := leNat (rdBytes s.pool a 8)
    let rd := fun (x : PoolPlace) => PoolReq.mk x w .read .clean
    let wr := fun (x : PoolPlace) (d : BitVec 64) => PoolReq.mk x w (.write 0xFF#8 d) .clean
    let serves := fun (l : List PoolReq) (t : State) => exec (.poolBatch b l) s = .next t ∧
      t = { s with mem := t.mem, out := t.out, pool := t.pool } ∧ t.mem.reqs = []
    scanon (0#8) 0 s.pool = true → s.mem.reqs = [] → s.bankSt b = 0 → a + 8 ≤ 0x1FFF00 → s.mirrorProt a 8 = false →
    (∃ t, serves [rd p] t ∧ t.pool = s.pool ∧ t.out = s.out ++ [.poolData p a old]) ∧
    (placeRank p < placeRank q →
      (∀ l, l = [wr p v, wr q u] ∨ l = [wr q u, wr p v] → ∃ t, serves l t ∧ t.out = s.out ∧ rdBytes t.pool a 8 = leBytes 8 u.toNat) ∧
      (∀ l, l = [wr p v, rd q] ∨ l = [rd q, wr p v] → ∃ t, serves l t ∧ t.out = s.out ++ [.poolData q a v.toNat] ∧
        rdBytes t.pool a 8 = leBytes 8 v.toNat) ∧
      (∀ l, l = [rd p, wr q u] ∨ l = [wr q u, rd p] → ∃ t, serves l t ∧ t.out = s.out ++ [.poolData p a old] ∧
        rdBytes t.pool a 8 = leBytes 8 u.toNat)) ∧
    (∃ t, exec (.poolBatch b [rd p, wr p v]) s = .next t ∧ t.pool = s.pool ∧ t.out = s.out ++ [.poolData p a old] ∧
      t.mem.reqs = [(b.val, wr p v)])

/-! ### The host rings (spec/02) -/

/-- R48 to R51: a due poll reads the 64-byte lines of the doorbell page that hold a word of an enabled ring that is not halted; with no such
ring nothing is read and nothing changes. A completed poll takes up the word of each such transmit ring or halts it; POLL_NOW clears the
empty-poll count and restores the fast interval. -/
def Obligations.DoorbellPolling : Prop :=
  ∀ s : State, hostPolls s → s.lock = true → s.pwr.state = 0 →
    let reads := fun (t : State) => t.out ++ (s.pollLines.map fun l =>
      Output.hostRead 0 (s.base64 .HST_DB_BASE_LO .HST_DB_BASE_HI 0 + 64 * l) 64)
    (s.hst.inFlight = false → s.pollLines ≠ [] → exec .doorbellPoll s =
      .next { s with hst := { s.hst with inFlight := true, pollTry := 0 }, out := reads s }) ∧
    (s.pollLines = [] → exec .doorbellPoll s = .next s) ∧
    (∀ m, exec (.pollNow m) s = .next (
      let t := { s with hst := { s.hst with empty := 0, idle := false } }
      if s.hst.inFlight = true ∨ s.pollLines = [] then t
      else { t with hst := { t.hst with inFlight := true, pollTry := 0 }, out := reads s })) ∧
    (∀ words : List Word, words.length = 80 → s.hst.inFlight = true → s.hst.pollTry = 0 → regsRising s →
      ∃ t, exec (.pollCompletion words) s = .next t ∧ t.hst.inFlight = false ∧
        (∀ n : Fin 32, s.rb Fx.HST_TXR_CFG_EN n = true → (s.txOf n).halted = false →
          let w := words.getD n 0#32
          let size := s.txN n
          let i := bits w 15 0
          let cause := if bits w 31 16 ≠ 0 then 2 else if size ≤ i then 1
            else if (i + size - (s.txOf n).cidx) % size < ((s.txOf n).tail + size - (s.txOf n).cidx) % size then 3 else 0
          (cause = 0 → (t.txOf n).tail = i ∧ (t.txOf n).halted = false) ∧
          (cause ≠ 0 → (t.txOf n).halted = true ∧ (t.txOf n).cause = cause ∧ (t.txOf n).cidx = (s.txOf n).cidx)) ∧
        (∀ n : Fin 32, s.rb Fx.HST_TXR_CFG_EN n = false ∨ (s.txOf n).halted = true → t.txOf n = s.txOf n))

/-- R41, R81, R87, Table 02-9: QUIESCE stops polling and discards what is fetched and not enqueued; QUIESCED follows; RESUME ends it;
without a link or bus mastering reads in flight are abandoned, and DMA waits after their return (for the next poll). A poll that fails is issued once more; a poll that fails twice leaves the words
unchanged; a descriptor fetch that fails twice halts its ring with cause FETCH. -/
def Obligations.HostReadsStopOrFail : Prop :=
  (∀ s : State, live s →
    (∀ m, s.hst.quiesced = false → s.hst.quiescing = false → exec (.quiesce m) s =
      .next { s with hst := { s.hst with quiescing := true, inFlight := false, pollTry := 0, txr := s.hst.txr.map Ring.discard } }) ∧
    (s.hst.quiescing = true → exec .quiesceComplete s =
      .next { s with hst := { s.hst with quiescing := false, quiesced := true } }) ∧
    (∀ m, s.hst.quiesced = true → (∀ n : Fin 32, (s.txOf n).work = [] ∧ (s.txOf n).dirty = false ∧ (s.rxOf n).dirty = false) →
      (∀ n : Fin 16, (s.evrOf n).dirty = false) →
      exec (.hostResume m) s = .next { s with hst := { s.hst with quiescing := false, quiesced := false } }) ∧
    (∀ a b : Bool, a = true ∨ b = true → exec (.busMasterLoss a b) s = .next { s with
      pcie := { s.pcie with linkUp := s.pcie.linkUp && !a, bme := s.pcie.bme && !b }
      hst := { s.hst with inFlight := false, pollTry := 0, rxr := s.hst.rxr.map fun r => { r with fetchTry := 0 }
                          txr := s.hst.txr.map fun r => { r with fetchTry := 0, bufTry := 0 } } }) ∧
    (s.pcie.linkUp = false → s.pcie.bme = false →
      (∀ r, exec (.busMasterRestore (some r) false) s = .next { s with pcie := { s.pcie with linkUp := true, rateKb := r } }) ∧
      exec (.busMasterRestore none true) s = .next { s with pcie := { s.pcie with bme := true } }) ∧
    (s.rb Fx.HST_CTL_EN = true → s.pcie.linkUp = true → s.pcie.bme = false → s.pcie.pend = 0#64 →
      exec (.busMasterRestore none true) s = .next { s with pcie := { s.pcie with bme := true }, hst := { s.hst with dmaOff := true } }) ∧
    (s.hst.dmaOff = true → ∀ n, exec (.txCompletion n) s = .next s)) ∧
  (∀ (s : State) (n : Fin 32) (b : Fin 8), hostPolls s →
    (s.hst.inFlight = true → s.hst.pollTry = 0 → ∀ rx, exec (.dmaCompletionTimeout .poll rx n b) s =
      .next { s with hst := { s.hst with pollTry := 1 }, out := s.out ++ s.pollLines.map fun l =>
        Output.hostRead 0 (s.base64 .HST_DB_BASE_LO .HST_DB_BASE_HI 0 + 64 * l) 64 }) ∧
    (s.hst.inFlight = true → s.hst.pollTry = 1 → regsRising s → ∀ rx, ∃ t, exec (.dmaCompletionTimeout .poll rx n b) s = .next t ∧
      t.hst.db = s.hst.db ∧ t.hst.inFlight = false ∧ t.hst.txr = s.hst.txr ∧ t.hst.rxr = s.hst.rxr ∧ counted s t Fx.HST_DMA_CNT_FAIL) ∧
    (s.rb Fx.HST_TXR_CFG_EN n = true → (s.txOf n).halted = false → s.txPosted n ≠ 0 → (s.txOf n).fetchTry = 1 → regsRising s →
      ∃ t, exec (.dmaCompletionTimeout .descriptor false n b) s = .next t ∧ (t.txOf n).halted = true ∧ (t.txOf n).cause = 4 ∧
        (t.txOf n).cidx = (s.txOf n).cidx ∧ counted s t Fx.HST_DMA_CNT_FAIL))

/-- R54, R58 to R64, R66, Table 02-4: a fetched chain of one descriptor completes with the status of the first row that matches, or
has its buffer read; when the buffer has been read, the frame is padded to 60 bytes and offered to the switch with its targets. The oldest
frame of a ring is written back when it is complete, its status OK, or LATE, where a target sent it, and otherwise the outcome of its
lowest-numbered target; while it is not complete, nothing is written. -/
def Obligations.TransmitPath : Prop :=
  ((∀ (s : State) (n : Fin 32) (d : List Byte),
    hostPolls s → s.rb Fx.HST_TXR_CFG_EN n = true → (s.txOf n).halted = false → (s.txOf n).await = false → (s.inOf 14).bp = false →
    (s.txOf n).work = [] → (s.txOf n).prefetch = [] → (s.txOf n).fetchTry = 0 → (s.txOf n).cidx < s.txN n →
    (s.txOf n).tail = ((s.txOf n).cidx + 1) % s.txN n → 16 ≤ s.txN n → oneDesc d →
    let entry := fun (ph : TxPhase) => [TxEntry.mk (s.txOf n).cidx [d] ph [] 0]
    let put := fun (ph : TxPhase) => s.txUpd n fun r => { r with work := entry ph }
    exec (.descriptorFetchDone n [d]) s = .next (match oneDescStatus s d with
      | some st => put (.done st)
      | none => (put .reading).emit (.hostRead 2 (descLe d 0 8) (dLen d)))) ∧
  (∀ (s : State) (n : Fin 32) (d data : List Byte) (i : Nat),
    hostPolls s → s.rb Fx.CFL_CTL_EN = true → (s.txOf n).work = [TxEntry.mk i [d] .reading [] 0] → (s.txOf n).bufTry = 0 →
    data.length = dLen d → dSwitch d = false → dLaunch d = false →
    let padded := data ++ List.replicate (60 - data.length) 0#8
    let ts := (List.range 17).filter fun p => (dMask d).testBit p
    let v := s.classify 14 padded
    let cls := if dClsMap d then s.classOf 14 v.2 else dTc d
    exec (.txBufferReadDone n data) s = .next (if s.rf Fx.CFL_PORT_CFG_STATE 14 = 0 then
        (s.txUpd n fun r => { r with work := [TxEntry.mk i [d] (.done 0x05) [] 0], bufTry := 0 }).icnt 14 3
      else (s.txUpd n fun r => { r with work := [TxEntry.mk i [d] (.inSwitch ts.length) [] 0], bufTry := 0 }).storeComplete
        (mkFrame padded 14 cls v.1 v.2 (.host n (s.txOf n).gen i) none true none (s.rf Fx.HST_TXR_CFG_TS_TB n)) ts))) ∧
  (∀ (s : State) (n : Fin 32) (e : TxEntry) (d : List Byte) (rest : List TxEntry),
    hostPolls s → (s.txOf n).work = e :: rest → e.descs = [d] → oneDesc d →
    (∀ k, e.phase = .inSwitch (k + 1) → exec (.txCompletion n) s = .next s) ∧
    (e.phase = .reading → exec (.txCompletion n) s = .next s) ∧
    (∀ (p t : Nat) (late : Bool), e.phase = .inSwitch 0 → e.results = [(p, .sent late (some t))] → e.first < s.txN n →
      dTsReq d = true → dEv d = false → s.rb Fx.HST_TXR_CFG_EV_ALL n = false →
      let st := if late then 0x07 else 0x00
      let tb := if dLaunch d then dLtb d else s.rf Fx.HST_TXR_CFG_TS_TB n
      let u := { s.txUpd n fun r => { r with cidx := (e.first + 1) % s.txN n, work := rest, dirty := true } with
        out := s.out ++ writeBacks (s.base64 .HST_TXR_BASE_LO .HST_TXR_BASE_HI n) (e.first % s.txN n) 24
          (leBytes 4 (t / 256) ++ leBytes 1 t ++ leBytes 1 (p * 8 + tb) ++ leBytes 1 st) 0xC0 }
      exec (.txCompletion n) s = .next (if late then u.bump Fx.HST_TXR_CNT_OTHER 1 n else u)) ∧
    (statusOf [] = 0x05 ∧ ∀ (a b : Nat) (x y : Nat), a < b →
      statusOf [(a, .unsent x), (b, .unsent y)] = x ∧ statusOf [(b, .unsent y), (a, .unsent x)] = x ∧
      statusOf [(a, .unsent x), (b, .sent false none)] = 0x00 ∧ statusOf [(a, .sent true none), (b, .sent false none)] = 0x07))

/-- R69 to R71: a frame that waits at SP14 is written into the descriptor posted for it, with the fields of Table 02-5, or discarded and
counted: without steering, without a ring, without descriptors. -/
def Obligations.ReceiveDelivery : Prop :=
  ∀ (s : State) (f : Delivered) (rest : List Delivered) (descs : List (List Byte)),
    s.sinkOf 0 = f :: rest → s.noMaster = false → s.hst.dmaOff = false → live s →
    let k := 8 * f.inp + f.cls
    let n := s.rf Fx.HST_RX_STEER_RING k
    let p := s.sinkPop 0
    (s.rb Fx.HST_CTL_EN = false ∨ s.rb Fx.HST_RX_STEER_EN k = false →
      exec (.rxFrameDelivery descs) s = .next (p.bump Fx.HST_RX_NOSTEER_COUNT)) ∧
    (s.rb Fx.HST_CTL_EN = true → s.rb Fx.HST_RX_STEER_EN k = true →
      (s.rb Fx.HST_RXR_CFG_EN n = false ∨ (s.rxOf n).halted = true ∨ s.hst.quiesced = true →
        exec (.rxFrameDelivery descs) s = .next (p.bump Fx.HST_RXR_CNT_NODESC 1 n)) ∧
      (∀ (d : List Byte) (t : Nat), s.rb Fx.HST_RXR_CFG_EN n = true → (s.rxOf n).halted = false → s.hst.quiesced = false →
        s.hst.quiescing = false → (s.rxOf n).await = false → (s.rxOf n).fetchTry = 0 → (s.rxOf n).cidx < s.rxN n → 16 ≤ s.rxN n →
        (s.rxOf n).tail = ((s.rxOf n).cidx + 1) % s.rxN n → descs = [d] → rxDescBad d = false → f.ecc = false →
        f.stamp = some t → s.rb Fx.HST_RXR_CFG_EV_ALL n = false →
        (dLen d < f.data.length → exec (.rxFrameDelivery descs) s = .next (p.bump Fx.HST_RXR_CNT_NODESC 1 n)) ∧
        (f.data.length ≤ dLen d →
          exec (.rxFrameDelivery descs) s = .next { p.freeNext.freeNext.rxUpd n fun r =>
              { r with cidx := (r.cidx + 1) % s.rxN n, dirty := true } with
            out := s.out ++ [.hostWrite (descLe d 0 8) f.data] ++
              writeBacks (s.base64 .HST_RXR_BASE_LO .HST_RXR_BASE_HI n) (s.rxOf n).cidx 16
                (leBytes 2 f.data.length ++ leBytes 2 f.data.length ++ leBytes 1 f.inp ++ leBytes 1 f.core ++ leBytes 2 f.tci ++
                  leBytes 4 (t / 256) ++ leBytes 1 t ++
                  leBytes 1 (64 + 32 + b2n (isTagged f.data) * 16 + 8 + f.stampTb % 8) ++ leBytes 1 0) 0x80 })))

/-- R56, R82 to R86: the commands of a transmit ring, and the shadow word. HALT halts it with cause HOST, keeps its consumer index and writes
the shadow word with HALT; RESET of a halted ring sets its index to 0 and outdates its frames; RESUME clears HALT and CAUSE; RESUME or RESET of a
ring that is not halted is rejected with RSV_ENC while the manager is not quiesced. -/
def Obligations.RingRecovery : Prop :=
  ∀ (s : State) (m : Master) (n : Fin 32), live s →
    let r := s.txOf n
    (r.halted = false → ∃ t, exec (.ringHaltCmd m .tx n) s = .next t ∧ (t.txOf n).halted = true ∧ (t.txOf n).cause = 5 ∧
      (t.txOf n).cidx = r.cidx ∧ (t.txOf n).prefetch = [] ∧ t.hst.rxr = s.hst.rxr ∧
      (∀ k : Fin 32, k ≠ n → t.txOf k = s.txOf k) ∧
      (hostPolls s → ∃ l, t.out = s.out ++
        .hostWrite (s.base64 .HST_SH_BASE_LO .HST_SH_BASE_HI 0 + 4 * n.val) (leBytes 4 (r.cidx + 2 ^ 31)) :: l)) ∧
    (r.halted = true → exec (.ringReset m .tx n) s =
      .next (s.txUpd n fun r => { Ring.reset with gen := r.gen + 1, await := true, dirty := true })) ∧
    (r.halted = true → exec (.ringResume m .tx n) s =
      .next (s.txUpd n fun r => { r with halted := false, cause := 0, await := true, dirty := true })) ∧
    (r.halted = false → s.hst.quiesced = false →
      exec (.ringReset m .tx n) s = .next (s.reject m .rsvEnc (0x1100C + 32 * n.val) 2#32) ∧
      exec (.ringResume m .tx n) s = .next (s.reject m .rsvEnc (0x1100C + 32 * n.val) 1#32)) ∧
    (hostPolls s → r.dirty = true → exec (.shadowUpdate .tx n) s =
      .next ((s.txUpd n fun r => { r with dirty := false }).emit
        (.hostWrite (s.base64 .HST_SH_BASE_LO .HST_SH_BASE_HI 0 + 4 * n.val)
          (leBytes 4 (r.cidx + b2n r.halted * 2 ^ 31)))))

/-- R75 to R79: an event of an enabled class is one record of 16 bytes at the producer index of the ring of its class, with the PHASE of the
present pass, or is dropped and counted where the ring is full; an event of a class that is not enabled is neither. After US microseconds
the ring's vector is triggered: sent, or pending while its entry is masked. -/
def Obligations.EventRecords : Prop :=
  (∀ (s : State) (cls : Fin 8) (code obj a b : Nat),
    let n := bits (s.rg .HST_EV_ROUTE) (4 * cls.val + 3) (4 * cls.val)
    let r := s.evrOf n
    ((s.rg .HST_EV_EN).getLsbD cls = false → s.post cls code obj a b = s) ∧
    ((s.rg .HST_EV_EN).getLsbD cls = true → regsRising s →
      ((s.evrWritable n = false ∨ s.evrFull n = true) → r.owed = false ∨ s.evrFull n = true →
        ∃ t, s.post cls code obj a b = t ∧ t.out = s.out ∧ counted s t Fx.HST_EVR_CNT_LOST n ∧ (t.evrOf n).owed = true ∧
          (t.evrOf n).pidx = r.pidx) ∧
      (s.evrWritable n = true → s.evrFull n = false → r.owed = false → r.unsig + 1 < s.rf Fx.HST_EVR_CFG_MOD_CNT n →
        ∃ t, s.post cls code obj a b = t ∧ t = { s with hst := t.hst, out := t.out } ∧
          (t.evrOf n).pidx = (r.pidx + 1) % s.evrN n ∧ (t.evrOf n).phase = (if (r.pidx + 1) % s.evrN n = 0 then !r.phase else r.phase) ∧
          t.out = s.out ++ [.hostWrite (s.base64 .HST_EVR_BASE_LO .HST_EVR_BASE_HI n + 16 * r.pidx)
            (leBytes 1 code ++ leBytes 1 (b2n r.phase * 128 + obj % 64) ++ leBytes 2 (a % 65536) ++ leBytes 4 (b % 2 ^ 32)
              ++ leBytes 4 (s.tbNs 0 % 1000000000) ++ leBytes 4 (s.tbNs 0 / 1000000000))]))) ∧
  (∀ (s : State) (n : Fin 16) (t : Nat),
    let us := s.rf Fx.HST_EVR_MOD_US n
    let v := s.rf Fx.HST_EVR_CFG_VEC n
    (s.evrOf n).oldest = some t → us ≠ 0 → t + us * 1000 ≤ s.tbNs 0 →
    let u := s.evrUpd n fun r => { r with unsig := 0, oldest := none }
    exec (.msixModerationTimeout n) s = .next
      (if s.pcie.masked v = true ∨ s.pcie.master = false then
        { u with pcie := { u.pcie with pend := u.pcie.pend ||| BitVec.ofNat 64 (2 ^ v) } }
      else u.emit (.msix v ((u.pcie.word (4 * v)).toNat + 2 ^ 32 * (u.pcie.word (4 * v + 1)).toNat) (u.pcie.word (4 * v + 2)))))


/-! ### The switch (spec/03, spec/04) -/

/-- R107, R108, R112, R113, Table 03-4: ADD, DELETE, READ, LOOKUP and FLUSH of the database do what the table says and set BUSY until they
complete; while BUSY, ADD, DELETE and LOOKUP are rejected with RSV_ENC, and ADD and DELETE also from RUN on. The age sweep removes dynamic entries of AGE 0 and
decrements the others. The VLAN table is read at any time and written before RUN only. -/
def Obligations.ForwardingAndVlanTables : Prop :=
  ∀ (s : State) (m : Master), live s →
    let mac := keyMac s
    let fid := keyFid s
    let base := 4 * bucketOf mac fid
    let way := wayOf s mac fid
    let none_ := ∀ w, ¬ isKey mac fid (way w)
    let fresh : FdbEntry := ⟨mac, fid, (s.rg .CFL_FDB_VAL).toNat % 2 ^ 17, true, 0⟩
    let shown := fun (t : State) (x : FdbEntry) => t.rg .CFL_FDB_RES0 = BitVec.ofNat 32 x.mac ∧
      t.rg .CFL_FDB_RES1 = BitVec.ofNat 32 (x.fid * 65536 + x.mac / 2 ^ 32) ∧
      t.rg .CFL_FDB_RES2 = BitVec.ofNat 32 (2 ^ 31 + b2n x.static * 2 ^ 30 + x.age % 8 * 2 ^ 27 + x.ports)
    (s.cfl.fdbBusy = false → s.lock = false →
      (∀ w, isKey mac fid (way w) → (∀ v < w, ¬ isKey mac fid (way v)) →
        exec (.fdbAdd m) s = .next (fdbDone s (sins (base + w) fresh s.cfl.fdb) 0 (base + w)) ∧
        exec (.fdbDelete m) s = .next (fdbDone s (sdel (base + w) s.cfl.fdb) 0 (base + w))) ∧
      (none_ →
        exec (.fdbDelete m) s = .next (fdbDone s s.cfl.fdb 1 s.cfl.fdbIndex) ∧
        (∀ w, way w = none → (∀ v < w, way v ≠ none) →
          exec (.fdbAdd m) s = .next (fdbDone s (sins (base + w) fresh s.cfl.fdb) 0 (base + w))) ∧
        ((∀ w, ∃ x, way w = some x ∧ x.static = true) → exec (.fdbAdd m) s = .next (fdbDone s s.cfl.fdb 2 s.cfl.fdbIndex)) ∧
        (∀ w x, (∀ v, way v ≠ none) → way w = some x → x.static = false →
          (∀ v y, way v = some y → y.static = false → x.age < y.age ∨ x.age = y.age ∧ w ≤ v) →
          exec (.fdbAdd m) s = .next (fdbDone s (sins (base + w) fresh s.cfl.fdb) 0 (base + w))))) ∧
    (s.cfl.fdbBusy = false → regsRising s →
      (∀ i x, sfind i.val s.cfl.fdb = some x → ∃ t, exec (.fdbRead m i) s = .next t ∧
        t = { fdbDone s s.cfl.fdb 0 i with regs := t.regs } ∧ shown t x) ∧
      (∀ i, sfind i.val s.cfl.fdb = none → ∃ t, exec (.fdbRead m i) s = .next t ∧
        t = { fdbDone s s.cfl.fdb 0 i with regs := t.regs } ∧ (t.rg .CFL_FDB_RES2).getLsbD 31 = false) ∧
      (∀ w x, way w = some x → isKey mac fid (way w) → (∀ v < w, ¬ isKey mac fid (way v)) → ∃ t, exec (.fdbLookup m) s = .next t ∧
        t = { fdbDone s s.cfl.fdb 0 (base + w) with regs := t.regs } ∧ shown t x) ∧
      (none_ → exec (.fdbLookup m) s = .next (fdbDone s s.cfl.fdb 1 s.cfl.fdbIndex))) ∧
    (s.cfl.fdbBusy = false → ∀ (byFid byPort : Bool) (port : Fin 32), exec (.fdbFlush m byFid byPort port) s =
      .next (fdbDone s (s.cfl.fdb.filter fun e => decide (e.2.static = true ∨ (byFid = true ∧ e.2.fid ≠ fid) ∨
        (byPort = true ∧ e.2.ports.testBit port = false))) 0 s.cfl.fdbIndex)) ∧
    (s.cfl.fdbBusy = true ∨ s.lock = true →
      exec (.fdbAdd m) s = .next (s.reject m .rsvEnc 0x2080C 1#32) ∧ exec (.fdbDelete m) s = .next (s.reject m .rsvEnc 0x2080C 2#32)) ∧
    (s.cfl.fdbBusy = true → exec (.fdbLookup m) s = .next (s.reject m .rsvEnc 0x2080C 4#32) ∧
      exec .fdbOpComplete s = .next { s with cfl := { s.cfl with fdbBusy := false, fdbResult := s.cfl.fdbOp } }) ∧
    (s.rf Fx.CFL_FDB_AGE_SEC ≠ 0 → s.lock = true → ∃ t, exec .fdbAgeSweep s = .next t ∧ t = { s with cfl := { s.cfl with fdb := t.cfl.fdb } } ∧
      t.cfl.fdb = (s.cfl.fdb.filter fun e => e.2.static || e.2.age != 0).map fun e =>
        if e.2.static then e else (e.1, { e.2 with age := e.2.age - 1 })) ∧
    (s.rf Fx.CFL_FDB_AGE_SEC = 0 ∨ s.lock = false → exec .fdbAgeSweep s = .next s) ∧
    (∀ vid : Fin 4096, 1 ≤ vid.val → vid.val ≤ 4094 →
      let word2 := (s.rg .CFL_VT_DATA2).toNat
      let row : VlanEntry := ⟨(s.rg .CFL_VT_DATA0).toNat % 2 ^ 17, (s.rg .CFL_VT_DATA1).toNat % 2 ^ 17, word2 % 4096, word2.testBit 30, word2.testBit 31⟩
      (s.lock = false → exec (.vlanTableWrite m vid) s = .next { s with cfl := { s.cfl with vlan :=
        (sput (VlanEntry.mk 0 0 0 false false) vid.val row s.cfl.vlan) } }) ∧
      (s.lock = true → exec (.vlanTableWrite m vid) s = .next (s.reject m .rsvEnc 0x2090C (BitVec.ofNat 32 (0x1000 + vid)))) ∧
      (regsRising s → ∃ t, exec (.vlanTableRead m vid) s = .next t ∧ onlyRegs s t ∧
        (∀ v, sfind vid.val s.cfl.vlan = some v → t.rg .CFL_VT_DATA0 = BitVec.ofNat 32 v.member ∧ t.rg .CFL_VT_DATA1 = BitVec.ofNat 32 v.untag ∧
          t.rg .CFL_VT_DATA2 = BitVec.ofNat 32 (b2n v.valid * 2 ^ 31 + b2n v.learnDis * 2 ^ 30 + v.fid)) ∧
        (sfind vid.val s.cfl.vlan = none → t.rg .CFL_VT_DATA0 = 0#32 ∧ t.rg .CFL_VT_DATA1 = 0#32 ∧ t.rg .CFL_VT_DATA2 = 0#32)))

/-- R91, R92, R100 to R103, R105, R109, Table 03-3: a frame that arrives on a port takes the ingress steps in order: discarded in input state
DISABLED, by its VLAN, as an untrapped link-local address, in state MGMT or without targets, each under its own counter; refused buffer
admission, with no cell written; or admitted with N cells committed. -/
def Obligations.IngressAdmissionSteps : Prop :=
  ∀ (s : State) (p : Fin 14) (d : List Byte) (ts : Nat),
    regsRising s → arrives s p d → 64 ≤ d.length → s.rb Fx.CFL_CTL_EN = true → noRed s →
    let discarded := fun (k : Nat) => exec (.ingressAdmission p d ts) s = .next ((s.icnt p k).inUpd p fun x => { x with rx := some none })
    let local_ := macAt d 0 / 16 = 0x0180C200000
    let state := s.rf Fx.CFL_PORT_CFG_STATE p
    let cells := (s.maxLen p (decide (be16 d 12 = 0x8100)) + 127) / 128
    let reserve := if frameClass s p d < s.rf Fx.CFL_ADM_CFG_PRIO_CLS then s.rf Fx.CFL_ADM_CFG_RESERVE else 0
    let room := 0 < s.cfl.freeFd ∧ cells + reserve + (s.cfl.frames.map (·.commit)).sum ≤ s.cfl.freeCells
    let admitted := fun (t : State) (target : Nat → Prop) => exec (.ingressAdmission p d ts) s = .next t ∧
      ∃ f, t.cfl.frames = s.cfl.frames ++ [f] ∧ (t.inOf p).rx = some (some f.fid) ∧ s.frameOf f.fid = none ∧ f.inp = p.val ∧
        f.cls = frameClass s p d ∧ f.vid = frameVid s p d ∧ f.pcp = framePcp s p d ∧ f.commit = cells ∧ f.cells = 0 ∧ f.refc = 0 ∧
        f.writing = true ∧ f.admitUs = s.tbNs 0 / 1000 ∧ (∀ q : Fin 17, q.val ∈ f.stored ↔ target q) ∧
        t.cfl.freeCells = s.cfl.freeCells ∧ t.cfl.freeFd = s.cfl.freeFd - 1 ∧ t.cfl.out = s.cfl.out ∧ counted2 s t Fx.CFL_ICNT_COUNT p 0
    (state = 0 → discarded 3) ∧
    (state ≠ 0 → vlanRefuses s p d → discarded 2) ∧
    (state ≠ 0 → ¬ vlanRefuses s p d → local_ → (s.rg .CFL_TRAP).getLsbD (macAt d 0 % 16) = false → discarded 5) ∧
    (state = 1 → ¬ vlanRefuses s p d → ¬ local_ → discarded 3) ∧
    (state ≠ 0 → ¬ vlanRefuses s p d → local_ → (s.rg .CFL_TRAP).getLsbD (macAt d 0 % 16) = true → room →
      (s.rf Fx.CFL_CT_CFG_IN_EN).testBit p = false →
      ∃ t, admitted t (fun q => q = 14 + s.rf Fx.CFL_TRAP_DEST) ∧ counted2 s t Fx.CFL_ICNT_COUNT p 6) ∧
    (1 < state → ¬ vlanRefuses s p d → ¬ local_ → ∀ v, s.vlanOf (frameVid s p d) = some v →
      ((∀ q : Fin 17, ¬ isTarget s p q v (macAt d 0)) → discarded 5) ∧
      ((∃ q : Fin 17, isTarget s p q v (macAt d 0)) → ¬ room → discarded 1) ∧
      ((∃ q : Fin 17, isTarget s p q v (macAt d 0)) → room → (s.rf Fx.CFL_CT_CFG_IN_EN).testBit p = false →
        ∃ t, admitted t (fun q => isTarget s p q v (macAt d 0))))

/-- R94, R97, R110, R138: a stored frame whose FCS is bad is enqueued nowhere, its cells and descriptor are freed and it is counted in
FCS_ERR. With a good FCS it is enqueued at its target, holds its cells there, and its source is learned. -/
def Obligations.FrameEnd : Prop :=
  ∀ (s : State) (p : Fin 14) (d : List Byte) (f : Frame) (pb : Bool),
    regsRising s → arrives s p d → d.length + 4 ≤ s.maxLen p (decide (be16 d 12 = 0x8100)) → noRed s → receiving s p f → s.bpUsed p = false →
    let cells := (d.length + 4 + 127) / 128
    cells ≤ s.cfl.freeCells →
    (∃ t, exec (.frameEndAtInput p d .bad 0 pb .express) s = .next t ∧ t.cfl.out = s.cfl.out ∧
      t.cfl.frames = s.cfl.frames.filter (fun g => g.fid != f.fid) ∧ t.cfl.freeCells = s.cfl.freeCells ∧ t.cfl.freeFd = s.cfl.freeFd + 1 ∧
      t.cfl.fdb = s.cfl.fdb ∧ (t.inOf p).rx = none ∧ counted2 s t Fx.CFL_ICNT_COUNT p 4) ∧
    (∀ q : Fin 17, f.stored = [q.val] → ¬ (q.val = 1 ∧ s.p1IsPairLink = true) → s.portLink q = true →
      let g : Frame := { f with data := d, cells := cells, commit := 0, writing := false }
      s.sentLen g q ≤ s.maxLen q (decide (be16 (s.sentBytes g q) 12 = 0x8100)) → s.rb Fx.CFL_CTL_COMPAT = false →
      f.cls < 8 →
      let occupied := s.occupancy q f.cls
      0 < s.cfl.freeQe → occupied + cells ≤ s.rf Fx.CFL_OQ_CFG_LIMIT q f.cls →
      ∃ t, exec (.frameEndAtInput p d .good 0 false .express) s = .next t ∧
        (t.outOf q).queue f.cls = (s.outOf q).queue f.cls ++ [⟨f.fid, true, false⟩] ∧
        t.frameOf f.fid = some { g with refc := 1 } ∧ t.cfl.freeCells = s.cfl.freeCells - cells ∧ t.cfl.freeQe = s.cfl.freeQe - 1 ∧
        t.occupancy q f.cls = occupied + cells ∧ counted2 s t Fx.CFL_QCNT_COUNT q (16 * f.cls) ∧
        let src := macAt d 6
        (s.rb Fx.CFL_PORT_CFG_LEARN p = false ∨ src = 0 ∨ src / 2 ^ 40 % 2 = 1 → t.cfl.fdb = s.cfl.fdb) ∧
        ∀ v, s.vlanOf f.vid = some v → (v.learnDis = true → t.cfl.fdb = s.cfl.fdb) ∧
          (v.learnDis = false → s.rb Fx.CFL_PORT_CFG_LEARN p = true → src ≠ 0 → src / 2 ^ 40 % 2 = 0 →
            let way := wayOf s src v.fid
            (∀ w x, way w = some x → isKey src v.fid (way w) → (∀ u < w, ¬ isKey src v.fid (way u)) →
              t.cfl.fdb = if x.static then s.cfl.fdb
                else sins (4 * bucketOf src v.fid + w) { x with ports := 2 ^ p.val, age := 7 } s.cfl.fdb) ∧
            ((∀ w, ¬ isKey src v.fid (way w)) → ∀ w, way w = none → (∀ u < w, way u ≠ none) →
              t.cfl.fdb = sins (4 * bucketOf src v.fid + w) ⟨src, v.fid, 2 ^ p.val, false, 7⟩ s.cfl.fdb)))

/-- R114, R125, R171: an output that is idle or whose gap ends sends the head of its highest eligible class, and nothing where no class is
eligible and nothing is preempted. R115: a shaped class whose credit has recovered may be sent. R171, R170: at an examination an aged head is
discarded, counted in AGE_DROP, and its cells are freed. -/
def Obligations.OutputSelection : Prop :=
  (∀ (s : State) (p : Fin 17), s.variant.hasPort p = true → p.val ≠ 16 → (s.outOf p).cur = none →
    let u := s.outUpd p fun o => { o with gap := false }
    (∀ c : Fin 8, ∀ e rest f, (s.outOf p).queue c = e :: rest → s.frameOf e.fid = some f → (s.outOf p).sending e.fid = false → s.examHead p c f = none) →
    (∀ c : Fin 8, s.eligible p c = true → (∀ k : Fin 8, c < k → s.eligible p k = false) →
      (s.outOf p).preempted = none ∨ s.preemptableCls p c = false → ∀ e rest f, (s.outOf p).queue c = e :: rest → s.frameOf e.fid = some f →
      exec (.outputSelect p) s = .next { (u.outUpd p fun o =>
        { o with cur := some ⟨e.fid, c, e.cut, false, s.preemptableCls p c⟩, lastCls := c }) with
          out := s.out ++ [.frameStart p (s.sentBytes f p)] }) ∧
    ((∀ c : Fin 8, s.eligible p c = false) → (s.outOf p).preempted = none → exec (.outputSelect p) s = .next u)) ∧
  (∀ (s : State) (p : Fin 17) (c : Fin 8), s.variant.hasPort p = true → s.rb Fx.CFL_OQ_CFG_CBS_EN p c = true → s.gateOpen p c = true →
    (s.outOf p).cur ≠ none →
    exec (.creditRecovered p c) s = .next (s.outUpd p fun o => { o with credit := vupd o.credit c fun k => max k 0 })) ∧
  (∀ (s : State) (p : Fin 17) (c : Fin 8) (e : QEntry) (f : Frame),
    regsRising s → (s.outOf p).queue c = [e] → (∀ k : Fin 8, k ≠ c → (s.outOf p).queue k = []) → s.frameOf e.fid = some f → (s.outOf p).sending e.fid = false →
    f.launch = none → f.origin = .wire → f.refc = 1 → f.writing = false → s.bpUsed f.inp = false → s.cfl.residue = [] →
    let lim := s.rf Fx.CFL_AGE_LIM_US p c
    let age := s.tbNs 0 / 1000 - f.admitUs
    (lim = 0 ∨ age ≤ lim → exec (.ageExamination p) s = .next s) ∧
    (lim ≠ 0 → lim < age → ∃ t, exec (.ageExamination p) s = .next t ∧ (t.outOf p).queue c = [] ∧
      t.cfl.frames = s.cfl.frames.filter (fun g => g.fid != e.fid) ∧ t.cfl.freeCells = s.cfl.freeCells + f.cells ∧
      t.cfl.freeFd = s.cfl.freeFd + 1 ∧ t.cfl.freeQe = s.cfl.freeQe + 1 ∧ counted2 s t Fx.CFL_QCNT_COUNT p (16 * c.val + 4)))

/-- R137, R138, R150, R154: an output that ends a frame counts TX, takes it off its queue and frees its cells where no other output holds
it; for want of a cell, or on an uncorrectable word, it ends with a stomp and counts STOMPED. -/
def Obligations.FrameTransmitEndResult : Prop :=
  ∀ (s : State) (p : Fin 14) (x : Sending) (f : Frame) (how : TxEnd) (deferred : Bool) (ts : Nat) (c : Fin 8),
    regsRising s → (s.outOf p).cur = some x → x.cls = c.val → s.frameOf x.fid = some f → f.origin = .wire → f.launch = none → f.writing = false →
    (x.cut = true → s.sentLen f p ≤ s.maxLen p (decide (be16 (s.sentBytes f p) 12 = 0x8100))) →
    s.bpUsed f.inp = false → s.cfl.residue = [] → (s.macOf p).pauseDue = [] →
    let stomp := x.stomp || decide (how ≠ .complete)
    ∃ t, exec (.frameTransmitEnd (p.castLE (by decide)) how deferred ts) s = .next t ∧ t.out = s.out ++ [.frameEnd p stomp] ∧
      (t.outOf p).cur = none ∧ (t.outOf p).gap = true ∧ (t.outOf p).queue c = ((s.outOf p).queue c).filter (fun e => e.fid != x.fid) ∧
      counted2 s t Fx.CFL_QCNT_COUNT p (16 * c.val + 1) ∧ (stomp = true → counted2 s t Fx.CFL_QCNT_COUNT p (16 * c.val + 8)) ∧
      (how = .underrun → counted s t Fx.CFL_CT_UNDERRUN_COUNT p) ∧ t.cfl.freeQe = s.cfl.freeQe + 1 ∧
      (f.refc = 1 → t.cfl.frames = s.cfl.frames.filter (fun g => g.fid != x.fid) ∧ t.cfl.freeCells = s.cfl.freeCells + f.cells ∧
        t.cfl.freeFd = s.cfl.freeFd + 1) ∧
      (1 < f.refc → t.frameOf x.fid = some { f with refc := f.refc - 1 } ∧ t.cfl.freeCells = s.cfl.freeCells)

/-- R116 to R120, R122, R124 to R126: a change fixes its ConfigChangeTime at least 2 µs ahead and is withdrawn by CANCEL; a second CHANGE is rejected;
at its time the administrative list becomes operative at a cycle start. An entry's interval ends with the next entry, or with entry 0 of the
next cycle. A SetAndHold entry raises hold and a SetAndRelease entry lowers it. Verification sends at most three mPackets and then fails, or
succeeds with a response. A closed gate preempts the preemptable frame on the wire. -/
def Obligations.GatesAndPreemption : Prop :=
  (∀ (s : State) (m : Master) (p : Fin 14), live s → s.variant.hasPort p = true →
    let now := s.tbNs (s.rf Fx.CFL_GCL_ADMIN_CFG_TB p)
    let base := (s.rf Fx.CFL_GCL_ADMIN_BASE_SEC_HI_SEC p * 2 ^ 32 + s.rf Fx.CFL_GCL_ADMIN_BASE_SEC_LO_SEC p) * 1000000000
      + s.rf Fx.CFL_GCL_ADMIN_BASE_NS_NS p
    let cycle := s.rf Fx.CFL_GCL_ADMIN_CYCLE_NS p
    ((s.gateOf p).pending = false → ∃ t cct, exec (.gclChange m p) s = .next t ∧
      t = s.gateUpd p (fun g => { g with pending := true, cct := cct }) ∧ (now + 2000 ≤ base → cct = base) ∧
      (base < now + 2000 → 0 < cycle → now + 2000 ≤ cct ∧ cct < now + 2000 + cycle ∧ (cct - base) % cycle = 0 ∧ base ≤ cct)) ∧
    ((s.gateOf p).pending = true → exec (.gclChange m p) s = .next (s.reject m .rsvEnc (0x22818 + 0x40 * p) 1#32)) ∧
    ((s.gateOf p).extended = false → (s.gateOf p).operEn = false →
      exec (.gclCancel m p) s = .next (s.gateUpd p fun g => { g with pending := false, extended := false }))) ∧
  (∀ (s : State) (p : Fin 14), (∀ c : Fin 8, (s.outOf p).queue c = []) → (s.outOf p).cur ≠ none →
    let g := s.gateOf p
    let tb := s.rf Fx.CFL_GCL_ADMIN_CFG_TB p
    let opAt := fun (l : List (Nat × Nat × BitVec 8)) (i : Nat) => ((l[i]?).getD (0, 0, 0)).2.1
    let holdAt := fun (l : List (Nat × Nat × BitVec 8)) (i : Nat) => if opAt l i = 1 then true else if opAt l i = 2 then false else g.hold
    (g.pending = true → s.tbOos tb = false → s.tbNs tb < g.cct ∨ (s.tbNs tb = g.cct ∧ ∀ x ∈ s.adminList p, 0 < x.1) →
      exec (.gclConfigChangeTime p) s = .next (s.gateUpd p fun g =>
      { g with pending := false, extended := false, operEn := s.rb Fx.CFL_GCL_ADMIN_CFG_EN p, operTb := tb,
               operCycle := s.rf Fx.CFL_GCL_ADMIN_CYCLE_NS p, operExt := s.rf Fx.CFL_GCL_ADMIN_EXT_NS p, list := s.adminList p,
               entry := 0, cycleStart := g.cct, entryStart := g.cct, hold := if s.rb Fx.CFL_GCL_ADMIN_CFG_EN p then holdAt (s.adminList p) 0 else g.hold })) ∧
    (g.operEn = true → s.tbOos g.operTb = false → g.extended = false → g.pending = false → ∀ d op x, g.list[g.entry]? = some (d, op, x) →
      (g.entry + 1 < g.list.length → g.entryStart + d < g.cycleStart + g.operCycle →
        exec (.gateEntryChange p) s = .next (s.gateUpd p fun g =>
          { g with entry := g.entry + 1, entryStart := g.entryStart + d, hold := holdAt g.list (g.entry + 1) })) ∧
      (g.entry + 1 = g.list.length ∨ g.cycleStart + g.operCycle ≤ g.entryStart + d →
        exec (.gateEntryChange p) s = .next (s.gateUpd p fun g =>
          { g with entry := 0, cycleStart := g.cycleStart + g.operCycle, entryStart := g.cycleStart + g.operCycle,
                   hold := holdAt g.list 0 }))) ∧
    (g.operEn = false ∨ s.tbOos g.operTb = true → exec (.gateEntryChange p) s = .next s)) ∧
  (∀ (s : State) (p : Fin 10),
    let g := s.gateOf p
    let opAt := fun (i : Nat) => ((g.list[i]?).getD (0, 0, 0)).2.1
    (g.operEn = true → g.entry + 1 < g.list.length → opAt (g.entry + 1) = 1 →
      exec (.preemptionHold p true) s = .next (s.gateUpd p fun g => { g with hold := true })) ∧
    (g.operEn = true → opAt g.entry = 2 → exec (.preemptionHold p false) s = .next (s.gateUpd p fun g => { g with hold := false })) ∧
    (s.rb Fx.CFL_FP_CFG_EN p = true → s.rb Fx.CFL_FP_CFG_VERIFY_DIS p = false → s.variant.hasPort p = true → s.portLink p = true →
      (s.outOf p).verify < 3 →
      exec (.preemptionVerify p true) s = .next (s.outUpd p fun o => { o with verify := 3 }) ∧
      ((s.outOf p).verifyTx < 3 → exec (.preemptionVerify p false) s =
        .next ((s.outUpd p fun o => { o with verify := 2, verifyTx := o.verifyTx + 1 }).emit (.verify p))) ∧
      ((s.outOf p).verifyTx = 3 → exec (.preemptionVerify p false) s = .next (s.outUpd p fun o => { o with verify := 4 }))) ∧
    (regsRising s → ∀ x, (s.outOf p).cur = some x → x.preemptable = true → (s.outOf p).preempted = none → s.gateOpen p x.cls = false →
      (s.macOf p).pauseHeld = false → (s.macOf p).pauseDue = [] → (∀ c : Fin 8, s.eligible p c = false) →
      (∀ c : Fin 8, ∀ e rest, (s.outOf p).queue c = e :: rest → e.fid = x.fid) →
      ∃ t, exec (.preemption p) s = .next t ∧ (t.outOf p).cur = none ∧ (t.outOf p).preempted = some x ∧
        t.out = s.out ++ [.preempted p] ∧ counted s t Fx.CFL_FP_FRAG_TX_COUNT p ∧ (∀ c : Fin 8, (t.outOf p).queue c = (s.outOf p).queue c)))

/-- R132, R142 to R144, R172 to R175: a duplicate record lapses. The residue entry that waited longest expires: its frame loses the reference and
RESIDUE_DROP counts it. An audit is requested of the maintenance token, waits for it or is skipped; a sweep that holds it marks what nothing
holds and, once two sweeps are complete, reclaims what was marked already; it ends with the token released. -/
def Obligations.ResidueAndAudit : Prop :=
  (∀ (s : State) (i : Fin 2) (src : BitVec 48) (seq : BitVec 16), ∃ t, exec (.duplicateEntryLapse i src seq) s = .next t ∧
    t = { s with cfl := { s.cfl with dup := t.cfl.dup } } ∧
    ∀ e, e ∈ t.cfl.dup ↔ e ∈ s.cfl.dup ∧ ¬ (e.inst = i.val ∧ e.src = src.toNat ∧ e.seq = seq.toNat)) ∧
  (∀ (s : State) (r : Residue) (rest : List Residue) (f : Frame) (p : Fin 17) (c : Fin 8),
    regsRising s → s.cfl.residue = r :: rest → r.port = p.val → r.cls = c.val → s.frameOf r.fid = some f → f.origin = .wire → f.writing = false →
    s.bpUsed f.inp = false →
    ∃ t, exec .residueExpiry s = .next t ∧ t.cfl.residue = rest ∧ counted2 s t Fx.CFL_QCNT_COUNT p (16 * c.val + 6) ∧ t.cfl.out = s.cfl.out ∧
      (1 < f.refc → t.frameOf r.fid = some { f with refc := f.refc - 1 } ∧ t.cfl.freeCells = s.cfl.freeCells) ∧
      (f.refc = 1 → t.frameOf r.fid = none ∧ t.cfl.freeCells = s.cfl.freeCells + f.cells)) ∧
  (∀ s : State, s.rb Fx.CFL_EDDY_CFG_EN = true → s.lock = true → s.pwr.state = 0 →
    let skip := { s with cfl := { s.cfl with eddySkip := min (s.cfl.eddySkip + 1) 255 } }
    (s.cfl.eddyWaiting = true ∨ s.tok.holder = 5 → exec .eddyRequest s = .next skip) ∧
    (s.cfl.eddyWaiting = false → s.tok.holder ≠ 5 →
      (s.tok.holder = 0 → s.tok.fifo = [] → ∃ t, exec .eddyRequest s = .next t ∧ t.tok.holder = 5 ∧ t.cfl.eddyRunning = true) ∧
      ((s.tok.holder ≠ 0 ∨ s.tok.fifo ≠ []) → s.tok.fifo.length < 8 → exec .eddyRequest s =
        .next { s with tok := { s.tok with fifo := s.tok.fifo ++ [5] }, cfl := { s.cfl with eddyWaiting := true } }) ∧
      (8 ≤ s.tok.fifo.length → ∃ t, exec .eddyRequest s = .next t ∧ t.tok = s.tok ∧ t.cfl = skip.cfl))) ∧
  (∀ s : State, s.tok.holder = 5 →
    let orphan := fun (f : Frame) => f.writing = false ∧ f.refc = 0 ∧ (∀ p : Fin 17, (s.outOf p).sending f.fid = false) ∧
      ∀ r ∈ s.cfl.residue, r.fid ≠ f.fid
    (∃ t, exec .eddySweep s = .next t ∧ t.cfl.eddyRunning = true ∧ t.cfl.eddyWaiting = false ∧ t.tok = s.tok ∧ t.cfl.out = s.cfl.out ∧
      (∀ f ∈ s.cfl.frames, (orphan f → f.suspect = false → { f with suspect := true } ∈ t.cfl.frames) ∧
        (¬ orphan f → { f with suspect := false } ∈ t.cfl.frames)) ∧
      (s.cfl.eddySweeps < 2 → t.cfl.freeCells = s.cfl.freeCells ∧ t.cfl.freeFd = s.cfl.freeFd ∧
        t.cfl.frames.length = s.cfl.frames.length) ∧
      (2 ≤ s.cfl.eddySweeps → ∀ f ∈ s.cfl.frames, orphan f → f.suspect = true → (∀ g ∈ s.cfl.frames, g.fid = f.fid → g = f) →
        t.frameOf f.fid = none ∧ s.cfl.freeCells + f.cells ≤ t.cfl.freeCells)) ∧
    (s.cfl.eddyRunning = true → s.cfl.eddyAny = false → s.tok.fifo = [] → exec .eddySweepComplete s =
      .next { s with tok := ⟨0, []⟩, cfl := { s.cfl with eddyRunning := false, eddySweeps := s.cfl.eddySweeps + 1 } }) ∧
    (s.cfl.eddyRunning = true → ∃ t, exec .eddySweepComplete s = .next t ∧ t.cfl.eddyRunning = false ∧
      t.cfl.eddySweeps = s.cfl.eddySweeps + 1 ∧ t.tok.holder = s.tok.fifo.headD 0 ∧ t.tok.fifo = s.tok.fifo.tail))

/-- R156, R157, R159, R161, R164 to R167, Table 04-4: a frame enters an enabled window with its bytes edited by the rule that takes effect, or
unedited where the EtherType selects none; toward a port without link, or while the window is suspended, it is counted in NOLINK_DROP. A frame
whose FCS is good leaves at the other port, its LATCH data goes into the pool and the sequence word is incremented; a bad one leaves with a
stomp, nothing is committed and FCS_ERR counts it. -/
def Obligations.TransitWindows : Prop :=
  (∀ (s : State) (w : Fin 4) (fromA : Bool) (d : List Byte), regsRising s →
    let dir := if fromA then 0 else 1
    let inp := if fromA then s.rf Fx.CFL_TW_CFG_PORT_A w else s.rf Fx.CFL_TW_CFG_PORT_B w
    let away := if fromA then s.rf Fx.CFL_TW_CFG_PORT_B w else s.rf Fx.CFL_TW_CFG_PORT_A w
    let passes := fun (t : State) (e : List Byte) => exec (.transitFrameStart w fromA d) s = .next t ∧
      t.twOf w = (if fromA then { s.twOf w with frAB := some (d, e) } else { s.twOf w with frBA := some (d, e) }) ∧
      counted2 s t Fx.CFL_TW_CNT_COUNT w (if fromA then 0 else 1) ∧ t.pool = s.pool ∧ t.cfl.frames = s.cfl.frames
    (windowUp s w → s.rf Fx.CFL_TW_ETYPE_ETYPE w = 0 ∨ be16 d 12 ≠ s.rf Fx.CFL_TW_ETYPE_ETYPE w → ∃ t, passes t d) ∧
    (windowUp s w → ∀ r : Fin 32, loneRule s w dir r d →
      let ofs := s.rf Fx.CFL_TW_RULE0_OFS w r
      let len := s.rf Fx.CFL_TW_RULE0_LEN w r + 1
      let op := s.rf Fx.CFL_TW_RULE0_OP w r
      let pool := s.poolRd (s.rf Fx.CFL_TW_RULE3_POOL w r) len
      ofs + len ≤ d.length → ∃ t e, passes t e ∧ counted2 s t Fx.CFL_TW_CNT_COUNT w 2 ∧ e.length = d.length ∧
        (∀ i, i < ofs ∨ ofs + len ≤ i → e.getD i 0 = d.getD i 0) ∧
        (op = 0 → e = d) ∧
        (op = 1 → ∀ i < len, e.getD (ofs + i) 0 = pool.getD i 0) ∧
        (op = 2 → leNat (sliceOf e ofs len) = (leNat (sliceOf d ofs len) + leNat pool) % 2 ^ (8 * len)) ∧
        (op = 3 → ∀ i < len, e.getD (ofs + i) 0 = d.getD (ofs + i) 0 ||| pool.getD i 0) ∧
        (op = 4 → leNat (sliceOf e ofs len) = (leNat (sliceOf d ofs len) + s.rf Fx.CFL_TW_RULE3_ADDEND w r) % 2 ^ (8 * len))) ∧
    (s.rb Fx.CFL_TW_CFG_EN w = true → s.portLink inp = true → s.phyOn inp = true →
      s.twSuspended w = true ∨ (s.portLink away = false ∧ s.rb Fx.CFL_TW_CFG_AUTO_LOOP w = false) →
      exec (.transitFrameStart w fromA d) s = .next (s.bump Fx.CFL_TW_CNT_COUNT 1 w 7))) ∧
  (∀ (s : State) (w : Fin 4) (d e : List Byte) (full : Bool) (ts : Nat), regsRising s → scanon (0#8) 0 s.pool = true →
    windowUp s w → (s.twOf w).frAB = some (d, e) → d.length + 4 ≤ 1522 → s.rb Fx.CFL_TW_CFG_COPY_EN w = false →
    let away := s.rf Fx.CFL_TW_CFG_PORT_B w
    let ends := fun (t : State) (fcs : FcsKind) (stomp : Bool) => exec (.transitFrameEnd w true fcs full ts) s = .next t ∧
      t.out = s.out ++ [.transit away e stomp] ∧ (t.twOf w).frAB = none
    (∀ fcs, fcs ≠ .good → ∃ t, ends t fcs true ∧ t.pool = s.pool ∧ counted2 s t Fx.CFL_TW_CNT_COUNT w 4) ∧
    (be16 d 12 ≠ s.rf Fx.CFL_TW_ETYPE_ETYPE w → ∃ t, ends t .good false ∧ t.pool = s.pool ∧ t.regs = s.regs) ∧
    (∀ r : Fin 32, loneRule s w 0 r d → s.rf Fx.CFL_TW_RULE0_OP w r = 0 →
      let ofs := s.rf Fx.CFL_TW_RULE0_OFS w r
      let len := s.rf Fx.CFL_TW_RULE0_LEN w r + 1
      let at_ := s.rf Fx.CFL_TW_RULE3_POOL w r
      let word := s.rf Fx.CFL_TW_SEQ_ADDR w * 8
      ofs + len ≤ d.length → s.mirrorProt at_ len = false → s.bankSt (poolBank at_) = 0 → at_ + len ≤ 0x1FFF00 →
      (full = true → ∃ t, ends t .good false ∧ t.pool = s.pool ∧ counted2 s t Fx.CFL_TW_CNT_COUNT w 5) ∧
      (full = false → s.rb Fx.CFL_TW_SEQ_EN w = false → ∃ t, ends t .good false ∧ rdBytes t.pool at_ len = sliceOf d ofs len ∧
        ∀ a, a < at_ ∨ at_ + len ≤ a → sget 0#8 a t.pool = sget 0#8 a s.pool) ∧
      (full = false → s.rb Fx.CFL_TW_SEQ_EN w = true → s.mirrorProt word 4 = false → s.bankSt (poolBank word) = 0 → word + 4 ≤ at_ ∨ at_ + len ≤ word → word + 4 ≤ 0x1FFF00 →
        ∃ t, ends t .good false ∧ rdBytes t.pool at_ len = sliceOf d ofs len ∧
          leNat (rdBytes t.pool word 4) = (leNat (rdBytes s.pool word 4) + 1) % 2 ^ 32 ∧
          ∀ a, (a < at_ ∨ at_ + len ≤ a) → (a < word ∨ word + 4 ≤ a) → sget 0#8 a t.pool = sget 0#8 a s.pool)))


/-! ### The MACs (spec/05) -/

/-- R180 to R186: a collision sends jam and starts a back-off below 2^min(n, 10) slot times after the n-th; a late or a sixteenth one
ends the frame. When the back-off ends the same frame starts again. A beacon starts a PLCA cycle, its loss ends PLCA, and the coordinator
sends one after the last node. MDIO operations are served one at a time, in ascending order of port; a PHY that does not answer reads 0xFFFF. -/
def Obligations.SharedMediaAndManagement : Prop :=
  (∀ (s : State) (p : Fin 14) (x : Sending), (s.outOf p).cur = some x → s.shared p = true → s.portLink p = true →
    let n := (s.macOf p).collisions + 1
    (n < 16 → ∃ r < 2 ^ min n 10, exec (.collision p false) s = .next ({ ((s.outUpd p fun o => { o with cur := none, gap := true }).macUpd p fun m =>
      { m with collisions := n, backoff := true, backoffSlots := r, retry := some (x.fid, x.cls) }) with
        out := s.out ++ [.jam p], freeCtr := s.freeCtr + 1 })) ∧
    (∀ (late : Bool) (f : Frame), late = true ∨ 16 ≤ n → s.frameOf x.fid = some f → f.origin = .wire → f.refc = 1 → f.writing = false →
      s.bpUsed f.inp = false → s.cfl.residue = [] → x.cls < 8 →
      ∃ t, exec (.collision p late) s = .next t ∧ (t.outOf p).cur = none ∧ t.cfl.frames = s.cfl.frames.filter (fun g => g.fid != x.fid) ∧
        (t.outOf p).queue x.cls = ((s.outOf p).queue x.cls).filter (fun e => e.fid != x.fid) ∧
        (t.macOf p).count (if late then 31 else 30) = ((s.macOf p).count (if late then 31 else 30) + 1) % 2 ^ 64 ∧
        (t.macOf p).collisions = 0 ∧ t.out = s.out ++ [.jam p])) ∧
  (∀ (s : State) (p : Fin 14) (e : QEntry) (c : Fin 8) (f : Frame) (rest : List QEntry),
    (s.macOf p).backoff = true → (s.macOf p).retry = some (e.fid, c.val) → (s.outOf p).cur = none → (s.outOf p).queue c = e :: rest →
    s.frameOf e.fid = some f → s.portLink p = true → s.phyOn p = true → (s.macOf p).pauseHeld = false → (s.macOf p).txLpi = false →
    (s.macOf p).waking = false → (s.macOf p).retraining = false → s.plcaMay p = true →
    ∃ t, exec (.backoffExpiry p) s = .next t ∧ t.out = s.out ++ [.frameStart p (s.sentBytes f p)] ∧ (t.macOf p).backoff = false ∧
      (∃ x, (t.outOf p).cur = some x ∧ x.fid = e.fid ∧ x.cls = c.val) ∧ t.cfl.frames = s.cfl.frames) ∧
  (∀ (s : State) (k : Fin 4), let p := 10 + k.val
    s.portLink p = true → s.rb Fx.MAC_PLCA_CFG_EN p = true → (s.outOf p).cur ≠ none →
    let id := s.rf Fx.MAC_PLCA_CFG_NODE_ID p
    (id ≠ 0 →
      exec (.plcaBeaconReceived k) s = .next (s.macUpd p fun m => { m with plcaActive := true, plcaPos := 0, plcaSent := 0 }) ∧
      ((s.macOf p).plcaActive = true → exec (.plcaBeaconLoss k) s =
        .next (s.macUpd p fun m => { m with plcaActive := false, plcaLoss := (m.plcaLoss + 1) % 65536 }))) ∧
    (id = 0 → (s.macOf p).plcaPos + 1 = s.rf Fx.MAC_PLCA_CFG_NODE_CNT p ∨ (s.macOf p).plcaActive = false →
      exec (.plcaTransmitOpportunity k) s =
        .next ((s.emit (.beacon p)).macUpd p fun m => { m with plcaActive := true, plcaPos := 0, plcaSent := 0 }))) ∧
  (∀ (s : State) (m : Master) (q : Fin 8) (a r : Fin 32) (v : BitVec 16), live s → s.variant.hasPort (q.val + 2) = true →
    let p := q.val + 2
    let start := fun (o : MdioOp) => (s.macUpd p fun m => { m with mdio := some o, mdioActive := true }).emit (.mdio p o.write a r o.data)
    let word := fun (op data : Nat) => BitVec.ofNat 32 (op * 2 ^ 30 + a.val * 2 ^ 25 + r.val * 2 ^ 20 + data)
    ((∀ k : Fin 14, (s.macOf k).mdio = none ∧ (s.macOf k).mdioActive = false) →
      exec (.mdioWrite m q a r v) s = .next (start ⟨true, a, r, v.toNat⟩) ∧ exec (.mdioRead m q a r) s = .next (start ⟨false, a, r, 0⟩)) ∧
    (∀ k : Fin 14, k.val ≠ p → (s.macOf k).mdioActive = true → (s.macOf p).mdio = none →
      exec (.mdioRead m q a r) s = .next (s.macUpd p fun m => { m with mdio := some ⟨false, a, r, 0⟩ })) ∧
    ((s.macOf p).mdio.isSome = true → exec (.mdioRead m q a r) s = .next (s.reject m .rsvEnc (0x30048 + 0x400 * p) (word 2 0)) ∧
      exec (.mdioWrite m q a r v) s = .next (s.reject m .rsvEnc (0x30048 + 0x400 * p) (word 1 v.toNat))) ∧
    (∀ (o : MdioOp) (ans : Option (BitVec 16)), (s.macOf p).mdio = some o → (s.macOf p).mdioActive = true →
      (∀ k : Fin 14, k.val ≠ p → (s.macOf k).mdio = none ∧ (s.macOf k).mdioActive = false) →
      exec (.mdioComplete ans) s = .next (s.macUpd p fun m =>
        { m with mdio := none, mdioActive := false, mdioData := if o.write then m.mdioData else (ans.getD 0xFFFF#16).toNat })))

/-- R187 to R190, R197 to R204: low-power idle is entered with empty queues and left for a gate, an enqueue or a PAUSE; a new wake time
is taken at the next entry. A PAUSE hold expires and a PAUSE is repeated under back-pressure. A lost signal starts one retrain, which ends with
RETRAIN_OK or with the link down; a PHY's report brings it down at once; loopback, its end and CNT_CLR act on the port, and the low word of a
counter latches the high one. -/
def Obligations.LinkPauseAndIdle : Prop :=
  ∀ (s : State) (p : Fin 10),
    let m := s.macOf p
    let upd := fun (f : Mac → Mac) => s.macUpd p f
    let q : Fin 14 := p.castLE (by decide)
    let idle := ∀ c : Fin 8, (s.outOf p).queue c = []
    let cnt := fun (t : State) (j : Nat) => (t.macOf p).count j = (m.count j + 1) % 2 ^ 64
    let down := fun (t : State) => (t.macOf p).link = false ∧ (t.macOf p).rate = 0 ∧ (t.macOf p).retraining = false ∧ counted s t Fx.MAC_LINK_CNT_DOWN p
    s.variant.hasPort p = true → live s → (s.inOf p).rx = none →
    (s.eeeOn p = true → m.txLpi = false → m.waking = false → m.retraining = false → (s.outOf p).cur = none → (s.outOf p).preempted = none →
      m.pauseDue = [] → idle → (s.gateOf p).operEn = false →
      ∃ t, exec (.eeeLpiEntry p) s = .next t ∧ (t.macOf p).txLpi = true ∧ (t.macOf p).twForce = m.twNext ∧ cnt t 34) ∧
    (m.txLpi = true → exec (.eeeWake p) s = .next (upd fun m => { m with txLpi := false, waking := true })) ∧
    (m.waking = true → m.pauseDue = [] → (s.outOf p).cur ≠ none → exec (.eeeWakeComplete p) s = .next (upd fun m => { m with waking := false })) ∧
    (∀ (b : Master) (tw : BitVec 16), 1 ≤ tw.toNat → tw.toNat ≤ 1000 →
      exec (.eeeTwWrite b p tw) s = .next (upd fun m => { m with twNext := tw.toNat })) ∧
    (s.portLink p = true → m.loop = false → m.rxLpi = false →
      ∃ t, exec (.partnerLpi p true) s = .next t ∧ (t.macOf p).rxLpi = true ∧ cnt t 20) ∧
    (m.pauseHeld = true → (s.outOf p).cur ≠ none → exec (.pauseHoldExpiry p) s = .next (upd fun m => { m with pauseHeld := false, pauseQuanta := 0 })) ∧
    ((s.inOf p).bp = true → s.rb Fx.MAC_PAUSE_TX_EN p = true → s.portLink p = true → m.txLpi = false → m.waking = false → m.retraining = false →
      (s.outOf p).cur = none → ∃ t, exec (.pauseRepeat p) s = .next t ∧ t.out = s.out ++ [.pauseFrame p (s.rf Fx.MAC_PAUSE_QUANTA p)] ∧ cnt t 27) ∧
    (s.portLink p = true → m.loop = false → m.retraining = false →
      exec (.serdesSignalLoss p none) s = .next (upd fun m => { m with retraining := true }) ∧
      (∀ b, exec (.retrain b q none) s = .next (upd fun m => { m with retraining := true })) ∧
      ∀ d, ∃ t, exec (.serdesSignalLoss p (some d)) s = .next t ∧ (t.macOf p).retraining = true ∧ (t.macOf p).link = m.link ∧ cnt t 14) ∧
    (regsRising s → m.retraining = true → ∃ t, exec (.retrainTimeout p) s = .next t ∧ down t) ∧
    (regsRising s → m.retraining = true → m.loop = false → m.pauseDue = [] → (s.outOf p).cur ≠ none → ∀ (r : Fin 7) (h : Bool),
      ∃ t, exec (.linkUp p r h) s = .next t ∧ t.mac = (upd fun m => { m with retraining := false }).mac ∧ t.hst = s.hst ∧
        counted s t Fx.MAC_LINK_CNT_RETRAIN_OK p) ∧
    (m.link = false → m.retraining = false → m.loop = false → s.rb Fx.MAC_CFG_EN p = true → s.phyOn p = true → ∀ (r : Fin 7) (h : Bool), s.linkFits p r h = true →
      ∃ t, exec (.linkUp p r h) s = .next t ∧ (t.macOf p).link = true ∧ (t.macOf p).rate = r.val ∧ (t.macOf p).half = h) ∧
    (regsRising s → m.link = true → m.loop = false → s.rf Fx.MAC_CFG_MODE p = 0 → ∃ t, exec (.phyLinkDown p) s = .next t ∧ down t) ∧
    (m.link = true → m.loop = false → ∀ b, exec (.loopOn b q) s = .next (upd fun m => { m with loop := true, retraining := false })) ∧
    (regsRising s → m.loop = true → ∀ b, ∃ t, exec (.loopOff b q) s = .next t ∧ (t.macOf p).loop = false ∧ down t) ∧
    (∀ b, exec (.cntClr b q) s = .next (upd fun m => { m with cnt := [] })) ∧
    (∀ b (j : Fin 35), exec (.macCounterLowRead b q j) s = .next ((upd fun m => { m with cntLatch := sput 0 j (m.count j / 2 ^ 32) m.cntLatch }).emit
      (.readData b (0x30280 + 0x400 * p + 8 * j) 4 (m.count j % 2 ^ 32))))


/-! ### Time bases (spec/06) -/

/-- R213 to R216, R219, R220, R223, R226, R227, Table 06-1: STEP and SET move the time and cancel a slew unless a guard refuses them, and a refused
step changes no time base; SLEW and SLEW_STOP set the remaining slew; SERVE_SWITCH keeps served time within 2^-16 ns; OUT_OF_SERVICE and
IN_SERVICE take the time base out and back; a rate write sets ADJ. SET, SERVE_SWITCH, OUT_OF_SERVICE and IN_SERVICE
are rejected with RSV_ENC in the cases of R215. Time bases 1 to 7. -/
def Obligations.TimeBaseCommands : Prop :=
  ∀ (s : State) (m : Master) (n : Fin 8), live s → n ≠ 0 → regsRising s →
    let t := s.tbOf n
    let frac : Nat := s.rf Fx.TB_ADJ_FRAC_FRAC n * 2 ^ 16
    let ns := s.rf Fx.TB_ADJ_NS_NS n
    let amount : Int := (BitVec.ofNat 32 ns).toInt * 2 ^ 32 + frac
    let set : Nat := (s.rf Fx.TB_ADJ_SEC_HI_SEC n * 2 ^ 32 + s.rf Fx.TB_ADJ_SEC_LO_SEC n) * 1000000000 * 2 ^ 32 + ns * 2 ^ 32 + frac
    let size : Int := 2 ^ 48 * 1000000000 * 2 ^ 32
    let unserved := ∀ p : Fin 8, s.rb Fx.TB_CFG_SHADOW_EN p = false
    let refuses := fun (a : Int) => s.rb Fx.TB_CFG_GUARDED n = true ∧ t.oosCmd = false ∧ (s.rf Fx.TB_GUARD_NS n : Int) * 2 ^ 32 < a.natAbs
    let rejected := fun (c : Instr) (op : Nat) => exec c s = .next (s.reject m .rsvEnc (0x40008 + 0x100 * n) (BitVec.ofNat 32 op))
    let moved := fun (c : Instr) (a : Int) =>
      (¬ refuses a → ∃ u, exec c s = .next u ∧ (u.tbOf n).raw = ((t.raw + a) % size).toNat ∧ (u.tbOf n).slewRem = 0 ∧
        counted s u Fx.TB_CNT_STEPS n ∧ (∀ k : Fin 8, k ≠ n → u.tbOf k = s.tbOf k)) ∧
      (refuses a → ∃ u, exec c s = .next u ∧ u.tb = s.tb ∧ u.rb Fx.TB_STS_REFUSED n = true ∧ counted s u Fx.TB_CNT_REFUSED n)
    (unserved → moved (.tbStep m n) amount) ∧
    (unserved → ns < 1000000000 → moved (.tbSet m n) ((set : Int) - t.raw)) ∧
    (1000000000 ≤ ns → rejected (.tbSet m n) 2) ∧
    exec (.tbSlew m n) s = .next (s.tbUpd n fun t => { t with slewRem := amount }) ∧
    exec (.tbSlewStop m n) s = .next (s.tbUpd n fun t => { t with slewRem := 0 }) ∧
    (s.rb Fx.TB_CFG_SHADOW_EN n = true →
      let other := if t.primary = n.val then s.rf Fx.TB_CFG_SHADOW n else n.val
      let diff : Int := (s.tbTime n : Int) - (s.tbOf other).raw
      ((s.tbOf other).oosCmd = true → rejected (.tbServeSwitch m n) 5) ∧
      ((s.tbOf other).oosCmd = false → (diff / 65536).natAbs ≤ 1000000000 * 65536 → ∃ u, exec (.tbServeSwitch m n) s = .next u ∧
        u.tb = (s.tbUpd n fun t => { t with ofs := diff / 65536, ofsAcc := 0, primary := other }).tb) ∧
      ((s.tbOf other).oosCmd = false → 1000000000 * 65536 < (diff / 65536).natAbs → ∃ u, exec (.tbServeSwitch m n) s = .next u ∧
        u.tb = s.tb ∧ u.rb Fx.TB_STS_SW_REFUSED n = true)) ∧
    (s.rb Fx.TB_CFG_SHADOW_EN n = false → rejected (.tbServeSwitch m n) 5) ∧
    (t.oosCmd = false → rejected (.tbInService m n) 7 ∧ (unserved → ∃ u, exec (.tbOutOfService m n) s = .next u ∧
      u.tb = (s.tbUpd n fun t => { t with oosCmd := true }).tb ∧ u.tbOos n = true)) ∧
    (t.oosCmd = true → rejected (.tbOutOfService m n) 6 ∧ (unserved → ∃ u, exec (.tbInService m n) s = .next u ∧
      u.tb = (s.tbUpd n fun t => { t with oosCmd := false }).tb ∧ u.tbOos n = false)) ∧
    (∀ adj : Word, -2147483 ≤ adj.toInt → adj.toInt ≤ 2147483 → ∃ u, exec (.tbRateWrite m n adj) s = .next u ∧ onlyRegs s u ∧
      u.rg .TB_RATE n = adj)

/-- R206, R208, R209, R210, R211, R212, R224: a snapshot captures the raw counters, offsets and primaries of all eight time bases; a read
of TB_NOW returns the nanoseconds and latches seconds and fraction for its own bus. On an empty queue one 250 MHz edge passes: an unserved
time base with no slew advances by 4 ns × (1 + ADJ × 2^-32) (the empty queue's edge: DESIGN CHOICE, log entry 52). A slew and a served offset
land exactly on their ends. -/
def Obligations.TimeBaseReadingAndAdvance : Prop :=
  (∀ (s : State) (m : Master) (n : Fin 8), live s →
    let u := s.tbTime n
    (∃ t, exec (.tbSnapshot m n) s = .next t ∧ t = { s with tb := t.tb } ∧ ∀ k : Fin 8, t.tbOf k = { s.tbOf k with
      snapRaw := (s.tbOf k).raw, snapOfs := (if s.rb Fx.TB_CFG_SHADOW_EN k then (s.tbOf k).ofs else 0),
      snapPrimary := (if s.rb Fx.TB_CFG_SHADOW_EN k then (s.tbOf k).primary else k.val) }) ∧
    exec (.tbNowRead m n) s = .next ((s.tbUpd n fun t =>
      if m = .pcie then { t with latchPcie := ⟨u / 2 ^ 32 / 1000000000 % 2 ^ 48, u / 2 ^ 16 % 2 ^ 16⟩ }
      else { t with latchQspi := ⟨u / 2 ^ 32 / 1000000000 % 2 ^ 48, u / 2 ^ 16 % 2 ^ 16⟩ }).emit
        (.readData m (0x40010 + 0x100 * n) 4 (u / 2 ^ 32 % 1000000000))) ∧
    exec (.slewComplete n) s = .next (s.tbUpd n fun t =>
      { t with raw := (((t.raw : Int) + t.slewRem) % (2 ^ 48 * 1000000000 * 2 ^ 32)).toNat, slewRem := 0 }) ∧
    exec (.serveSlewComplete n) s = .next (s.tbUpd n fun t => { t with ofs := 0, ofsAcc := 0 })) ∧
  (∀ (s : State) (n : Fin 8), s.pending = [] → s.clk.lock.testBit 2 = true → s.pwr.state = 0 → s.rb Fx.TB_CFG_SHADOW_EN n = false →
    (s.tbOf n).slewRem = 0 → ∃ t, step s = .next t ∧ t.pending = [] ∧ t.regs = s.regs ∧ t.pool = s.pool ∧
      (t.tbOf n).raw = (((s.tbOf n).raw : Int) + 4 * 2 ^ 32 + 4 * (s.rg .TB_RATE n).toInt).toNat % (2 ^ 48 * 1000000000 * 2 ^ 32)) ∧
  (∀ s : State, s.pending = [] → s.clk.lock.testBit 2 = false → step s = .next s)

/-- R217, R227, R233, R237 to R239, Table 06-3: a selected edge at an enabled capture unit is stored, or counted in LOST while four entries are
held or its time base is out of service, and a read removes the oldest entry. A pulse train makes its active edge once when its instant is
reached, whatever a step passes over, and its inactive edge WIDTH later. A queue head whose launch time, less its lead, is reached becomes
eligible under condition 4. -/
def Obligations.CapturePulseAndLaunch : Prop :=
  (∀ (s : State) (k : Fin 4) (rising : Bool) (at_ : Nat), regsRising s → s.rb Fx.TB_CAP_CFG_EN k = true →
    let edge := s.rf Fx.TB_CAP_CFG_EDGE k
    let off := s.tbOos (s.rf Fx.TB_CAP_CFG_TB k)
    let cap := s.capOf k
    (edge = (if rising then 2 else 1) → exec (.captureEdge k rising at_) s = .next s) ∧
    (edge = 3 ∨ edge = (if rising then 1 else 2) →
      (off = false → cap.fifo.length < 4 → exec (.captureEdge k rising at_) s = .next (s.capUpd k fun c => { c with fifo := c.fifo ++ [at_] })) ∧
      (off = true ∨ 4 ≤ cap.fifo.length → ∃ t, exec (.captureEdge k rising at_) s = .next t ∧ onlyRegs s t ∧ counted s t Fx.TB_CAP_STS_LOST k))) ∧
  (∀ (s : State) (m : Master) (k : Fin 4), live s →
    let address := 0x40084 + 0x20 * k.val
    ((s.capOf k).fifo = [] → exec (.tbCapRead m k) s = .next (s.emit (.readData m address 4 0xFFFFFFFF))) ∧
    (∀ u rest, (s.capOf k).fifo = u :: rest → exec (.tbCapRead m k) s = .next ((s.capUpd k fun _ =>
      ⟨rest, u / 2 ^ 16 / 1000000000 % 2 ^ 48, u % 2 ^ 16⟩).emit (.readData m address 4 (u / 2 ^ 16 % 1000000000))))) ∧
  (∀ (s : State) (k : Fin 4), (s.plsOf k).running = true →
    let tb := s.rf Fx.TB_PLS_CFG_TB k
    let now := s.tbNs tb
    let start := (s.rf Fx.TB_PLS_START_SEC_HI_SEC k * 2 ^ 32 + s.rf Fx.TB_PLS_START_SEC_LO_SEC k) * 1000000000 + s.rf Fx.TB_PLS_START_NS_NS k
    let period := s.rf Fx.TB_PLS_PERIOD_NS k
    let next := (s.plsOf k).nextK
    (s.tbOos tb = true → ∀ a, exec (.pulseEdge k a) s = .next s) ∧
    (s.tbOos tb = false → 0 < period →
      (now < start + next * period → exec (.pulseEdge k true) s = .next s) ∧
      (start + next * period ≤ now → ∃ j, exec (.pulseEdge k true) s = .next (s.plsUpd k fun u => { u with active := true, nextK := j }) ∧
        now < start + j * period ∧ start + j * period ≤ now + period ∧ next < j) ∧
      ((s.plsOf k).active = true → start + (next - 1) * period + s.rf Fx.TB_PLS_WIDTH_NS k ≤ now →
        exec (.pulseEdge k false) s = .next (s.plsUpd k fun u => { u with active := false })))) ∧
  (∀ (s : State) (p : Fin 17) (c : Fin 8) (e : QEntry) (rest : List QEntry) (f : Frame) (tb lead : Nat) (l : Int),
    (s.outOf p).queue c = e :: rest → s.frameOf e.fid = some f → f.launch = some (tb, l) → s.tbOos tb = false → (s.outOf p).cur ≠ none →
    (l ≤ s.tbNs tb + lead → exec (.launchTimeReached (.output p c) lead) s =
      .next (s.outUpd p fun o => o.setQueue c ({ e with ripe := true } :: rest))) ∧
    (s.tbNs tb + lead < l → exec (.launchTimeReached (.output p c) lead) s = .next s))


/-! ### The Geyser bus (spec/07) -/

/-- R251 to R256, Tables 07-1 to 07-5: an own DATA slot in SYNC sends the payload read from the pool 2000 ns before it, or read then. A frame
with a bad CRC is counted in CRC_ERR alone; a DATA frame that passes every check writes its payload and a status word of AGE 0. A slot of
another node that closes without an accepted frame counts GYS_EMPTY and adds 1 to its AGE, up to 255. -/
def Obligations.BusSlots : Prop :=
  (∀ (s : State) (c : Fin 2) (n : Fin 64), regsRising s → inSync s c → slotIs s c n 2 (s.rf Fx.GYS_CFG_NODE) → normalCycle s c →
    let pool := s.rf Fx.GYS_SLOT_D_POOL c n * 8
    let len := s.rf Fx.GYS_SLOT_D_LEN c n
    let sends := fun (i : Instr) (d : List Byte) => ∃ t, exec i s = .next t ∧ t.pool = s.pool ∧ counted2 s t Fx.GYS_CH_CNT_COUNT c 0 ∧
      t.out = s.out ++ [.gysFrame c (busFrame 2 (s.rf Fx.GYS_CFG_NODE) c n (b2n s.gys.first) s.gys.cyc (s.rf Fx.GYS_CFG_SCHED_ID) d)]
    s.bankSt (poolBank pool) = 0 → s.bankSt (poolBank (pool + 8)) = 0 →
    exec (.slotPayloadFetch c n) s = .next (s.gysChUpd c fun x => { x with fetched := sins n.val (rdBytes s.pool (pool + 8) len) x.fetched }) ∧
    (∀ ts, sfind n.val (s.gysChOf c).fetched = none → sends (.slotTransmit c n false ts) (rdBytes s.pool (pool + 8) len)) ∧
    (∀ ts d, sfind n.val (s.gysChOf c).fetched = some d → sends (.slotTransmit c n false ts) d)) ∧
  (∀ (s : State) (c : Fin 2) (bytes : List Byte) (ago : Nat), regsRising s → (s.gysChOf c).mode = 1 →
    crc32c (bytes.take (bytes.length - 4)) ≠ leNat (bytes.drop (bytes.length - 4)) → 16 ≤ bytes.length →
    ∃ t, exec (.gysFrameReceive c true bytes ago) s = .next t ∧ onlyRegs s t ∧ counted2 s t Fx.GYS_CH_CNT_COUNT c 2) ∧
  (∀ (s : State) (c : Fin 2) (n : Fin 64) (owner : Fin 16) (payload : List Byte) (ago : Nat) (first : Bool),
    regsRising s → scanon (0#8) 0 s.pool = true → inSync s c → slotIs s c n 2 owner → owner.val ≠ s.rf Fx.GYS_CFG_NODE → normalCycle s c →
    let pool := s.rf Fx.GYS_SLOT_D_POOL c n * 8
    let start := s.rf Fx.GYS_SLOT_T_START c n
    let late := s.rf Fx.GYS_CYCLE_NS < start + (26 + s.rf Fx.GYS_SLOT_D_LEN c n) * 50 + s.rf Fx.GYS_TIMING_GUARD + 200
    let e : Int := (s.gys.ofs / 2 ^ 24 : Nat) - (ago + calRx s c) - start * 256 - busDelay s c
    payload.length = s.rf Fx.GYS_SLOT_D_LEN c n → s.gys.cyc < 2 ^ 32 → s.bankSt (poolBank pool) = 0 → s.bankSt (poolBank (pool + 8)) = 0 →
    pool + 8 + payload.length ≤ 0x1FFF00 →
    (2 * e.natAbs ≤ s.rf Fx.GYS_TIMING_GUARD * 256 → 2 * (s.rf Fx.GYS_TIMING_GUARD * 256) < s.rf Fx.GYS_CYCLE_NS * 256 →
      ∃ t, exec (.gysFrameReceive c true (busFrame 2 owner c n (b2n first) s.gys.cyc (s.rf Fx.GYS_CFG_SCHED_ID) payload) ago) s = .next t ∧
        n.val ∈ (t.gysChOf c).acc ∧ t.gys.node = 4 ∧ counted2 s t Fx.GYS_CH_CNT_COUNT c 1 ∧ rdBytes t.pool (pool + 8) payload.length = payload ∧
        leNat (rdBytes t.pool pool 4) = s.gys.cyc % 2 ^ 16 * 2 ^ 8 + owner * 2 ^ 4 ∧
        ∀ a, a < pool ∨ (pool + 4 ≤ a ∧ a < pool + 8) ∨ pool + 8 + payload.length ≤ a → sget 0#8 a t.pool = sget 0#8 a s.pool) ∧
    (s.rb Fx.GYS_CH_CFG_EN c = true → ¬ late → n.val ∉ (s.gysChOf c).acc → poolBank (pool + 3) = poolBank pool →
      ∃ t, exec (.slotClose c n) s = .next t ∧ counted2 s t Fx.GYS_EMPTY_COUNT c n ∧
        sget 0#8 (pool + 3) t.pool = BitVec.ofNat 8 (min ((sget 0#8 (pool + 3) s.pool).toNat + 1) 255) ∧
        ∀ a, a ≠ pool + 3 → sget 0#8 a t.pool = sget 0#8 a s.pool) ∧
    (s.rb Fx.GYS_CH_CFG_EN c = true → ¬ late → n.val ∈ (s.gysChOf c).acc → exec (.slotClose c n) s = .next s))

/-- R247, R260 to R263, R267 to R274, Tables 07-7 and 07-8: at a cycle start the node corrects half the offset of its reference frame, clamped
to CORR_MAX, and its rate by an eighth, and without a reference it is first node; 2T of silence, a cold start that ends clean or in a
collision, and the end of an integration attempt change the state as the table says; a channel is isolated and joins. In a delay cycle the
requester asks the owner of the lowest slot it accepted, and a response measures the channel's delay. -/
def Obligations.BusTimeAndStartUp : Prop :=
  (∀ s : State, s.gys.timer = true → s.gys.node = 4 → regsRising s →
    let t := s.rf Fx.GYS_CYCLE_NS
    let max_ : Int := s.rf Fx.GYS_TIMING_CORR_MAX * 2 ^ 32
    t * 2 ^ 32 ≤ s.gys.ofs → 0 < t →
    (∀ e : Int, (s.gysChOf 0).ref = some (e, false) → 2 * e.natAbs ≤ s.rf Fx.GYS_TIMING_GUARD * 256 →
      ∃ (u : State) (r : Int), exec .gysCycleStart s = .next u ∧ u.gys.cyc = (s.gys.cyc + 1) % 2 ^ 32 ∧ u.gys.ofs = s.gys.ofs - t * 2 ^ 32 ∧
        u.gys.node = 4 ∧ u.gys.first = false ∧ u.gys.tickDue = true ∧ u.gys.lastE = e ∧
        u.gys.corr = max (-max_) (min max_ (e * 2 ^ 23)) ∧ (2 * (r * t - e * 2 ^ 21)).natAbs ≤ t ∧
        u.gys.rate = max (-2147483) (min 2147483 (s.gys.rate - r))) ∧
    ((s.gysChOf 0).ref = none → (s.gysChOf 1).ref = none → s.rb Fx.GYS_CFG_LEAD_EN = false →
      ∃ u, exec .gysCycleStart s = .next u ∧ u.gys.cyc = (s.gys.cyc + 1) % 2 ^ 32 ∧ u.gys.first = true ∧ u.gys.corr = 0 ∧
        u.gys.rate = s.gys.rate ∧ u.gys.node = 4)) ∧
  (∀ s : State, live s → (s.gysChOf 0).mode = 1 →
    let owns := ∃ n : Fin 64, s.rb Fx.GYS_SLOT_T_EN 0 n = true ∧ s.rf Fx.GYS_SLOT_T_OWNER 0 n = s.rf Fx.GYS_CFG_NODE
    (s.gys.node = 3 ∨ s.gys.node = 5 ∨ (s.gys.node = 1 ∧ s.gys.timer = true) →
      ∃ t, exec .gysListenTimeout s = .next t ∧ t.gys.node = 4 ∧ t.gys.first = true) ∧
    (s.gys.node = 1 → s.gys.timer = false → s.rb Fx.GYS_CFG_CS_EN = true → owns →
      ∃ t, exec .gysListenTimeout s = .next t ∧ t.gys.node = 2 ∧ t.gys.timer = false) ∧
    (s.gys.node = 1 → s.gys.timer = false → s.rb Fx.GYS_CFG_CS_EN = false ∨ ¬ owns → exec .gysListenTimeout s = .next s) ∧
    (regsRising s → s.gys.node = 2 → s.gys.csSent = false → ∃ t, exec .coldstartSend s = .next t ∧ t.gys.csSent = true ∧ t.gys.node = 2 ∧
      counted s t Fx.GYS_CNT_COLDSTART ∧ t.out = s.out ++
        [.gysFrame 0 (busFrame 1 (s.rf Fx.GYS_CFG_NODE) 0 0 (b2n s.gys.first) 0xFFFFFFFF (s.rf Fx.GYS_CFG_SCHED_ID) [])]) ∧
    (regsRising s → s.gys.node = 2 → s.gys.csSent = true → ∀ ago,
      (∃ t, exec (.coldstartFrameEnd true ago) s = .next t ∧ t.gys.node = 4 ∧ t.gys.timer = true ∧ t.gys.cyc = 0xFFFFFFFF ∧
        t.gys.ofs = ((ago : Int) - calTx s 0).toNat * 2 ^ 24 ∧ t.gys.first = true) ∧
      (∃ t, exec (.coldstartFrameEnd false ago) s = .next t ∧ t.gys = { s.gys with csSent := false } ∧ counted2 s t Fx.GYS_CH_CNT_COUNT 0 10)) ∧
    (s.gys.node = 3 → s.gys.attemptCycles = 8 →
      (s.gys.attempts = 0 → exec .integrationAttemptEnd s =
        .next { s with gys := { s.gys with attempts := 1, attemptCycles := 0, goodRun := 0 } }) ∧
      (s.gys.attempts = 1 → regsRising s → ∃ t, exec .integrationAttemptEnd s = .next t ∧ t.gys.attempts = 2 ∧ t.gys.node = 3 ∧
        t.rb Fx.GYS_CH_STS_INTEG_FAIL 0 = true)) ∧
    (∀ m, ∃ t, exec (.gysIsolate m 0) s = .next t ∧ t.gysSt 0 = 6 ∧ t.gys.timer = s.gys.timer ∧ t.gysChOf 1 = s.gysChOf 1)) ∧
  (∀ (s : State) (m : Master), live s → (s.gysChOf 0).mode = 6 → ∃ t, exec (.gysJoin m 0) s = .next t ∧ (t.gysChOf 0).mode = 1 ∧
    t.gys.node = (if (s.gysChOf 1).mode = 1 then s.gys.node else 1)) ∧
  (∀ (s : State) (c : Fin 2) (n : Fin 64), inSync s c → s.rb Fx.GYS_CH_CFG_DLY_EN c = true → s.gys.cyc % 256 = 255 → s.gys.cyc < 2 ^ 32 → regsRising s →
    let node := s.rf Fx.GYS_CFG_NODE
    let sent := fun (t : State) (kind : Nat) (p : List Byte) => counted2 s t Fx.GYS_CH_CNT_COUNT c 0 ∧
      t.out = s.out ++ [.gysFrame c (busFrame kind node c 0 (b2n s.gys.first) s.gys.cyc (s.rf Fx.GYS_CFG_SCHED_ID) p)]
    (∀ t1 : BitVec 32, s.gys.cyc / 256 % 16 = node → n.val ∈ (s.gysChOf c).accPrev → s.rf Fx.GYS_SLOT_T_OWNER c n ≠ node →
      (∀ k : Fin 64, k < n → k.val ∉ (s.gysChOf c).accPrev ∨ s.rf Fx.GYS_SLOT_T_OWNER c k = node) →
      ∃ t, exec (.delayReqSend c t1) s = .next t ∧ sent t 6 (leBytes 8 (s.rf Fx.GYS_SLOT_T_OWNER c n)) ∧
        (t.gysChOf c).t1 = some (((t1.toNat : Int) + calTx s c).toNat, s.rf Fx.GYS_SLOT_T_OWNER c n)) ∧
    (∀ (t2 : Nat) (t3 : BitVec 32), (s.gysChOf c).t2 = some t2 → ∃ t, exec (.delayRespSend c t3) s = .next t ∧
      sent t 7 (leBytes 4 t2 ++ leBytes 4 ((t3.toNat : Int) + calTx s c).toNat) ∧ (t.gysChOf c).t2 = none) ∧
    (∀ (t1 t2 t3 ago : Nat) (r : Fin 16), (s.gysChOf c).t1 = some (t1, r.val) → t2 < 2 ^ 32 → t3 < 2 ^ 32 →
      let w := s.rf Fx.GYS_SLOT_T_START c (s.rf Fx.GYS_CH_CFG_DLY_SLOT c) + 34 * 50 + 2 * s.rf Fx.GYS_TIMING_GUARD + 200
      let t4 : Int := (s.gys.ofs / 2 ^ 24 : Nat) - (ago + calRx s c)
      let m2 : Int := (t4 - t1) - ((t3 : Int) - t2)
      (t4 - w * 256 - busDelay s c).natAbs ≤ s.rf Fx.GYS_TIMING_GUARD * 256 → 2 * (s.rf Fx.GYS_TIMING_GUARD * 256) < s.rf Fx.GYS_CYCLE_NS * 256 →
      ∃ t, exec (.gysFrameReceive c true (busFrame 7 r c 0 0 s.gys.cyc (s.rf Fx.GYS_CFG_SCHED_ID) (leBytes 4 t2 ++ leBytes 4 t3)) ago) s = .next t ∧
        (t.gysChOf c).t1 = none ∧
        (0 ≤ m2 → m2 ≤ 102400 → ((s.gysChOf c).meas = none → (t.gysChOf c).meas = some (m2 / 2).toNat) ∧
          (∀ d, (s.gysChOf c).meas = some d → ∃ k : Int, (2 * (4 * k - (m2 / 2 - d))).natAbs ≤ 4 ∧ (t.gysChOf c).meas = some (d + k).toNat)) ∧
        (m2 < 0 ∨ 102400 < m2 → (t.gysChOf c).meas = (s.gysChOf c).meas ∧ counted2 s t Fx.GYS_CH_CNT_COUNT c 11)))


/-! ### The redundant pair (spec/08) -/

/-- R278 to R285, R296, R302, R303, Table 08-2: HB_OUT toggles at each own edge while the unit runs and the third edge without a transition
of HB_IN loses that path, which is an alarm while the other path stands and a takeover where it does not; a transition restores it. An
isolated unit goes ACTIVE alone, a stale standby synchronises again, and a change into ACTIVE takes effect at a cycle start with no commit in
progress: EPOCH exceeds both units', the takeover is counted. ISOLATE and JOIN set and release the held state. -/
def Obligations.PairStates : Prop :=
  (∀ s : State, pairRuns s →
    (s.lock = true → s.pair.edges < 3 →
      exec .hbOutToggle s = .next { s with pair := { s.pair with hbOut := !s.pair.hbOut, edges := s.pair.edges + 1 } }) ∧
    (exec .hbInTransition s = .next { s with pair := { s.pair with
      edges := 0, hbLost := false, suspect := s.pair.suspect || (s.pair.hbLost && s.pair.gysLost && s.pair.st == 3) } }) ∧
    (s.pair.hbLost = false → s.pair.edges < 3 → exec .hbPathLost s = .next s) ∧
    (s.pair.hbLost = false → s.pair.edges = 3 → s.pair.gysLost = false →
      ∃ t, exec .hbPathLost s = .next t ∧ t.pair = { s.pair with hbLost := true } ∧ counted s t Fx.PAIR_CNT_COUNT 6 ∧
        t.pairSts.getLsbD 11 = true ∧ t.pairSts.getLsbD 9 = true ∧ t.pool = s.pool ∧ t.tb = s.tb) ∧
    (s.pair.hbLost = false → s.pair.edges = 3 → s.pair.gysLost = true → s.pair.st = 2 →
      exec .hbPathLost s = .next { s with pair := { s.pair with hbLost := true, pState := 7, due := some 7 } }) ∧
    (s.pair.hbLost = false → s.pair.edges = 3 → s.pair.gysLost = true → s.pair.st = 1 →
      ∃ t, exec .hbPathLost s = .next t ∧ t.pair.st = 0 ∧ t.pair.held = false ∧ t.pool = s.pool) ∧
    (s.pair.st = 0 → s.pair.held = false → s.integrated = true → s.pair.due = none → s.pair.gysLost = true → s.pair.hbLost = true →
      exec .loneStartTimeout s = .next { s with pair := { s.pair with due := some 4 } }) ∧
    (s.pair.st ≠ 0 ∨ s.pair.held = true ∨ s.integrated = false ∨ (s.pair.hbLost = false ∧ s.pair.pByte % 2 = 0) → exec .loneStartTimeout s = .next s) ∧
    (s.pair.st = 2 → s.pair.stale = 9 → s.pair.pState = 3 → s.tok.holder = 0 → s.tok.fifo = [] →
      ∃ t, exec .standbyStale s = .next t ∧ t.pair.st = 1 ∧ counted s t Fx.PAIR_CNT_COUNT 12 ∧ t.tok.holder = 3 ∧ t.pool = s.pool) ∧
    (∀ ws failed ecc, s.pair.due = none → exec (.enterActive ws failed ecc) s = .next s) ∧
    (∀ (ws : List LoopAt) (failed : List (Fin 64)) (ecc : List (Fin 64 × BitVec 16)) (cause : Nat),
      s.pair.due = some cause → s.pair.commits = [] →
      ∃ t, exec (.enterActive ws failed ecc) s = .next t ∧ t.pair.st = 3 ∧ t.pair.due = none ∧ t.pair.held = false ∧
        t.pair.epoch = (max s.pair.epoch s.pair.pEpoch + 1) % 2 ^ 32 ∧ t.pair.seq = s.pair.seq ∧
        (cause = 7 ∨ cause = 8 → counted s t Fx.PAIR_CNT_COUNT 0) ∧ (cause = 9 → counted s t Fx.PAIR_CNT_COUNT 1)) ∧
    (∀ m, s.regDead .PAIR_CMD 0 0 = false →
      (∃ t, exec (.pairIsolate m) s = .next t ∧ t.pair.st = 0 ∧ t.pair.held = true ∧ t.pair.due = none ∧ t.pool = s.pool ∧
        ∀ g : Fin 12, (s.rf Fx.PAIR_OUT_GATE_RIL).testBit g = true → t.groupDriven g = false) ∧
      (s.pair.st = 0 → s.pair.held = true → ∃ t, exec (.pairJoin m) s = .next t ∧ t.pair = { s.pair with held := false } ∧ t.pool = s.pool)))

/-- R287 to R295, R300, R301: a handover is asked for only by an ACTIVE beside a STANDBY, takes effect at the tick the units agreed and fails
without an answer in time; the hold-off of a reversion ends in REVERT_REQ. The pairing link's fragments are gathered in order into a body that
is staged as it arrives; a frame of another form is counted. A body that a unit of the same set-up sent is accepted for commit; a commit
copies its region records into the mirror regions and moves PAIR_SNAP.SEQ. -/
def Obligations.PairSnapshotAndHandover : Prop :=
  (∀ s : State, pairRuns s →
    (∀ m, s.regDead .PAIR_CMD 0 0 = false →
      (s.pair.st = 3 → s.pair.pByte / 32 = 2 → s.pair.ho = 0 →
        exec (.pairHandover m) s = .next { s with pair := { s.pair with ho := 1, hoTicks := 0 } }) ∧
      (s.pair.st ≠ 3 ∨ s.pair.pByte / 32 ≠ 2 → exec (.pairHandover m) s = .next (s.reject m .rsvEnc 0x58008 4#32))) ∧
    (s.pair.st = 3 → s.pair.ho = 3 → s.gys.cyc = s.pair.hoCycle →
      ∃ t, exec .handoverTick s = .next t ∧ t.pair.st = 2 ∧ t.pair.tx = s.pair.tx ∧ t.pair.seq = s.pair.seq ∧ counted s t Fx.PAIR_CNT_COUNT 1 ∧
        t.pool = s.pool) ∧
    (s.pair.st = 3 → (s.pair.ho = 1 ∧ s.pair.hoTicks = 16) ∨ (s.pair.ho = 2 ∧ s.gys.cyc = s.pair.hoCycle) →
      ∃ t, exec .handoverTimeout s = .next t ∧ t.pair = { s.pair with ho := 0 } ∧ t.rb Fx.PAIR_STS_HO_FAIL = true ∧
        counted s t Fx.PAIR_CNT_COUNT 2 ∧ onlyRegs { s with pair := t.pair } t) ∧
    (∀ sec, s.pair.st = 2 → s.pair.holdAt = some sec → sec ≤ s.pwr.sec →
      exec .revertHoldoffExpiry s = .next { s with pair := { s.pair with revert := true, holdAt := none } }) ∧
    (s.rf Fx.PAIR_CFG_XPORT = 2 → s.portLink 1 = true →
      (∀ data : List Byte, be16 data 12 ≠ 0x88B5 →
        ∃ t, exec (.pairingLinkFrameReceive data) s = .next t ∧ onlyRegs s t ∧ counted s t Fx.PAIR_CNT_COUNT 11) ∧
      (∀ (src body : List Byte) (seq off total : Nat), src.length = 6 → body.length ≤ 1408 → seq < 2 ^ 16 → total ≤ 16384 →
        off + body.length < total → (s.pair.st = 1 ∨ s.pair.st = 2) →
        let stage := s.rf Fx.PAIR_STAGE_BASE * 4096 + off
        s.bankSt (poolBank stage) = 0 → stage + body.length ≤ lockBase → 36 ≤ body.length → scanon (0#8) 0 s.pool = true →
        (off = 0 → s.pair.rx = none → ∃ t, exec (.pairingLinkFrameReceive (linkFrame src seq 0 total body)) s = .next t ∧
          t.pair = { s.pair with rx := some (seq, total, body) } ∧ rdBytes t.pool stage body.length = body ∧ t.regs = s.regs) ∧
        (∀ held, off = held.length → 0 < off → s.pair.rx = some (seq, total, held) →
          ∃ t, exec (.pairingLinkFrameReceive (linkFrame src seq off total body)) s = .next t ∧
            t.pair = { s.pair with rx := some (seq, total, held ++ body) } ∧ rdBytes t.pool stage body.length = body) ∧
        (∀ q n held, s.pair.rx = some (q, n, held) → q ≠ seq → 0 < off →
          ∃ t, exec (.pairingLinkFrameReceive (linkFrame src seq off total body)) s = .next t ∧ t.pair.rx = none ∧ t.pool = s.pool ∧
            counted s t Fx.PAIR_CNT_COUNT 4))) ∧
    (∀ (u : State) (src : List Byte) (seq : Nat), s.rf Fx.PAIR_CFG_XPORT = 2 → s.portLink 1 = true → (s.pair.st = 1 ∨ s.pair.st = 2) →
      s.pair.rx = none → src.length = 6 → seq < 2 ^ 16 → u.snapZ ≤ 1408 → s.snapLayout = u.snapLayout →
      ∃ t, exec (.pairingLinkFrameReceive (linkFrame src seq 0 u.snapZ (u.snapBody seq))) s = .next t ∧ t.pair.rx = none ∧
        t.pair.commits = s.pair.commits ++ [(seq, u.snapBody seq)] ∧ t.pair.seq = s.pair.seq) ∧
    (∀ (seq : Nat) (d : List Byte) (rest : List (Nat × List Byte)), s.pair.commits = (seq, d) :: rest →
      (∃ t, exec .snapshotCommitDone s = .next t ∧ t.pair.commits = rest ∧ t.pair.seq = seq ∧ t.pair.snapValid = true ∧
        counted s t Fx.PAIR_CNT_COUNT 3) ∧
      (∀ (r : Fin 32) (bytes : List Byte), let at_ := s.rf Fx.PAIR_MREG_BASE_BASE r * 8
        bytes.length < 2 ^ 16 → leNat ((d.drop 12).take 2) = 1 → (d.drop 16).take (8 + bytes.length) =
          leBytes 1 1 ++ leBytes 1 r ++ leBytes 2 bytes.length ++ [0, 0, 0, 0] ++ bytes →
        scanon (0#8) 0 s.pool = true → s.bankSt (poolBank at_) = 0 → at_ + bytes.length ≤ lockBase →
        ∃ t, exec .snapshotCommitDone s = .next t ∧ rdBytes t.pool at_ bytes.length = bytes ∧
          ∀ a, a < at_ ∨ at_ + bytes.length ≤ a → sget 0#8 a t.pool = sget 0#8 a s.pool)))

/-! ### The Ilutas instruction set (spec/09) -/

/-- R308, R309, R311: the register file and its window. g0 reads 0 and discards writes; every other of the 32 registers that a field selects
reads back what was written to it, and a write changes no other; at core start every register reads 0. A bank that is spilled and
then filled again is the same, with the window and SPILL_PTR as before, where the 32 bytes lie in the data memory or the pool outside mirror
regions (R313). -/
def Obligations.RegisterWindow : Prop :=
  (∀ (c : Ctx) (f g : Fin 32) (v : Word),
    c.reg 0 = 0#32 ∧ c.setReg 0 v = c ∧ Ctx.reset.reg f = 0#32 ∧
    (c.setReg f v).reg g = (if f = g ∧ f ≠ 0 then v else c.reg g) ∧
    (c.setReg f v).pc = c.pc ∧ (c.setReg f v).st = c.st) ∧
  (∀ (s : State) (k : Fin 16),
    s.physOf k < 16 → (s.ctxOf k).st.wbot < 16 → s.spillOk k (s.ctxOf k).spillPtr = true →
    ((s.spill1 k).fill1 k).ctxOf k = s.ctxOf k)

/-- Tables 09-4 and 09-5, majors 0x00 to 0x07, 0x11 and 0x12: the register, immediate, bit field and CRC instructions write their result to rd,
and nothing else changes but the position in the program and the count of instructions (`Ctx.retire`). -/
def Obligations.AluResults : Prop :=
  (∀ (row : AluRow) (k : Fin 16) (e : CoreEcc) (s : State) (rd ra rb : Fin 32),
    row ∈ aluRows → fetchGood e → (row.unary = true → rb = 0) →
    atWord s k (encT 0 rd ra rb row.fn) →
    exec (row.ins k e) s =
      .next ((fetched s k e).ctxUpd k fun c => (c.setReg rd (row.f (c.reg ra) (c.reg rb))).retire)) ∧
  ((∀ (row : ImmRow) (k : Fin 16) (e : CoreEcc) (s : State) (rd ra : Fin 32) (i : BitVec 16),
    row ∈ immRows → fetchGood e → row.ok ra i = true →
    atWord s k (encI row.maj rd ra i.toNat) →
    exec (row.ins k e) s = .next ((fetched s k e).ctxUpd k fun c => (c.setReg rd (row.f (c.reg ra) i)).retire)) ∧
  (∀ (row : FieldRow) (k : Fin 16) (e : CoreEcc) (s : State) (rd ra lsb wm1 : Fin 32),
    row ∈ fieldRows → fetchGood e → lsb.val + wm1.val ≤ 31 →
    atWord s k (encF 0x11 rd ra lsb wm1 row.fn) →
    exec (row.ins k e) s =
      .next ((fetched s k e).ctxUpd k fun c => (c.setReg rd (row.f (c.reg rd) (c.reg ra) lsb wm1)).retire)) ∧
  (∀ (k : Fin 16) (e : CoreEcc) (s : State) (rd ra rb : Fin 32) (width : Fin 3) (alg : Fin 6),
    fetchGood e → atWord s k (encT 0x12 rd ra rb (16 * width + alg)) →
    exec (.crc k e) s =
      .next ((fetched s k e).ctxUpd k fun c =>
        (c.setReg rd (crcTable alg (c.reg ra) (lowBytes (2 ^ width.val) (c.reg rb)))).retire)))

/-- Table 09-5: the loads of majors 0x08 to 0x0C, the loads of MEMP, and CRCM, from memory that may be read: the value read
lowest-addressed byte least significant, and nothing in memory changes. -/
def Obligations.LoadResults : Prop :=
  (∀ (row : MemRow) (k : Fin 16) (e : CoreEcc) (s : State) (rd ra : Fin 32) (i : BitVec 16),
    row ∈ loadRows → eccGood e → atWord s k (encI row.sel rd ra i.toNat) →
    let a := ((s.ctxOf k).reg ra + i.signExtend 32).toNat
    loadable s k a row.size = true →
    exec (row.ins k e) s =
      .next ((fetched s k e).ctxUpd k fun c => (c.setReg rd (loaded row.signed (s.cBytes k a row.size))).retire)) ∧
  (∀ (row : MemRow) (k : Fin 16) (e : CoreEcc) (s : State) (rd ra : Fin 32) (i : BitVec 13),
    row ∈ loadPRows → eccGood e → rd ≠ ra → atWord s k (encI 0x10 rd ra (8192 * row.sel + i.toNat)) →
    let a := (s.ctxOf k).reg ra
    loadable s k a.toNat row.size = true →
    exec (row.ins k e) s =
      .next ((fetched s k e).ctxUpd k fun c =>
        ((c.setReg rd (loaded false (s.cBytes k a.toNat row.size))).setReg ra (a + i.signExtend 32)).retire)) ∧
  (∀ (k : Fin 16) (e : CoreEcc) (s : State) (rd ra : Fin 32) (width : Fin 3) (alg : Fin 6),
    eccGood e → rd ≠ ra → atWord s k (encT 0x13 rd ra 0 (16 * width + alg)) →
    let a := (s.ctxOf k).reg ra
    loadable s k a.toNat (2 ^ width.val) = true →
    exec (.crcm k e) s =
      .next ((fetched s k e).ctxUpd k fun c =>
        ((c.setReg rd (crcTable alg (c.reg rd) (s.cBytes k a.toNat (2 ^ width.val)))).setReg ra
          (a + BitVec.ofNat 32 (2 ^ width.val))).retire))

/-- Table 09-5, R368, R369: the stores of majors 0x0D to 0x0F, the stores of MEMP, and AADD and ASWP, to memory that may be written, with
a word load and a word store of a lock (the lock range at pool offset 0x1F_FF00). -/
def Obligations.StoreAndAtomicResults : Prop :=
  (∀ (row : MemRow) (k : Fin 16) (e : CoreEcc) (s : State) (rd ra : Fin 32) (i : BitVec 16),
    row ∈ storeRows → fetchGood e → atWord s k (encI row.sel rd ra i.toNat) →
    let a := ((s.ctxOf k).reg ra + i.signExtend 32).toNat
    storable s k a row.size = true →
    exec (row.ins k e) s =
      .next (((fetched s k e).cPut k a (lowBytes row.size ((s.ctxOf k).reg rd))).ctxUpd k Ctx.retire)) ∧
  (∀ (row : MemRow) (k : Fin 16) (e : CoreEcc) (s : State) (rd ra : Fin 32) (i : BitVec 13),
    row ∈ storePRows → fetchGood e → atWord s k (encI 0x10 rd ra (8192 * row.sel + i.toNat)) →
    let a := (s.ctxOf k).reg ra
    storable s k a.toNat row.size = true →
    exec (row.ins k e) s =
      .next (((fetched s k e).cPut k a.toNat (lowBytes row.size ((s.ctxOf k).reg rd))).ctxUpd k fun c =>
        (c.setReg ra (a + i.signExtend 32)).retire)) ∧
  (∀ (k : Fin 16) (e : CoreEcc) (s : State) (rd ra rb : Fin 32) (swap : Bool),
    eccGood e → atWord s k (encT 0x14 rd ra rb (b2n swap)) →
    let a := ((s.ctxOf k).reg ra).toNat
    let old := BitVec.ofNat 32 (leNat (s.cBytes k a 4))
    let b := (s.ctxOf k).reg rb
    storable s k a 4 = true → 0x100000 ≤ a →
    exec (if swap then .aswp k e else .aadd k e) s =
      .next (((fetched s k e).cPut k a (lowBytes 4 (if swap then b else old + b))).ctxUpd k fun c => (c.setReg rd old).retire)) ∧
  (∀ (k : Fin 16) (e : CoreEcc) (s : State) (rd ra : Fin 32) (n : Fin 64),
    eccGood e → ((s.ctxOf k).reg ra).toNat = 0x100000 + 0x1FFF00 + 4 * n.val →
    (atWord s k (encI 0x08 rd ra 0) →
      exec (.lw k e) s = .next
        (if s.lckOf n = 0 then
          ({ fetched s k e with lck := vupd s.lck n fun _ => 2 ^ 31 + k.val } : State).ctxUpd k fun c => (c.setReg rd 0#32).retire
        else (fetched s k e).ctxUpd k fun c => (c.setReg rd (BitVec.ofNat 32 (s.lckOf n))).retire)) ∧
    (atWord s k (encI 0x0D rd ra 0) →
      exec (.sw k e) s = .next
        (if (s.ctxOf k).reg rd = 0#32 ∧ s.lckOf n = 2 ^ 31 + k.val then
          ({ fetched s k e with lck := vupd s.lck n fun _ => 0 } : State).ctxUpd k Ctx.retire
        else ((fetched s k e).bump Fx.ENG_LOCK_CNT_BAD).ctxUpd k Ctx.retire)))

/-- What a store of a core changes (R314, R317): in the data memory, or in the pool outside a write-protected mirror region, exactly
the stored bytes; in a protected mirror region nothing but the count MEM_MIRROR_WREJ. -/
def Obligations.StoreFrame : Prop :=
  ∀ (s : State) (k : Fin 16) (a b : Nat) (d : List Byte),
    let t := s.cPut k a d
    let after := if a ≤ b ∧ b < a + d.length then [d.getD (b - a) 0#8] else s.cBytes k b 1
    (s.physOf k < 16 → 0x10000 ≤ a → a + d.length ≤ 0x20000 →
      t = { s with core := t.core } ∧ (b < 0x20000 → t.cBytes k b 1 = after) ∧
      (∀ n, n ≠ s.physOf k → t.coreOf n = s.coreOf n)) ∧
    (0x100000 ≤ a → s.mirrorProt (a - 0x100000) d.length = false →
      t = { s with pool := t.pool } ∧ (0x100000 ≤ b → t.cBytes k b 1 = after)) ∧
    (0x100000 ≤ a → s.mirrorProt (a - 0x100000) d.length = true → t = s.bump Fx.MEM_MIRROR_WREJ_COUNT)

/-- R315, R314, R318, R319: what traps, and with which cause. A misaligned load, store, atomic or CRCM; a load or store outside the map;
a store to the instruction memory; an AADD outside the pool; a second read that fails; an undefined major opcode, whatever
command names it; a zero field that is not zero. Each takes its exception (`State.raise`), and EPC holds the instruction. -/
def Obligations.InstructionTraps : Prop :=
  (∀ (row : MemRow) (k : Fin 16) (e : CoreEcc) (s : State) (rd ra : Fin 32) (i : BitVec 16),
    row ∈ loadRows ++ storeRows → fetchGood e → atWord s k (encI row.sel rd ra i.toNat) →
    let a := ((s.ctxOf k).reg ra + i.signExtend 32).toNat
    (a % row.size ≠ 0 → exec (row.ins k e) s = .next ((fetched s k e).raise k ⟨3, 0, a⟩)) ∧
    (a % row.size = 0 → (0x20000 ≤ a ∧ a < 0x100000) ∨ 0x300000 ≤ a →
      exec (row.ins k e) s = .next ((fetched s k e).raise k ⟨2, 1, a⟩)) ∧
    (a % row.size = 0 → row ∈ storeRows → a < 0x10000 →
      exec (row.ins k e) s = .next ((fetched s k e).raise k ⟨2, 2, a⟩)) ∧
    (row ∈ loadRows → e = .dataFail → loadable s k a row.size = true →
      exec (row.ins k e) s = .next ((s.eccFail (s.memAt k a).1 (s.memAt k a).2).raise k ⟨7, 0, a - a % 4⟩))) ∧
  (∀ (k : Fin 16) (e : CoreEcc) (s : State) (rd ra rb : Fin 32),
    fetchGood e → atWord s k (encT 0x14 rd ra rb 0) →
    let a := ((s.ctxOf k).reg ra).toNat
    (a % 4 = 0 → a < 0x100000 ∨ 0x300000 ≤ a → exec (.aadd k e) s = .next ((fetched s k e).raise k ⟨2, 4, a⟩)) ∧
    (a % 4 ≠ 0 → exec (.aadd k e) s = .next ((fetched s k e).raise k ⟨3, 0, a⟩))) ∧
  (∀ (k : Fin 16) (e : CoreEcc) (s : State) (rd ra rb : Fin 32), fetchGood e →
    let a := ((s.ctxOf k).reg ra).toNat
    let misaligned := fun (i : Instr) => exec i s = .next ((fetched s k e).raise k ⟨3, 0, a⟩)
    (atWord s k (encT 0x14 rd ra rb 1) → a % 4 ≠ 0 → misaligned (.aswp k e)) ∧
    (∀ (row : MemRow) (i : BitVec 13), row ∈ loadPRows ++ storePRows → rd ≠ ra →
      atWord s k (encI 0x10 rd ra (8192 * row.sel + i.toNat)) → a % row.size ≠ 0 → misaligned (row.ins k e)) ∧
    (∀ (width : Fin 3) (alg : Fin 6), rd ≠ ra → atWord s k (encT 0x13 rd ra 0 (16 * width + alg)) → a % 2 ^ width.val ≠ 0 →
      misaligned (.crcm k e))) ∧
  (∀ (ins : Fin 16 → CoreEcc → Instr) (k : Fin 16) (e : CoreEcc) (s : State) (w : Word),
    ins ∈ coreInstrs → fetchGood e → atWord s k w → 0x30 ≤ fMaj w →
      exec (ins k e) s = .next ((fetched s k e).raise k ⟨1, 0, 0⟩)) ∧
  (∀ (ins : Fin 16 → CoreEcc → Instr) (k : Fin 16) (s : State) (w : Word),
    ins ∈ coreInstrs → atWord s k w →
      exec (ins k .fetchFail) s =
        .next ((s.eccFail (16 + s.physOf k) (s.ctxOf k).pc).raise k ⟨7, 0, (s.ctxOf k).pc⟩)) ∧
  (∀ (row : AluRow) (k : Fin 16) (e : CoreEcc) (s : State) (rd ra rb z : Fin 32),
    row ∈ aluRows → fetchGood e → z ≠ 0 ∨ (row.unary = true ∧ rb ≠ 0) →
    atWord s k (encT 0 rd ra rb (64 * z + row.fn)) →
      exec (row.ins k e) s = .next ((fetched s k e).raise k ⟨1, 1, 0⟩))

/-- R326 to R328: the time base and Rill FIFO instructions. An adjustment without permission, and an engine that is absent or not bound,
raise ACCESS_FAULT with INFO 0x0007 and 0x0006; a FIFO that is full or empty waits, or sets STATUS.TO where FIFO_TO is 0. -/
def Obligations.UnitInstructions : Prop :=
  (∀ (k : Fin 16) (e : CoreEcc) (s : State) (rd : Fin 32) (n : Fin 8),
    fetchGood e → atWord s k (encX 0x16 rd 0 0 n 0) →
    exec (.tbrd k e) s = .next
      (let u := (fetched s k e).tbTime n
       (fetched s k e).ctxUpd k fun c =>
        ({ c.setReg rd (BitVec.ofNat 32 (u / 2 ^ 32)) with
            tbns := BitVec.ofNat 32 (tbNsOf u), tbfrac := BitVec.ofNat 32 (tbFrac u),
            tbsecLo := BitVec.ofNat 32 (tbSec u), tbsecHi := BitVec.ofNat 32 (tbSec u / 2 ^ 32) } : Ctx).retire)) ∧
  (∀ (k : Fin 16) (e : CoreEcc) (s : State) (rd ra rb : Fin 32) (n : Fin 8) (x : Fin 3),
    fetchGood e → n ≠ 0 → atWord s k (encX 0x16 rd ra rb n (1 + x)) →
    let f := fetched s k e
    let v := (s.ctxOf k).reg ra
    let c : Instr := match x with | 0 => .tbstep k e | 1 => .tbslew k e | 2 => .tbrate k e
    (f.tbAllowed k n = false → exec c s = .next (f.raise k ⟨2, 7, 0⟩)) ∧
    (f.tbAllowed k n = true → exec c s = .next
      (let r : State × Nat := match x with
        | 0 => (f.tbStep n (stepAmount v.toNat 0), if (f.tbRefusers n (stepAmount v.toNat 0)).isEmpty then 0 else 1)
        | 1 => (f.tbSlew n (stepAmount v.toNat 0), 0)
        | 2 => if encBadFields .TB_RATE v then (f, 2) else (f.sg .TB_RATE n 0 v, 0)
       r.1.ctxUpd k fun c => (c.setReg rd (BitVec.ofNat 32 r.2)).retire))) ∧
  (∀ (k : Fin 16) (e : CoreEcc) (s : State) (rd ra rb : Fin 32) (n : Fin 8),
    fetchGood e → atWord s k (encX 0x16 rd ra rb n 4) →
    let f := fetched s k e
    let t := extendNs (f.tbNs n) ((s.ctxOf k).reg ra).toNat
    exec (.tbwait k e) s = .next
      (if f.tbOos n then f.ctxUpd k fun c => (c.setTo true).retire
       else if t ≤ Int.ofNat (f.tbNs n) then f.ctxUpd k fun c => (c.setTo false).retire
       else f.ctxUpd k fun c => { c with wait := some (.tb n t) })) ∧
  (∀ (k : Fin 16) (e : CoreEcc) (s : State) (r : Fin 32) (n : Fin 48),
    fetchGood e →
    let f := fetched s k e
    let v := (s.ctxOf k).reg r
    let ok := n.val < f.variant.engines ∧ f.boundEngine k n = true
    (atWord s k (encX 0x17 0 r 0 n 0) → exec (.rfpush k e) s = .next
      (if ¬ ok then f.raise k ⟨2, 6, 0⟩
       else if (s.rilOf n).tx.length < 4 then
        (f.rilUpd n fun x => { x with tx := x.tx ++ [(v, s.cyc.ticks)] }).ctxUpd k fun c => (c.setTo false).retire
       else if (s.ctxOf k).fifoTo = 0 then f.ctxUpd k fun c => (c.setTo true).retire
       else f.ctxUpd k fun c => { c with wait := some (.push n v) })) ∧
    (atWord s k (encX 0x17 r 0 0 n 1) → exec (.rfpop k e) s = .next
      (if ¬ ok then f.raise k ⟨2, 6, 0⟩
       else match (s.rilOf n).rx with
        | x :: t => (f.rilUpd n fun y => { y with rx := t }).ctxUpd k fun c => ((c.setReg r x).setTo false).retire
        | [] => if (s.ctxOf k).fifoTo = 0 then f.ctxUpd k fun c => (c.setTo true).retire
                else f.ctxUpd k fun c => { c with wait := some (.pop n r) })) ∧
    (atWord s k (encX 0x17 r 0 0 n 2) → exec (.rflvl k e) s = .next
      (if ¬ ok then f.raise k ⟨2, 6, 0⟩
       else f.ctxUpd k fun c =>
        (c.setReg r (BitVec.ofNat 32 ((s.rilOf n).rx.length * 256 + (4 - (s.rilOf n).tx.length)))).retire)))

/-- R340, Tables 09-7 and 09-10: CRD, CWR, CSET and CCLR. An undefined CSR, a write of a read-only CSR and a reserved bit trap with nothing
changed; otherwise rd takes the CSR and a write changes its writable fields only (`Ctx.csrWrite`); a write that clears bit 0 of IPEND
reports the cycle work done (R350). NOP and FENCE only complete; EI and DI set and clear STATUS.IE; WAIT completes on a pending enabled line
and otherwise waits; ECALL and BREAK raise their exceptions; RETI outside a handler is ILLEGAL_OPCODE with INFO 0x0006. A system
instruction that ends an open loop body at its CWP is ILLEGAL_OPCODE with INFO 0x0003 (R332). -/
def Obligations.CsrAndSystemInstructions : Prop :=
  (∀ (k : Fin 16) (e : CoreEcc) (s : State) (rd ra : Fin 32) (n : BitVec 12),
    fetchGood e →
    let f := fetched s k e
    let a := (s.ctxOf k).reg ra
    (s.csrRead k n.toNat = none →
      ∀ fn : Fin 4, atWord s k (encC 0x19 rd ra n.toNat fn) →
        exec ([Instr.crd k e, .cwr k e, .cset k e, .cclr k e].getD fn (.crd k e)) s = .next (f.raise k ⟨1, 4, 0⟩)) ∧
    (∀ v, f.csrRead k n.toNat = some v →
      (atWord s k (encC 0x19 rd ra n.toNat 0) →
        exec (.crd k e) s = .next (f.ctxUpd k fun c => ((c.csrLatch n.toNat).setReg rd v).retire)) ∧
      ∀ fn : Fin 3, atWord s k (encC 0x19 rd ra n.toNat (1 + fn)) →
        let x := match fn with | 0 => a | 1 => v ||| a | 2 => v &&& ~~~a
        exec ([Instr.cwr k e, .cset k e, .cclr k e].getD fn (.cwr k e)) s = .next
          (match (s.ctxOf k).csrBad n.toNat x with
            | some i => f.raise k ⟨1, i, 0⟩
            | none =>
              let t := f.ctxUpd k fun c => (c.csrWrite n.toNat x).setReg rd v
              (if n = 7#12 ∧ v.getLsbD 0 = true ∧ x.getLsbD 0 = false then t.wdgCluster k else t).ctxUpd k Ctx.retire))) ∧
  (∀ (k : Fin 16) (e : CoreEcc) (s : State), fetchGood e →
    let f := fetched s k e
    let sys := fun (fn : Nat) (c : Instr) (t : State) =>
      atWord s k (encI 0x1A 0 0 fn) → exec c s = .next (if (s.ctxOf k).endsBody then f.raise k ⟨1, 3, 0⟩ else t)
    sys 0 (.nop k e) (f.ctxUpd k Ctx.retire) ∧
    sys 1 (.fence k e) (f.ctxUpd k Ctx.retire) ∧
    sys 2 (.wait k e) (if f.wanted k = 0 then f.ctxUpd k fun c => { c with wait := some .wait }
      else f.ctxUpd k fun c => (c.setTo false).retire) ∧
    sys 4 (.break k e) (f.raise k ⟨9, 0, 0⟩) ∧
    ((s.ctxOf k).st.exl = false → sys 5 (.reti k e) (f.raise k ⟨1, 6, 0⟩)) ∧
    sys 6 (.ei k e) (f.ctxUpd k fun c => ({ c with st := { c.st with ie := true } } : Ctx).retire) ∧
    sys 7 (.di k e) (f.ctxUpd k fun c => ({ c with st := { c.st with ie := false } } : Ctx).retire) ∧
    (∀ code : BitVec 16, atWord s k (BitVec.ofNat 32 (0x1A * 2 ^ 26 + code.toNat * 2 ^ 10 + 3)) →
      exec (.ecall k e) s =
        .next (if (s.ctxOf k).endsBody then f.raise k ⟨1, 3, 0⟩ else f.raise k ⟨8, code.toNat, 0⟩)))

/-- R310, R320, R322, R333: branches, jumps, calls and returns that meet no loop end, no spill and no fill. A transfer to outside the
instruction memory raises ACCESS_FAULT with INFO 0x0003 and BADADDR the target. -/
def Obligations.ControlFlow : Prop :=
  ∀ (k : Fin 16) (e : CoreEcc) (s : State), fetchGood e → (s.ctxOf k).endsBody = false →
    let f := fetched s k e
    let c := s.ctxOf k
    let pc := BitVec.ofNat 32 c.pc
    let jump := fun (t : Word) =>
      if 0x10000 ≤ t.toNat then f.raise k ⟨2, 3, t.toNat⟩ else f.ctxUpd k fun c => (c.closeAway t.toNat).jumpTo t.toNat
    let call := fun (t : Word) =>
      if 0x10000 ≤ t.toNat then f.raise k ⟨2, 3, t.toNat⟩
      else f.ctxUpd k fun c => ((c.forward 1).setReg 23 (pc + 4#32)).jumpTo t.toNat
    let branch := fun (taken : Bool) (ofs : BitVec 13) =>
      if taken then jump (pc + ofs.signExtend 32 <<< 2) else f.ctxUpd k Ctx.retire
    (∀ (ra rb : Fin 32) (cond : Fin 8) (ofs : BitVec 13), (6 ≤ cond.val → ra = 0 ∧ rb = 0) →
      atWord s k (encI 0x20 ra rb (8192 * cond + ofs.toNat)) →
      let a := c.reg ra
      let b := c.reg rb
      exec (.bcc k e) s = .next (branch (match cond with
        | 0 => a == b | 1 => a != b | 2 => a.slt b | 3 => !a.slt b | 4 => a.ult b | 5 => !a.ult b
        | 6 => c.st.timedOut | 7 => !c.st.timedOut) ofs)) ∧
    (∀ (ra : Fin 32) (i : BitVec 5) (cond : Fin 8) (ofs : BitVec 13),
      atWord s k (encI 0x21 ra i.toNat (8192 * cond + ofs.toNat)) →
      let a := c.reg ra
      exec (.bcci k e) s = .next (branch (match cond with
        | 0 => a == i.signExtend 32 | 1 => a != i.signExtend 32 | 2 => a.slt (i.signExtend 32) | 3 => !a.slt (i.signExtend 32)
        | 4 => a.ult (i.setWidth 32) | 5 => !a.ult (i.setWidth 32)
        | 6 => a.getLsbD i.toNat | 7 => !a.getLsbD i.toNat) ofs)) ∧
    (∀ ofs : BitVec 26, atWord s k (BitVec.ofNat 32 (0x22 * 2 ^ 26 + ofs.toNat)) →
      exec (.j k e) s = .next (jump (pc + ofs.signExtend 32 <<< 2))) ∧
    (∀ ra : Fin 32, atWord s k (encT 0x24 0 ra 0 0) → exec (.jr k e) s = .next (jump (c.reg ra))) ∧
    (c.st.span < 15 →
      (∀ ofs : BitVec 26, atWord s k (BitVec.ofNat 32 (0x23 * 2 ^ 26 + ofs.toNat)) →
        exec (.call k e) s = .next (call (pc + ofs.signExtend 32 <<< 2))) ∧
      (∀ ra : Fin 32, atWord s k (encT 0x24 0 ra 0 1) → exec (.callr k e) s = .next (call (c.reg ra)))) ∧
    (2 ≤ c.st.span → atWord s k (encT 0x24 0 0 0 2) →
      exec (.ret k e) s = .next (f.ctxUpd k fun c =>
        let d := c.closeFrame
        ({ d with st := { d.st with cwp := (d.st.cwp + 15) % 16 } } : Ctx).jumpTo (c.reg 23).toNat))

/-- R330 to R335: LOOP, LOOPI, REP and REPI that end no loop body, and what follows an instruction in sequence (`Ctx.retire`): the next
instruction; with a repetition to run, the same one; at the end of the inner open body LC falls and control goes to LS, or the level
closes when LC falls to 0 and the outer level is tested. -/
def Obligations.LoopsAndRepeats : Prop :=
  (∀ (k : Fin 16) (e : CoreEcc) (s : State), fetchGood e → (s.ctxOf k).endsBody = false →
    let f := fetched s k e
    let c := s.ctxOf k
    let opens := fun (n : Nat) (last : Nat) =>
      if 0x10000 ≤ last then f.raise k ⟨1, 0, 0⟩
      else if c.l0.isOpen && c.l1.isOpen then f.raise k ⟨6, 0, 0⟩
      else if n = 0 then f.ctxUpd k fun c => { c with instret := c.instret + 1, rep := none, pc := last + 4 }
      else f.ctxUpd k fun c => (c.openLoop n last).retire
    let repeats := fun (n : Nat) =>
      if 0x10000 ≤ c.pc + 4 ∨ repeatable (BitVec.ofNat 32 (leNat (s.cBytes k (c.pc + 4) 4))) = false then f.raise k ⟨1, 2, 0⟩
      else if n = 0 then f.ctxUpd k fun c => ({ c with instret := c.instret + 1, pc := c.pc + 4 } : Ctx).loopBack
      else f.ctxUpd k fun c => { c with instret := c.instret + 1, pc := c.pc + 4, rep := some n }
    (∀ (ra : Fin 32) (last : BitVec 12), atWord s k (encI 0x28 0 ra last.toNat) →
      exec (.loop k e) s = .next (opens (c.reg ra).toNat (c.pc + 4 + 4 * last.toNat))) ∧
    (∀ (n last : BitVec 12), atWord s k (BitVec.ofNat 32 (0x29 * 2 ^ 26 + n.toNat * 2 ^ 14 + last.toNat)) →
      exec (.loopi k e) s = .next (opens n.toNat (c.pc + 4 + 4 * last.toNat))) ∧
    (∀ ra : Fin 32, atWord s k (encI 0x2A 0 ra 0) → exec (.rep k e) s = .next (repeats (c.reg ra).toNat)) ∧
    (∀ n : BitVec 12, atWord s k (BitVec.ofNat 32 (0x2B * 2 ^ 26 + n.toNat)) → exec (.repi k e) s = .next (repeats n.toNat))) ∧
  (∀ c : Ctx,
    (c.retire).instret = c.instret + 1 ∧
    (∀ f : Fin 32, c.retire.reg f = c.reg f) ∧
    (c.rep = none → c.endsBody = false → c.retire.pc = c.pc + 4 ∧ c.retire.l0 = c.l0 ∧ c.retire.l1 = c.l1) ∧
    (∀ n, c.rep = some n → 1 < n → c.retire.pc = c.pc ∧ c.retire.rep = some (n - 1)) ∧
    (c.rep = none → c.atEnd c.l1 = true →
      (c.l1.count ≠ 1 → c.retire.pc = c.l1.start ∧ c.retire.l1 = { c.l1 with count := c.l1.count - 1 } ∧ c.retire.l0 = c.l0) ∧
      (c.l1.count = 1 → c.retire.l1 = { c.l1 with count := 0, isOpen := false } ∧
        (c.atEnd c.l0 = true → c.l0.count ≠ 1 → c.retire.pc = c.l0.start ∧ c.retire.l0 = { c.l0 with count := c.l0.count - 1 }) ∧
        (c.atEnd c.l0 = false → c.retire.pc = c.pc + 4 ∧ c.retire.l0 = c.l0))) ∧
    (c.rep = none → c.atEnd c.l1 = false → c.atEnd c.l0 = true → c.l0.count = 1 →
      c.retire.pc = c.pc + 4 ∧ c.retire.l0 = { c.l0 with count := 0, isOpen := false }))

/-- R337 to R339: taking an exception outside a handler without a spill, in a handler, and RETI without a fill. -/
def Obligations.ExceptionEntryAndReturn : Prop :=
  (∀ (s : State) (k : Fin 16) (x : Exc),
    let c := s.ctxOf k
    (c.st.exl = false → c.st.span ≤ 13 →
      s.raise k x = s.ctxUpd k fun d =>
        let d1 := d.forward 2
        { d1 with
          est := c.st, epc := c.pc, erep := c.rep.getD 0, el0 := c.l0, el1 := c.l1,
          cause := causeWord false x.info x.code, badaddr := x.bad, l0 := LoopLvl.reset, l1 := LoopLvl.reset, rep := none,
          wait := none, st := { d1.st with ldepth := 0, exl := true }, pc := c.vbase + 16 * x.code }) ∧
    (c.st.exl = true → (s.raise k x).cluOf k = { s.cluOf k with
        st := 3, failed := (s.cluOf k).failed || (s.cluOf k).inWindow, inWindow := false,
        autoDue := s.rb Fx.ENG_CFG_AUTO_RESTART k && !(s.cluOf k).failed && !(s.cluOf k).inWindow,
        ctx := { c with cause := causeWord false x.info x.code, badaddr := x.bad, wait := none } })) ∧
  (∀ (k : Fin 16) (e : CoreEcc) (s : State), fetchGood e → atWord s k (encI 0x1A 0 0 5) → (s.ctxOf k).endsBody = false →
    let c := s.ctxOf k
    c.st.exl = true → (c.st.cwp + 16 - c.est.cwp) % 16 + c.est.span ≤ c.st.span →
    exec (.reti k e) s = .next ((fetched s k e).ctxUpd k fun d =>
      { d with st := { c.est with timedOut := d.st.timedOut, wbot := d.st.wbot }, l0 := d.el0, l1 := d.el1, instret := d.instret + 1,
               pc := d.epc, rep := if d.erep = 0 then none else some d.erep }))

/-- R327, R328, R337, Table 09-9: the events of a core. An interrupt is taken on the lowest pending enabled line, ending a wait; the timer
reaches 0 and sets line 10; the waits of WAIT, TBWAIT and the Rill FIFO instructions end. -/
def Obligations.CoreEvents : Prop :=
  ∀ (k : Fin 16) (s : State),
    let c := s.ctxOf k
    (k.val < s.variant.cores → s.pll pllCore = true → (s.cluOf k).st = 1 → s.intDue k = true → c.wait ≠ some .wait →
      ∀ l : Fin 12, (∀ i < l.val, (s.wanted k).testBit i = false) → (s.wanted k).testBit l.val = true →
        exec (.interruptEntry k) s = .next
          (if l = 9 then (s.enter k true 25 ⟨25, 0, 0⟩).cluUpd k fun x => { x with portLine := false }
           else s.enter k true (16 + l.val) ⟨16 + l.val, 0, 0⟩)) ∧
    (c.timer = 1 → exec (.coreTimerExpiry k) s =
      .next (s.ctxUpd k fun c => { c with timer := 0, latched := Nat.lor c.latched (2 ^ 10) })) ∧
    ((s.cluOf k).st = 1 → ∀ expired : Bool,
      let ends := fun (t : State) (ended : Bool) => t.ctxUpd k fun c => (({ c with wait := none } : Ctx).setTo ended).retire
      (c.wait = some .wait → exec (.waitWake k expired) s =
        .next (if s.wanted k ≠ 0 then ends s false else if expired then ends s true else s)) ∧
      (∀ (n : Fin 8) (t : Int), c.wait = some (.tb n t) → exec (.tbwaitEnd k) s =
        .next (if s.tbOos n then ends s true else if t ≤ Int.ofNat (s.tbNs n) then ends s false else s)) ∧
      (∀ (n : Fin 48) (v : Word), c.wait = some (.push n v) → exec (.rfifoWaitEnd k expired) s = .next
        (if (s.rilOf n).tx.length < 4 then ends (s.rilUpd n fun x => { x with tx := x.tx ++ [(v, s.cyc.ticks)] }) false
         else if expired then ends s true else s)) ∧
      (∀ (n : Fin 48) (rd : Fin 32), c.wait = some (.pop n rd) → exec (.rfifoWaitEnd k expired) s = .next
        (match (s.rilOf n).rx with
          | v :: t => ends ((s.rilUpd n fun x => { x with rx := t }).ctxUpd k fun c => c.setReg rd v) false
          | [] => if expired then ends s true else s)))



/-! ### Engine run time (spec/10) -/

/-- R325, R348, R362 to R367: MBSEND, MBTAKE, MBACK, MBACKR and MBSTAT on a mailbox of the cluster, ACCESS_FAULT with INFO 0x0005 on another,
and the host's commands of MBX_CMD, each rejected where the host is not the endpoint it acts for. -/
def Obligations.Mailboxes : Prop :=
  (∀ (k : Fin 16) (e : CoreEcc) (s : State) (rd ra rb : Fin 32) (m : Fin 64), fetchGood e →
    let f := fetched s k e
    let x := s.mbxOf m
    let g := fun (r : Fin 32) => (s.ctxOf k).reg r
    let sends := f.mbxEn m = true ∧ f.mbxSnd m = k
    let takes := f.mbxEn m = true ∧ f.mbxRcv m = k
    let fault := f.raise k ⟨2, 5, 0⟩
    (atWord s k (encX 0x15 rd ra rb m 0) →
      (¬ sends → exec (.mbsend k e) s = .next fault) ∧
      (sends → f.mbxRcv m ≠ k → ∃ t, exec (.mbsend k e) s = .next t ∧
        t.mbxOf m = { x with ptr := g ra, tag := (g rb).toNat % 65536, valid := true, coll := x.valid, ageFrom := some (s.tbNs 0), age := 0 } ∧
        t.ctxOf k = ((s.ctxOf k).setReg rd (BitVec.ofNat 32 (b2n x.valid))).retire ∧ t.pool = s.pool ∧ t.core = s.core)) ∧
    (atWord s k (encX 0x15 rd 0 0 m 1) → exec (.mbtake k e) s = .next (if ¬ takes then fault else
      (f.mbxUpd m fun y => { y with valid := false, coll := false }).ctxUpd k fun c =>
        ({ c.setReg rd (if x.valid then x.ptr else 0#32) with
           mbtag := if x.valid then BitVec.ofNat 32 (2 ^ 31 + b2n x.coll * 2 ^ 30 + x.tag) else 0#32 } : Ctx).retire)) ∧
    (atWord s k (encX 0x15 0 ra 0 m 2) →
      (¬ takes → exec (.mback k e) s = .next fault) ∧
      (takes → ∃ t, exec (.mback k e) s = .next t ∧
        t.mbxOf m = { x with code := (g ra).toNat % 65536, ackValid := true, ackColl := x.ackValid, ageFrom := none, age := f.mbxAge m } ∧
        t.ctxOf k = (s.ctxOf k).retire ∧ t.pool = s.pool ∧ t.core = s.core)) ∧
    (atWord s k (encX 0x15 rd 0 0 m 3) → exec (.mbackr k e) s = .next (if ¬ sends then fault else
      (f.mbxUpd m fun y => { y with ackValid := false, ackColl := false }).ctxUpd k fun c =>
        (c.setReg rd (BitVec.ofNat 32 (b2n x.ackValid * 2 ^ 31 + x.code))).retire)) ∧
    (atWord s k (encX 0x15 rd 0 0 m 4) → exec (.mbstat k e) s = .next (if ¬ (sends ∨ takes) then fault else
      f.ctxUpd k fun c => (c.setReg rd (f.mbxSts m)).retire))) ∧
  (∀ (s : State) (src : Master) (m : Fin 64) (data : BitVec 16), live s →
    let x := s.mbxOf m
    let word := fun (op : Nat) => BitVec.ofNat 32 (data.toNat * 65536 + op)
    let refused := fun (op : Nat) => Host.Outcome.next (s.reject src .rsvEnc (0x9100C + 16 * m.val) (word op))
    (s.mbxEn m = false ∨ s.mbxSnd m ≠ 16 →
      exec (.mbxCmdSend src m data) s = refused 1 ∧ exec (.mbxCmdAckClr src m data) s = refused 4) ∧
    (s.mbxEn m = false ∨ s.mbxRcv m ≠ 16 →
      exec (.mbxCmdTake src m data) s = refused 2 ∧ exec (.mbxCmdAck src m data) s = refused 3) ∧
    (s.mbxEn m = true → s.mbxSnd m = 16 → s.mbxRcv m ≠ 16 →
      (s.rb Fx.MBX_CFG_SOFT m = false → exec (.mbxCmdSend src m data) s = .next (s.mbxUpd m fun y =>
        { y with ptr := s.rg .MBX_HOST_PTR, tag := data.toNat, valid := true, coll := x.valid, ageFrom := some (s.tbNs 0), age := 0 })) ∧
      (s.rb Fx.MBX_CFG_SOFT m = true → s.mbxRcv m < 16 → ∃ t, exec (.mbxCmdSend src m data) s = .next t ∧ (t.mbxOf m).valid = true ∧
        (t.ipend (s.mbxRcv m)).testBit 11 = true) ∧
      exec (.mbxCmdAckClr src m data) s = .next (s.mbxUpd m fun y => { y with ackValid := false, ackColl := false })) ∧
    (s.mbxEn m = true → s.mbxRcv m = 16 → s.mbxSnd m ≠ 16 →
      exec (.mbxCmdTake src m data) s = .next (s.mbxUpd m fun y => { y with valid := false, coll := false }) ∧
      exec (.mbxCmdAck src m data) s = .next (s.mbxUpd m fun y =>
        { y with code := data.toNat, ackValid := true, ackColl := x.ackValid, ageFrom := none, age := s.mbxAge m })))

/-- R352, R368 to R381, Tables 10-4 and 10-5: locks; the cluster commands in the states that accept them, RSV_ENC in the others; a restart and the
end of its window; a migration asked for, run at a tick with the token, complete, abandoned or out of time; cores in and out of service. -/
def Obligations.LocksClustersAndMigration : Prop :=
  (∀ (s : State) (n : Fin 64) (m : Master) (v : Word), live s →
    (∀ k : Fin 16,
      (s.lckOf n = 0 → exec (.lockRead (.cluster k) n) s = .next { s with lck := vupd s.lck n fun _ => 2 ^ 31 + k.val }) ∧
      (s.lckOf n ≠ 0 → exec (.lockRead (.cluster k) n) s = .next s) ∧
      (s.lckOf n = 2 ^ 31 + k.val → exec (.lockWrite (.cluster k) n 0#32) s = .next { s with lck := vupd s.lck n fun _ => 0 }) ∧
      (regsRising s → v ≠ 0#32 ∨ s.lckOf n ≠ 2 ^ 31 + k.val →
        ∃ t, exec (.lockWrite (.cluster k) n v) s = .next t ∧ onlyRegs s t ∧ counted s t Fx.ENG_LOCK_CNT_BAD)) ∧
    (exec (.lockRead (.host m) n) s =
      .next { s with
        lck := vupd s.lck n (fun x => if x = 0 then 2 ^ 31 + (if m = .pcie then 0x10 else 0x11) else x)
        out := s.out ++ [.readData m (0xA0F00 + 4 * n.val) 4 (s.lckOf n)] }) ∧
    (s.lckOf n = 0 → exec (.lockForce m n) s = .next s) ∧
    (s.lckOf n ≠ 0 → regsRising s →
      ∃ t, exec (.lockForce m n) s = .next t ∧ t.lck = vupd s.lck n (fun _ => 0) ∧ counted s t Fx.ENG_LOCK_CNT_FREED)) ∧
  (∀ (s : State) (m : Master) (k : Fin 16), live s → k.val < s.variant.cores → regsRising s →
    let c := s.cluOf k
    let refused := fun (v : Nat) => Host.Outcome.next (s.reject m .rsvEnc (0xB0010 + 0x1000 * k.val) (BitVec.ofNat 32 v))
    (c.st = 0 → c.loaded = true → (s.coreOf c.phys).oos = false →
      ∃ t, exec (.engStart m k) s = .next t ∧ freshRun s t k ∧ (t.fqOf k).free = s.fqBuffers k ∧ t.lck = s.lck) ∧
    (c.st = 2 → exec (.engStart m k) s = .next (s.cluUpd k fun c => { c with st := 1 })) ∧
    (c.st = 1 ∨ c.st = 3 ∨ c.st = 4 ∨ (c.st = 0 ∧ c.loaded = false) → exec (.engStart m k) s = refused 1) ∧
    (c.st = 1 → exec (.engStop m k) s = .next (s.cluUpd k fun c => { c with st := 2, ctx := { c.ctx with wait := none } })) ∧
    (c.st ≠ 1 → exec (.engStop m k) s = refused 2) ∧
    (c.st = 1 ∨ c.st = 2 ∨ c.st = 3 → ∃ t, exec (.engRestart m k) s = .next t ∧ freshRun s t k ∧ (t.cluOf k).failed = false ∧
      (t.fqOf k).ready = (s.fqOf k).ready ∧ locksFreed s t k) ∧
    (c.st = 0 ∨ c.st = 4 → exec (.engRestart m k) s = refused 3) ∧
    (exec (.engSoft m k) s = .next (s.ctxUpd k fun c => { c with latched := Nat.lor c.latched 0x800 })) ∧
    (c.st = 3 → c.autoDue = true → ∃ t, exec (.autoRestart k) s = .next t ∧ freshRun s t k ∧ (t.cluOf k).inWindow = true ∧ locksFreed s t k) ∧
    (c.inWindow = true → ∃ t, exec (.restartWindowExpiry k) s = .next t ∧ (t.cluOf k).inWindow = false ∧
      t.ctxOf k = s.ctxOf k ∧ counted s t Fx.ENG_CNT_RESTART_OK k) ∧
    (∀ target : Fin 32, target ≤ 16 → c.st = 1 ∨ c.st = 2 ∨ c.st = 3 →
      (target.val = c.phys ∨ c.migPending = true ∨ s.tickRun = false → exec (.engMigrate m k target) s = refused (target.val * 256 + 4)) ∧
      (target.val ≠ c.phys → c.migPending = false → s.tickRun = true →
        (target.val < 16 → s.variant.cores ≤ target.val → ∃ t, exec (.engMigrate m k target) s = .next t ∧
          t.rf Fx.ENG_MIG_STS_RESULT = 3 ∧ t.rf Fx.ENG_MIG_STS_CLUSTER = k ∧ (t.cluOf k).migPending = false ∧ t.tok = s.tok) ∧
        (target.val < s.variant.cores ∨ target = 16 → s.tok.holder = 0 → s.tok.fifo = [] → ∃ t, exec (.engMigrate m k target) s = .next t ∧
          (t.cluOf k).migPending = true ∧ t.tok.holder = 1 ∧ t.mig = s.mig ++ [⟨k, target, none, none⟩] ∧ (t.cluOf k).st = c.st)))) ∧
  (∀ (s : State) (k : Fin 16) (target : Nat), regsRising s → s.tok = ⟨1, []⟩ → s.mig = [⟨k, target, none, none⟩] → s.tickRun = true →
    target < 16 →
    (s.coreFree target = true → exec .migrationRun s = .next { s.cluUpd k (fun c =>
      { c with st := 4, migFrom := c.st, ctx := { c.ctx with wait := none } }) with mig := [⟨k, target, none, some target⟩] }) ∧
    (s.coreFree target = false → ∃ t, exec .migrationRun s = .next t ∧ t.rf Fx.ENG_MIG_STS_RESULT = 2 ∧ t.tok = ⟨0, []⟩ ∧ t.mig = [] ∧
      (t.cluOf k).st = (s.cluOf k).st ∧ (t.cluOf k).phys = (s.cluOf k).phys ∧ (t.cluOf k).migPending = false)) ∧
  (∀ (s : State) (k j n : Fin 16) (ns : Nat), regsRising s → s.tok = ⟨1, []⟩ → s.mig = [⟨k, n, none, some n.val⟩] → (s.cluOf k).st = 4 →
    (s.fqOf k).aside = [] → (∀ i : Fin 16, i ≠ j → (s.cluOf i).phys ≠ n) → (s.cluOf j).phys = n → j ≠ k → (s.cluOf k).phys < 16 →
    ((s.cluOf k).migFrom = 1 ∨ (s.cluOf k).migFrom = 2 → ∃ t, exec (.migrationComplete false ns) s = .next t ∧
      (t.cluOf k).st = (s.cluOf k).migFrom ∧ t.ctxOf k = s.ctxOf k ∧ (t.cluOf k).phys = n ∧ (t.cluOf j).phys = (s.cluOf k).phys ∧
      (t.coreOf n).imem = (s.coreOf (s.cluOf k).phys).imem ∧ (t.coreOf n).dmem = (s.coreOf (s.cluOf k).phys).dmem ∧
      t.rf Fx.ENG_MIG_STS_RESULT = 1 ∧ t.rf Fx.ENG_MIG_STS_TO = n ∧ t.rf Fx.ENG_MIG_STS_TIME = min ((ns + 9) / 10) 0xFFF ∧
      t.tok = ⟨0, []⟩ ∧ t.mig = [] ∧ t.mbx = s.mbx ∧ t.lck = s.lck) ∧
    (let left := fun (t : State) (result : Nat) => (t.cluOf k).st = (s.cluOf k).migFrom ∧ t.ctxOf k = s.ctxOf k ∧ t.core = s.core ∧
       (t.cluOf k).phys = (s.cluOf k).phys ∧ t.rf Fx.ENG_MIG_STS_RESULT = result ∧ t.tok = ⟨0, []⟩ ∧ t.mig = []
     (∃ t, exec (.migrationComplete true ns) s = .next t ∧ left t 4) ∧ ∃ t, exec .migrationTimeout s = .next t ∧ left t 5)) ∧
  (∀ (s : State) (m : Master) (n : Fin 16), live s → n.val < s.variant.cores →
    (s.coreFree n = true → (s.cluOf (s.clusterOn n)).st = 0 →
      exec (.coreOutOfService m n) s = .next (s.coreUpd n fun c => { c with oos := true })) ∧
    ((s.coreOf n).oos = true → exec (.coreInService m n) s = .next (s.coreUpd n fun c => { c with init := true })) ∧
    ((s.coreOf n).oos = false → exec (.coreInService m n) s = .next (s.reject m .rsvEnc (0xB0400 + 0x1000 * n.val) 2#32)) ∧
    ((s.coreOf n).init = true → ∃ t, exec (.coreInitDone n) s = .next t ∧ t.coreOf n = PCore.reset ∧ t.bankSt (16 + n.val) = 0))

/-- R329, R353 to R361, Tables 10-2 and 10-3: FQTX, FQRX, FQFREE and FQLVL; a request whose frame has been read enters SP15 or, on a failed read,
ends with DMA_ERR; its completion is written into its last bytes; a frame at SP15 is written behind its record into the oldest free buffer of
the cluster it is steered to, or counted. -/
def Obligations.FrameQueues : Prop :=
  (∀ (k : Fin 16) (e : CoreEcc) (s : State) (rd ra : Fin 32), fetchGood e →
    let f := fetched s k e
    let a := ((s.ctxOf k).reg ra).toNat
    let q := s.fqOf k
    let gives := fun (t : State) (v : Nat) => (t.ctxUpd k fun c => (c.setReg rd (BitVec.ofNat 32 v)).retire)
    (atWord s k (encT 0x18 rd ra 0 0) →
      let u := f.fqUpd k fun q => { q with refused := false, line7 := false }
      let d := s.fqRead k a 32
      (a % 8 ≠ 0 → exec (.fqtx k e) s = .next (gives (u.bump Fx.ENG_FQ_TXCNT_INVALID 1 k) 2)) ∧
      (∀ (addr len port tc tag : Nat) (wb : List Byte), a % 8 = 0 → inDataOrPool a 32 = true → d = frameRequest addr len port tc tag wb →
        port < 17 → port ≠ 15 → tc < 8 → 14 ≤ len → len ≤ 9216 → addr < 2 ^ 32 → inDataOrPool addr len = true →
        (16 ≤ q.work.length ∨ (s.inOf 15).bp = true → exec (.fqtx k e) s =
          .next (gives ((u.fqUpd k fun q => { q with refused := true }).bump Fx.ENG_FQ_TXCNT_REFUSED 1 k) 1)) ∧
        (q.work.length < 16 → (s.inOf 15).bp = false → s.variant.hasPort port = true → len + 4 ≤ f.maxLen port true →
          exec (.fqtx k e) s = .next (gives
            (u.fqUpd k fun q => { q with work := q.work ++ [⟨q.nextReq, [d], .reading, [], a⟩], nextReq := q.nextReq + 1 }) 0)))) ∧
    (atWord s k (encT 0x18 rd 0 0 1) →
      (q.ready = [] → exec (.fqrx k e) s = .next (gives f 0)) ∧
      (∀ b rest, q.ready = b :: rest →
        exec (.fqrx k e) s = .next (gives (f.fqUpd k fun q => { q with ready := rest, held := q.held ++ [b] }) b))) ∧
    (atWord s k (encT 0x18 0 ra 0 2) → exec (.fqfree k e) s = .next
      ((if a ∈ q.held then f.fqUpd k fun q => { q with held := q.held.erase a, free := q.free ++ [a] }
        else f.bump Fx.ENG_FQ_CNT_BADFREE 1 k).ctxUpd k Ctx.retire)) ∧
    (atWord s k (encT 0x18 rd 0 0 3) →
      exec (.fqlvl k e) s = .next (gives f ((16 - q.work.length) * 65536 + q.ready.length)))) ∧
  (∀ (k : Fin 16) (s : State) (i a addr len port tc tag : Nat) (wb : List Byte),
    port < 17 → port ≠ 15 → tc < 8 → len < 65536 → addr < 2 ^ 32 → (s.cluOf k).st ≠ 4 →
    let d := frameRequest addr len port tc tag wb
    let entry := fun (ph : TxPhase) => [TxEntry.mk i [d] ph [] a]
    let data := s.fqRead k addr len
    let padded := data ++ List.replicate (60 - len) 0#8
    let v := s.classify 15 padded
    (s.fqOf k).work = entry .reading →
    (exec (.fqFrameReadDone k true) s = .next (s.fqUpd k fun q => { q with work := entry (.done 0x04) })) ∧
    (s.rb Fx.CFL_CTL_EN = true → exec (.fqFrameReadDone k false) s = .next
      (if s.rf Fx.CFL_PORT_CFG_STATE 15 = 0 then (s.fqUpd k fun q => { q with work := entry (.done 0x05) }).icnt 15 3
       else (s.fqUpd k fun q => { q with work := entry (.inSwitch 1) }).storeComplete
        (mkFrame padded 15 tc v.1 v.2 (.core k i k) none true none 0) [port]))) ∧
  (∀ (k : Fin 16) (s : State) (x : TxEntry) (rest : List TxEntry) (st : Nat), (s.fqOf k).work = x :: rest → (s.cluOf k).st ≠ 4 →
    (x.phase = .reading → exec (.fqTxCompletion k) s = .next s) ∧
    (x.phase = .done st → st < 256 → 0x10000 ≤ x.addr → x.addr + 32 ≤ 0x20000 → s.coreOn k = true → x.stamp = none → s.physOf k < 16 →
      scanon (0#8) 0 (s.coreOf (s.physOf k)).dmem = true →
      ∃ t, exec (.fqTxCompletion k) s = .next t ∧ (t.fqOf k).work = rest ∧
        ((s.fqOf k).refused = true → (t.ipend k).testBit 7 = true) ∧ t.pool = s.pool ∧
        (t.cBytes k (x.addr + 30) 2 = [BitVec.ofNat 8 st, 0x80]) ∧
        ∀ b, 0x10000 ≤ b → b < x.addr + 24 ∨ x.addr + 32 ≤ b → t.cBytes k b 1 = s.cBytes k b 1)) ∧
  (∀ (s : State) (f : Delivered) (rest : List Delivered), s.sinkOf 1 = f :: rest → f.ecc = false →
    (∀ r : Fin 16, s.rb Fx.ENG_FQ_ETYPE_EN r = false) →
    let j := 8 * f.inp + f.cls
    let k := s.rf Fx.ENG_FQ_STEER_CLUSTER j
    let p := s.sinkPop 1
    (s.rb Fx.ENG_FQ_STEER_EN j = false → exec .fqRxDelivery s = .next (p.bump Fx.ENG_FQ_NOSTEER_COUNT)) ∧
    (s.rb Fx.ENG_FQ_STEER_EN j = true →
      (s.cluOf k).st ≠ 4 → (s.fqOf k).free = [] → exec .fqRxDelivery s = .next (p.bump Fx.ENG_FQ_CNT_NOBUF 1 k)) ∧
    (∀ (b t : Nat) (free : List Nat), s.rb Fx.ENG_FQ_STEER_EN j = true → (s.cluOf k).st = 1 → (s.fqOf k).free = b :: free →
      s.rf Fx.ENG_FQ_RXGEO_COUNT k ≠ 0 → f.stamp = some t →
      let size := s.rf Fx.ENG_FQ_RXGEO_BUFSZ k * 64
      (size < f.data.length + 16 → exec .fqRxDelivery s = .next (p.bump Fx.ENG_FQ_CNT_TOOBIG 1 k)) ∧
      (f.data.length + 16 ≤ size → 0x10000 ≤ b → b + size ≤ 0x20000 → s.coreOn k = true → f.inp < 17 → f.cls < 8 → f.tci < 65536 →
        s.physOf k < 16 → scanon (0#8) 0 (s.coreOf (s.physOf k)).dmem = true →
        ∃ u, exec .fqRxDelivery s = .next u ∧ (u.fqOf k).ready = (s.fqOf k).ready ++ [b] ∧ (u.fqOf k).free = free ∧
          (u.ipend k).testBit 6 = true ∧ u.pool = s.pool ∧ u.cBytes k (b + 16) f.data.length = f.data ∧
          u.cBytes k b 16 = leBytes 2 f.data.length ++ leBytes 1 (f.cls * 32 + f.inp) ++
            leBytes 1 (b2n (isTagged f.data) * 16 + 8 + f.stampTb % 8) ++ leBytes 2 f.tci ++ [0, 0] ++ leBytes 4 (t / 256) ++
            leBytes 1 t ++ [0, 0, 0])))


/-! ### The Rill engines (spec/11) -/

/-- Table 11-2, R385 to R395: what each Rill instruction does to its engine, at every operand its encoding admits; what waits, and what
ends the wait; a word that Table 11-2 does not define, or that uses a slot against its set-up, stops the engine with FAULT. -/
def Obligations.RillInstructions : Prop :=
  ∀ (s : State) (e : Fin 48) (cl st : Fin 16) (lv before : BitVec 4),
    let r := s.rilOf e
    let c := clDone cl r
    let next := fun (n : Nat) (x : Ril) => ranTo s e (n + st) (r.pc + 1) x
    let put := fun (x : Ril) => Host.Outcome.next (s.rilUpd e fun _ => x)
    let cmp := ((r.sr ^^^ s.rg .RIL_CMP_VAL e) &&& s.rg .RIL_CMP_MASK e) == 0#32
    let head := match r.tx with
      | [] => none
      | (v, t) :: _ => if s.rb Fx.RIL_ECFG_CYC_SYNC e = true → t < s.cyc.ticks then some v else none
    let wait := put { c with waiting := true }
    (∀ (test : Fin 7) (slot : Fin 4) (addr : Fin 32), (test ≠ 2 ∧ test ≠ 3 → slot = 0) →
      rillAt s e (rillIns 0 cl st (test * 2 ^ 19 + slot * 2 ^ 17 + addr)) →
      let taken := match test with | 0 => true | 1 => decide (2 ≤ r.ctr) | 2 => lv.getLsbD slot | 3 => !lv.getLsbD slot | 4 => cmp | 5 => !cmp
                                   | 6 => head.isSome
      exec (.rillGoto e lv) s = put (ranTo s e (1 + st) (if taken then addr else r.pc + 1)
        { c with ctr := if test = 1 then r.ctr - 1 else r.ctr })) ∧
    (∀ (event : Fin 6) (slot : Fin 4), (4 ≤ event → slot = 0) → rillAt s e (rillIns 1 cl st (event * 2 ^ 19 + slot * 2 ^ 17)) →
      let holds := match event with | 0 => !lv.getLsbD slot | 1 => lv.getLsbD slot | 2 => !lv.getLsbD slot && before.getLsbD slot
                                    | 3 => lv.getLsbD slot && !before.getLsbD slot | 4 => cmp | 5 => false
      exec (.rillAwait e lv before) s = if holds then put (next 1 c) else wait) ∧
    (∀ (islot oslot : Fin 4) (samples : List (Bool × Nat)), samples.length ≤ 32 → samples ≠ [] →
      let n := samples.length
      let bits_ := samples.map Prod.fst
      let right := s.rb Fx.RIL_ECFG_IN_SHR e
      let rightOut := s.rb Fx.RIL_ECFG_OUT_SHR e
      let driven := if rightOut then r.sr.getLsbD (n - 1) else r.sr.getLsbD (32 - n)
      let drives := fun (x : Ril) => { x with slots := vupd x.slots oslot fun y => { y with level := driven } }
      (rillAt s e (rillIns 2 cl st (2 ^ 20 + islot * 2 ^ 18 + (n - 1))) → ∃ t, exec (.rillShift e samples) s = .next t ∧
        rilIs s t e (next n { c with sr := shiftIn right r.sr bits_, bc := min 32 (r.bc + n) })) ∧
      (rillAt s e (rillIns 2 cl st (2 ^ 21 + oslot * 2 ^ 16 + (n - 1))) → ∃ t, exec (.rillShift e samples) s = .next t ∧
        rilIs s t e (next n (drives { c with sr := if rightOut then r.sr >>> n else r.sr <<< n, bc := min 32 (r.bc + n) }))) ∧
      (rillAt s e (rillIns 2 cl st (2 ^ 21 + 2 ^ 20 + islot * 2 ^ 18 + oslot * 2 ^ 16 + (n - 1))) → right = rightOut →
        ∃ t, exec (.rillShift e samples) s = .next t ∧
          rilIs s t e (next n (drives { c with sr := shiftIn right r.sr bits_, bc := min 32 (r.bc + n) })))) ∧
    (∀ reuse : Bool, rillAt s e (rillIns 3 cl st (b2n reuse * 2 ^ 21)) →
      (∀ v, head = some v → ∃ t, exec (.rillFetch e) s = .next t ∧ rilIs s t e (next 1 { c with sr := v, last := v, bc := 0, tx := r.tx.drop 1 }) ∧
        (regsRising s → cmp = false → ((v ^^^ s.rg .RIL_CMP_VAL e) &&& s.rg .RIL_CMP_MASK e) = 0#32 →
          t.rb Fx.RIL_STS_CMP_EV e = true ∧ (t.rilOf e).tsNs = s.tbTime (s.rf Fx.RIL_ECFG_TS_TB e) / 2 ^ 32 % 2 ^ 32)) ∧
      (head = none → reuse = true → ∃ t, exec (.rillFetch e) s = .next t ∧ rilIs s t e (next 1 { c with sr := r.last }) ∧
        (regsRising s → t.rb Fx.RIL_STS_REUSED e = true)) ∧
      (head = none → reuse = false → exec (.rillFetch e) s = wait)) ∧
    (∀ stamp drop zero : Bool, rillAt s e (rillIns 4 cl st (b2n stamp * 2 ^ 21 + b2n drop * 2 ^ 20 + b2n zero * 2 ^ 19)) →
      let after := fun (rx : List Word) => next 1 { c with rx := rx, bc := if stamp then r.bc else 0, sr := if zero then 0#32 else r.sr }
      (r.rx.length < 4 → ∃ t, exec (.rillPost e) s = .next t ∧
        rilIs s t e (after (r.rx ++ [if stamp then BitVec.ofNat 32 r.tsNs else r.sr]))) ∧
      (4 ≤ r.rx.length → drop = true → ∃ t, exec (.rillPost e) s = .next t ∧ rilIs s t e (after r.rx) ∧
        (regsRising s → counted s t Fx.RIL_CNT_RX_OVF e)) ∧
      (4 ≤ r.rx.length → drop = false → exec (.rillPost e) s = wait)) ∧
    (∀ (slot : Fin 4) (v : BitVec 16),
      (∀ b : Bool, rillAt s e (rillIns 5 cl st (slot * 2 ^ 17 + b2n b)) → exec (.rillLoad e) s =
        put (next 1 { c with slots := vupd c.slots slot fun x => { x with level := b } })) ∧
      (∀ b : Bool, rillAt s e (rillIns 5 cl st (2 ^ 20 + slot * 2 ^ 17 + b2n b)) → exec (.rillLoad e) s =
        put (next 1 { c with slots := vupd c.slots slot fun x => { x with drive := b, released := !b } })) ∧
      (rillAt s e (rillIns 5 cl st (2 ^ 21 + v.toNat)) →
        exec (.rillLoad e) s = put (next 1 { c with ctr := v.toNat }))) ∧
    (∀ sel : Fin 4, rillAt s e (rillIns 6 cl st (sel * 2 ^ 19)) → ∃ t, exec (.rillCopy e lv) s = .next t ∧
      rilIs s t e (next 1 (match sel with
        | 0 => { c with ctr := r.sr.toNat % 65536 }
        | 1 => { c with sr := BitVec.ofNat 32 r.ctr }
        | 2 => { c with sr := lv.setWidth 32 }
        | 3 => { c with ctr := r.bc }))) ∧
    (∀ (slot : Fin 4) (level lvl lvl2 : Bool) (fail : Fin 32), rillAt s e (rillIns 7 cl st (slot * 2 ^ 17 + b2n level * 2 ^ 16 + fail)) →
      (lvl = level → exec (.rillVerify e lvl lvl2) s = put (next 1 c)) ∧
      (lvl ≠ level → s.rf Fx.RIL_ECFG_RESAMPLE e ≠ 0 → lvl2 = level → regsRising s → ∃ t, exec (.rillVerify e lvl lvl2) s = .next t ∧
        t.rilOf e = next 1 c ∧ counted s t Fx.RIL_CNT_RESAMPLE_OK e) ∧
      (lvl ≠ level → s.rf Fx.RIL_ECFG_RESAMPLE e = 0 ∨ lvl2 ≠ level → regsRising s → ∃ t, exec (.rillVerify e lvl lvl2) s = .next t ∧
        t.rilOf e = ranTo s e (1 + st) fail c ∧ counted s t Fx.RIL_CNT_FRAME_ERR e)) ∧
    (rillAt s e 0xF0000000#32 → regsRising s → ∃ t, exec (.rillHalt e) s = .next t ∧ (t.rilOf e).st = 0 ∧ t.rb Fx.RIL_STS_DONE e = true ∧
      (t.rilOf e).sr = r.sr ∧ (t.rilOf e).pc = r.pc ∧ (t.rilOf e).tx = r.tx ∧ (t.rilOf e).rx = r.rx) ∧
    (r.st = 1 → r.waiting = true → ∀ (w : Word), s.rg .RIL_PROG e r.pc = w →
      let goes := fun (x : Ril) => ranTo s e (1 + st) (r.pc + 1) x
      (∀ slot : Fin 4, w = rillIns 1 cl st (2 ^ 19 + slot * 2 ^ 17) →
        exec (.rillWaitEnd e lv before) s = if lv.getLsbD slot then put (goes r) else .next s) ∧
      (w = rillIns 3 cl st 0 → ∀ v, head = some v → ∃ t, exec (.rillWaitEnd e lv before) s = .next t ∧
        rilIs s t e (goes { r with sr := v, last := v, bc := 0, tx := r.tx.drop 1 })) ∧
      (w = rillIns 4 cl st 0 → r.rx.length < 4 →
        exec (.rillWaitEnd e lv before) s = put (goes { r with rx := r.rx ++ [r.sr], bc := 0 }))) ∧
    (e.val < s.variant.engines → s.pll pllRill = true → r.st = 1 → r.waiting = false → regsRising s →
      let w := s.rg .RIL_PROG e r.pc
      rOp w = 8 ∨ (rOp w = 15 ∧ w ≠ 0xF0000000#32) ∨ (rOp w = 3 ∧ w.getLsbD 0 = true) ∨ (rOp w ≠ 15 ∧ rCl w ≠ 0 ∧ s.slotOut e 3 = false) →
      ∀ i ∈ [Instr.rillGoto e lv, .rillAwait e lv before, .rillFetch e, .rillPost e, .rillLoad e, .rillCopy e lv, .rillHalt e],
        ∃ t, exec i s = .next t ∧ (t.rilOf e).st = 0 ∧ (t.rilOf e).pc = r.pc ∧ (t.rilOf e).sr = r.sr ∧ t.rb Fx.RIL_STS_FAULT e = true)

/-- R398 to R406: starts, stops, synchronous starts and phase restarts, the release of each cycle, groups out of and in service, and program
words, with what each rejects or refuses. -/
def Obligations.RillControl : Prop :=
  (∀ (s : State) (m : Master) (e : Fin 48), live s → e.val < s.variant.engines → regsRising s →
    let r := s.rilOf e
    let started := fun (x : Ril) (clr flush : Bool) => x.st = 1 ∧ x.pc = s.rf Fx.RIL_ECFG_ENTRY e ∧ x.bc = 0 ∧ x.acc = 0 ∧ x.ctr = r.ctr ∧
      x.last = r.last ∧ x.sr = (if clr then 0#32 else r.sr) ∧ x.tx = (if flush then [] else r.tx) ∧ x.rx = (if flush then [] else r.rx) ∧
      ∀ j : Fin 4, s.slotOut e j = true → (vget Slot.reset r.slots j).released = true →
        vget Slot.reset x.slots j = ⟨s.rb Fx.RIL_SLOT_LVL_INIT e j, s.rb Fx.RIL_SLOT_OE_INIT e j, false⟩
    (∀ clr flush : Bool, let v := b2n flush * 8 + b2n clr * 4 + 1
      (r.st = 0 → s.pllStopped pllRill = false → ∃ t, exec (.rilStart m e clr flush) s = .next t ∧ started (t.rilOf e) clr flush ∧
        ∀ i : Fin 48, i ≠ e → t.rilOf i = s.rilOf i) ∧
      (r.st ≠ 0 → exec (.rilStart m e clr flush) s = .next (s.reject m .rsvEnc (0x71010 + 0x40 * e.val) (BitVec.ofNat 32 v)))) ∧
    (exec (.rilStop m e) s = .next (if r.st = 1 then s.rilUpd e fun r => { r with st := 2 } else s)) ∧
    (r.st = 2 → ∃ t, exec (.rilStopEffect e) s = .next t ∧ t.regs = s.regs ∧
      t.rilOf e = { r with st := 0, waiting := false, slots := (t.rilOf e).slots } ∧
      ∀ j : Fin 4, vget Slot.reset (t.rilOf e).slots j =
        (if s.slotOut e j = true ∧ s.rb Fx.RIL_SLOT_REL_STOP e j = true then { vget Slot.reset r.slots j with released := true, drive := false }
         else vget Slot.reset r.slots j)) ∧
    (∀ (st : Fin 16) (islot : Fin 4) (n : Fin 32) (samples : List (Bool × Nat)), r.st = 2 → s.pll pllRill = true →
      s.rillWord e = rillIns 2 0 st (2 ^ 20 + islot * 2 ^ 18 + n) → s.slotEn e islot = true → samples.length ≤ n →
      ∃ t, exec (.rillShift e samples) s = .next t ∧ (t.rilOf e).sr = shiftIn (s.rb Fx.RIL_ECFG_IN_SHR e) r.sr (samples.map Prod.fst) ∧
        (t.rilOf e).bc = (if samples = [] then r.bc else min 32 (r.bc + samples.length)) ∧ (t.rilOf e).pc = r.pc ∧ (t.rilOf e).st = 2) ∧
    (∀ (i : Fin 32) (v : Word), s.lock = false →
      (r.st = 0 → exec (.programWordWrite m e i v) s = .next (s.sg .RIL_PROG e i v)) ∧
      (r.st ≠ 0 → exec (.programWordWrite m e i v) s = .next (s.wf Fx.RIL_STS_PROG_REJ 1 e))) ∧
    (∀ (i : Fin 32) (v : Word), s.lock = true →
      exec (.programWordWrite m e i v) s = .next (s.reject m .locked (0x74000 + 0x80 * e.val + 4 * i.val) v)) ∧
    (e.val < 16 → s.rilSyncLo = 2 ^ e.val → r.st = 0 → s.pllStopped pllRill = false →
      ∃ t, exec (.syncStart m 0) s = .next t ∧ started (t.rilOf e) false false ∧ (∀ i : Fin 48, i ≠ e → t.rilOf i = s.rilOf i) ∧ t.rilSyncLo = 0) ∧
    (e.val < 16 → s.rilSyncLo = 2 ^ e.val → r.st ≠ 0 →
      exec (.syncStart m 0) s = .next (s.reject m .rsvEnc 0x70004 0x40000000#32)) ∧
    (s.rilSyncLo = 0 → s.pllStopped pllRill = false → ∀ hi : Fin 16, e.val = 32 + hi.val → r.st ≠ 3 →
      exec (.syncPhase m (BitVec.ofNat 16 (2 ^ hi.val))) s = .next (s.rilUpd e fun r =>
        if s.rb Fx.RIL_ECFG_CYC_SYNC e = false ∧ r.st = 1 ∧ s.inAwaitCycle e = true then
          ranTo s e (1 + rStretch (s.rillWord e)) (r.pc + 1) { r with acc := 0 }
        else { r with acc := 0 }))) ∧
  (∀ s : State, s.cyc.rillDone = false → s.tickRun = true → regsRising s →
    ∃ t, exec .rillSyncRelease s = .next t ∧ t.cyc = { s.cyc with rillDone := true } ∧ ∀ e : Fin 48,
      let r := s.rilOf e
      (s.rb Fx.RIL_ECFG_CYC_SYNC e = false ∨ r.st = 0 ∨ r.st = 3 → t.rilOf e = r) ∧
      (s.rb Fx.RIL_ECFG_CYC_SYNC e = true → r.st = 1 →
        (s.inAwaitCycle e = true → t.rilOf e = ranTo s e (1 + rStretch (s.rillWord e)) (r.pc + 1) { r with acc := 0 }) ∧
        (s.inAwaitCycle e = false → t.rilOf e = { r with acc := 0 } ∧ counted s t Fx.RIL_CNT_SYNC_MISS e))) ∧
  (∀ (s : State) (m : Master) (g : Fin 12), live s → 4 * g.val < s.variant.engines →
    (∀ j : Fin 4, (s.rilOf (4 * g.val)).st = 3 ↔ (s.rilOf (4 * g.val + j)).st = 3) →
    let n : Fin 16 := ⟨g.val, by omega⟩
    let refused := fun (op : Nat) => Host.Outcome.next (s.reject m .rsvEnc 0x70010 (BitVec.ofNat 32 (op * 2 ^ 30 + g.val)))
    ((s.rilOf (4 * g.val)).st ≠ 3 → exec (.groupInService m n) s = refused 2 ∧
      ∃ t, exec (.groupOutOfService m n) s = .next t ∧ t.grpSts.testBit g = true ∧ ∀ j k : Fin 4,
        let e := 4 * g.val + j
        t.rilOf e = { s.rilOf e with st := 3, waiting := false, slots := (t.rilOf e).slots } ∧
        (s.slotOut e k = true → (vget Slot.reset (t.rilOf e).slots k).released = true ∧ (vget Slot.reset (t.rilOf e).slots k).drive = false)) ∧
    ((s.rilOf (4 * g.val)).st = 3 → exec (.groupOutOfService m n) s = refused 1 ∧
      ∃ t, exec (.groupInService m n) s = .next t ∧ t.grpSts.testBit g = false ∧ ∀ j : Fin 4,
        let e := 4 * g.val + j
        t.rilOf e = { s.rilOf e with st := 0 }))


/-! ### The CAN FD controllers (spec/12) -/

/-- R409, R416 to R426, Tables 12-3 to 12-7: a received frame is matched against the filters in ascending order and stored where the first match,
or CAN_ACC, sends it, with its stamp; a request makes a buffer pending, or completes it; a cancel acts by the case of R423; the pending
buffer of the highest priority is sent; its frame ends lost, complete or in error. -/
def Obligations.CanFrames : Prop :=
  (∀ (s : State) (c : Fin 4) (m : CanMsg) (ts : Nat), canUp s c → (m.fdf = true → m.rtr = false) →
    let x := s.canOf c
    let tb := s.rf Fx.CAN_CFG_TS_TB c
    let d := sgn24 (s.rf Fx.TB_CAL_CAN_DELAY c)
    let n := s.rf (if m.xtd then Fx.CAN_ACC_NEXT else Fx.CAN_ACC_NSTD) c
    let nomatch_ := s.rf (if m.xtd then Fx.CAN_ACC_NM_X else Fx.CAN_ACC_NM_B) c
    let first := x.word (if m.xtd then 64 else 0)
    let mode := bits (if m.xtd then x.word 65 else first) 1 0
    let act := if m.xtd then bits first 2 0 else bits first 4 2
    let id := if m.xtd then m.id.toNat else m.id.toNat / 2 ^ 18
    let a := if m.xtd then bits first 31 3 else bits first 31 21
    let b := if m.xtd then bits (x.word 65) 31 3 else bits first 15 5
    let stored := fun (t : State) (at_ : Nat) (noHit coll fifo1 : Bool) =>
      (t.canOf c).words at_ 4 = rxHead m 0 noHit coll fifo1 (BitVec.ofNat 3 tb) (Int.ofNat ts - d).toNat ∧
      (∀ i < 64, (((t.canOf c).word (at_ + 4 + i / 4)).extractLsb' (8 * (i % 4)) 8) = if i < canBytes m then m.data.getD i 0 else 0#8) ∧
      counted2 s t Fx.CAN_CNT_COUNT c 0
    let goes := fun (out : Out State) (where_ : Nat) (noHit : Bool) =>
      (where_ = 1 → x.f0.fill < 64 → ∃ t, out = .next t ∧ (t.canOf c).f0 = ⟨x.f0.get, x.f0.fill + 1⟩ ∧
        stored t (1024 + 20 * ((x.f0.get + x.f0.fill) % 64)) noHit false false) ∧
      (where_ = 2 → x.f1.fill < 64 → ∃ t, out = .next t ∧ (t.canOf c).f1 = ⟨x.f1.get, x.f1.fill + 1⟩ ∧
        stored t (2304 + 20 * ((x.f1.get + x.f1.fill) % 64)) noHit false true) ∧
      (where_ = 3 → ∃ t, out = .next t ∧ (t.canOf c).hpFull = true ∧ stored t 896 noHit x.hpFull false ∧
        (x.hpFull = true → counted2 s t Fx.CAN_CNT_COUNT c 9)) ∧
      (where_ = 4 → out = .next s) ∧
      (where_ = 1 ∧ 64 ≤ x.f0.fill ∨ where_ = 2 ∧ 64 ≤ x.f1.fill → out = .next (s.bump Fx.CAN_CNT_COUNT 1 c 8))
    (s.tbOos tb = false → m.rtr = false ∨ s.rb (if m.xtd then Fx.CAN_ACC_RMT_X else Fx.CAN_ACC_RMT_B) c = false →
      (n = 0 → goes (exec (.canFrameReceive c true m ts) s) ([1, 2, 4].getD nomatch_ 4) true) ∧
      (n = 1 → 1 ≤ act → act ≤ 4 → (mode = 1 ∧ Nat.land id b = Nat.land a b) ∨ (mode = 2 ∧ a ≤ id ∧ id ≤ b) ∨ (mode = 3 ∧ (id = a ∨ id = b)) →
        goes (exec (.canFrameReceive c true m ts) s) act false) ∧
      (n = 1 → mode = 0 → goes (exec (.canFrameReceive c true m ts) s) ([1, 2, 4].getD nomatch_ 4) true)) ∧
    (m.rtr = true → s.rb (if m.xtd then Fx.CAN_ACC_RMT_X else Fx.CAN_ACC_RMT_B) c = true →
      exec (.canFrameReceive c true m ts) s = .next s)) ∧
  (∀ (s : State) (m : Master) (c : Fin 4) (b : Fin 32), live s → regsRising s → scanon (0#32) 0 (s.canOf c).ram = true →
    let x := s.canOf c
    let w := x.words (128 + 20 * b) 20
    let p := x.pend.find? (fun p => p.b == b.val)
    (p ≠ none → ∃ t, exec (.canTxRequest m c b) s = .next t ∧ onlyRegs s t ∧ counted2 s t Fx.CAN_CNT_COUNT c 16) ∧
    (p = none → plainWords s c w false → x.st ≠ 6 →
      exec (.canTxRequest m c b) s = .next (s.canUpd c fun x => { x with pend := x.pend ++ [plainBuf b w] })) ∧
    (p = none → x.ev.fill < 32 → x.st = 6 → s.rb Fx.CAN_CFG_LOOP c = false →
      ∃ t, exec (.canTxRequest m c b) s = .next t ∧ eventPut s t c b w 4 0x05 false ∧ (t.canOf c).pend = x.pend) ∧
    (p = none → x.ev.fill < 32 → x.st = 4 → plainWords s c w true →
      ∃ t, exec (.canTxRequest m c b) s = .next t ∧ eventPut s t c b w 4 0x05 false ∧ (t.canOf c).pend = x.pend) ∧
    (p = none → x.ev.fill < 32 → x.st ≠ 6 → canBufBad (s.rb Fx.CAN_CFG_FDOE c) w = true →
      ∃ t, exec (.canTxRequest m c b) s = .next t ∧ eventPut s t c b w 5 0x01 false ∧ (t.canOf c).pend = x.pend) ∧
    (p = none → exec (.canTxCancel m c b) s = .next s) ∧
    (∀ q, p = some q →
      (x.attempt = none → x.ev.fill < 32 → ∃ t, exec (.canTxCancel m c b) s = .next t ∧ eventPut s t c b q.words 1 0x05 false ∧
        (t.canOf c).pend = x.pend.filter (fun p => p.b != b.val)) ∧
      (∀ won, x.attempt = some ⟨b, won⟩ → exec (.canTxCancel m c b) s = .next (s.canUpd c fun x =>
        { x with pend := x.pend.map fun p => if p.b = b.val then (if won then { p with cancelLate := true } else { p with cancel := true })
                                             else p })))) ∧
  (∀ (s : State) (c : Fin 4) (b b2 : Fin 32) (w w2 : List Word), canUp s c → b ≠ b2 → plainWords s c w false →
    let x := s.canOf c
    let sends := fun (b : Fin 32) (w : List Word) =>
      exec (.canArbitration c true false) s = .next { s.canUpd c (fun x => { x with attempt := some ⟨b, false⟩ }) with out := s.out ++ [.canFrame c w] }
    (x.attempt = none → x.pend = [plainBuf b w] → sends b w) ∧
    (x.attempt = none → x.pend = [plainBuf b w] → x.ev.fill < 32 →
      ∃ t, exec (.canArbitration c true true) s = .next t ∧ eventPut s t c b w 4 0x04 false ∧ (t.canOf c).pend = [] ∧ (t.canOf c).attempt = none) ∧
    (x.attempt = none → x.pend = [plainBuf b w, plainBuf b2 w2] ∨ x.pend = [plainBuf b2 w2, plainBuf b w] → plainWords s c w2 false →
      (w.getD 0 0).getLsbD 31 = false → (w2.getD 0 0).getLsbD 31 = false →
      (s.rb Fx.CAN_CFG_TXP c = false → bits (w.getD 0 0) 28 18 < bits (w2.getD 0 0) 28 18 → sends b w) ∧
      (s.rb Fx.CAN_CFG_TXP c = true → b < b2 → sends b w)) ∧
    (x.attempt = some ⟨b, false⟩ → x.pend = [plainBuf b w] →
      exec (.canArbitration c true false) s = .next (s.canUpd c fun x => { x with attempt := some ⟨b, true⟩ }) ∧
      ∃ t, exec (.canArbitration c false false) s = .next t ∧ (t.canOf c).attempt = none ∧ (t.canOf c).pend = x.pend ∧
        counted2 s t Fx.CAN_CNT_COUNT c 2) ∧
    (∀ (ts : Nat) (v : BitVec 7), x.attempt = some ⟨b, true⟩ → x.pend = [plainBuf b w] → x.ev.fill < 32 → s.tbOos (s.rf Fx.CAN_CFG_TS_TB c) = false →
      x.tec < 128 → x.recC < 128 →
      ∃ t, exec (.canTxComplete c ts v) s = .next t ∧ eventPut s t c b w 0 0 false ∧ (t.canOf c).pend = [] ∧ (t.canOf c).attempt = none ∧
        (t.canOf c).tec = x.tec - 1 ∧ (t.canOf c).st = 2 ∧ counted2 s t Fx.CAN_CNT_COUNT c 1 ∧
        (t.canOf c).word (768 + 4 * ((x.ev.get + x.ev.fill) % 32) + 2) =
          BitVec.ofNat 32 ((Int.ofNat ts + sgn24 (s.rf Fx.TB_CAL_CAN_DELAY c)).toNat / 256)) ∧
    (∀ add : Fin 17,
      (x.attempt = none → x.pend = [] → x.recC + add < 128 → x.tec < 128 → ∃ t, exec (.canError c .crc add) s = .next t ∧
        (t.canOf c).recC = x.recC + add ∧ (t.canOf c).tec = x.tec ∧ (t.canOf c).st = 2 ∧ counted2 s t Fx.CAN_CNT_COUNT c 7) ∧
      (x.attempt = some ⟨b, true⟩ → x.pend = [plainBuf b w] → 255 < x.tec + add → ∃ t, exec (.canError c .bit add) s = .next t ∧
        (t.canOf c).st = 4 ∧ (t.canOf c).attempt = none ∧ (t.canOf c).pend = x.pend ∧ counted2 s t Fx.CAN_CNT_COUNT c 11 ∧
        counted2 s t Fx.CAN_CNT_COUNT c 3)) ∧
    (x.attempt = none → s.rb Fx.CAN_CFG_PXHD c = false → ∃ t, exec (.canError c .res 0) s = .next t ∧ (t.canOf c).st = 1 ∧
      (t.canOf c).tec = x.tec ∧ counted2 s t Fx.CAN_CNT_COUNT c 13))

/-- R414, R415, R427 to R440: recovery and service commands, integration; the acknowledgements of the FIFOs and the window onto the message RAM;
the poll of the exchange, which takes request entries in order, and the copy of received and event elements into its rings. -/
def Obligations.CanServiceAndExchange : Prop :=
  (∀ (s : State) (m : Master) (c : Fin 4), live s → regsRising s →
    let x := s.canOf c
    let refused := fun (v : Nat) => Host.Outcome.next (s.reject m .rsvEnc (0x60020 + 0x1000 * c.val) (BitVec.ofNat 32 v))
    (x.st ≠ 4 → exec (.canRecover m c) s = refused 1) ∧
    (x.st = 4 → ∃ t, exec (.canRecover m c) s = .next t ∧ (t.canOf c).st = 5 ∧ (t.canOf c).pend = x.pend) ∧
    (x.st = 0 ∨ x.st = 6 → exec (.canOutOfService m c) s = refused 2) ∧
    (x.st ≠ 0 → x.st ≠ 6 → x.attempt = none → ∃ t, exec (.canOutOfService m c) s = .next t ∧ (t.canOf c).st = 6 ∧ (t.canOf c).pend = []) ∧
    (x.st ≠ 0 → x.st ≠ 6 → x.attempt ≠ none →
      exec (.canOutOfService m c) s = .next (s.canUpd c fun x => { x with oosDue := true })) ∧
    (x.st ≠ 6 → exec (.canInService m c) s = refused 4) ∧
    (x.st = 6 → s.pllStopped pllCan = false → ∃ t, exec (.canInService m c) s = .next t ∧ (t.canOf c).st = 1 ∧ (t.canOf c).tec = 0 ∧
      (t.canOf c).recC = 0 ∧ (t.canOf c).pend = []) ∧
    (x.st = 4 → 0 < s.rf Fx.CAN_BOFF_WAIT_MS c → x.busOffAt + s.rf Fx.CAN_BOFF_WAIT_MS c * 1000000 ≤ s.tbNs 0 →
      ∃ t, exec (.canAutoRecovery c) s = .next t ∧ (t.canOf c).st = 5 ∧ counted2 s t Fx.CAN_CNT_COUNT c 12) ∧
    (s.rf Fx.CAN_BOFF_WAIT_MS c = 0 → exec (.canAutoRecovery c) s = .next s) ∧
    (s.canClk = true → x.st = 5 →
      ∃ t, exec (.canRecoveryComplete c) s = .next t ∧ (t.canOf c).st = 1 ∧ (t.canOf c).tec = 0 ∧ (t.canOf c).recC = 0) ∧
    (s.canClk = true → x.st = 1 → x.tec < 128 → x.recC < 128 →
      ∃ t, exec (.canIntegrationComplete c) s = .next t ∧ (t.canOf c).st = 2 ∧ (t.canOf c).tec = x.tec) ∧
    (∀ (f : Fin 2) (i : Fin 64), let g := if f = 0 then x.f0 else x.f1
      g.get < 64 → g.fill ≤ 64 →
      let put := fun (h : CanFifo) => s.canUpd c fun y => if f = 0 then { y with f0 := h } else { y with f1 := h }
      (∀ k, k < g.fill → i.val = (g.get + k) % 64 → s.rb Fx.CAN_XCH_CFG_EN c = false →
        exec (.canRxfAck m c f i) s = .next (put ⟨(i + 1) % 64, g.fill - (k + 1)⟩)) ∧
      (s.rb Fx.CAN_XCH_CFG_EN c = true ∨ (∀ k, k < g.fill → i.val ≠ (g.get + k) % 64) →
        exec (.canRxfAck m c f i) s = .next (s.reject m .rsvEnc (0x60044 + 0x1000 * c.val + 8 * f.val) (BitVec.ofNat 32 i)))) ∧
    (∀ (i : Fin 32) (k : Nat), x.ev.get < 32 → x.ev.fill ≤ 32 → k < x.ev.fill → i.val = (x.ev.get + k) % 32 → s.rb Fx.CAN_XCH_CFG_EN c = false →
      exec (.canEvfAck m c i) s = .next (s.canUpd c fun y => { y with ev := ⟨(i + 1) % 32, x.ev.fill - (k + 1)⟩ })) ∧
    (s.rb Fx.CAN_XCH_CFG_EN c = false → ∀ ack : Bool, exec (.canHpAck m c ack) s =
      .next (if ack then s.canUpd c fun y => { y with hpFull := false, hpColl := false } else s)) ∧
    (∀ (j : Fin 512) (v : Word), s.bankSt (48 + c.val) = 0 →
      let i := s.rf Fx.CAN_RAM_PAGE_PAGE c * 512 + j
      (128 ≤ i → i < 768 → (∀ p ∈ x.pend, p.b ≠ (i - 128) / 20) →
        exec (.canRamWrite m c j v) s = .next (s.canUpd c fun y => { y with ram := sput 0#32 i v y.ram })) ∧
      (128 ≤ i → i < 768 → (∃ p ∈ x.pend, p.b = (i - 128) / 20) →
        exec (.canRamWrite m c j v) s = .next (s.reject m .rsvEnc (0x60800 + 0x1000 * c.val + 4 * j.val) v)) ∧
      ((916 ≤ i ∧ i < 1024) ∨ 3584 ≤ i →
        exec (.canRamWrite m c j v) s = .next (s.reject m .unmapped (0x60800 + 0x1000 * c.val + 4 * j.val) v)))) ∧
  (∀ (s : State) (c : Fin 4), s.rb Fx.CAN_XCH_CFG_EN c = true → regsRising s → scanon (0#8) 0 s.pool = true →
    scanon (0#32) 0 (s.canOf c).ram = true →
    let x := s.canOf c
    let base := s.canBase c
    let word := fun (t : State) (off : Nat) => leNat (rdBytes t.pool (base + off) 4)
    s.bankSt (poolBank base) = 0 → (∀ i < 0x3600, poolBank (base + i) = poolBank base ∧ s.inMirror (base + i) = false) → base + 0x3600 ≤ lockBase →
    (s.lock = true → x.st ≠ 0 → x.x.txqCons < 2 ^ 32 → word s 0x28 = x.x.txqCons →
      ∃ t, exec (.canExchangePoll c) s = .next t ∧ t.pool = s.pool ∧ (t.canOf c).x.rxCons = word s 0x20 ∧ (t.canOf c).x.evCons = word s 0x24 ∧
        (t.canOf c).x.hpAck = word s 0x2C ∧ (t.canOf c).x.stateAck = word s 0x30 ∧ (t.canOf c).pend = x.pend) ∧
    (∀ b : Fin 32, s.lock = true → x.st = 2 → x.x.txqCons + 1 < 2 ^ 32 → word s 0x28 = x.x.txqCons + 1 →
      word s (0x40 + 4 * (x.x.txqCons % 64)) = 2 ^ 30 + b.val → x.pend = [] →
      let w := (List.range 20).map fun i => BitVec.ofNat 32 (word s (0x3C0 + 80 * b + 4 * i))
      plainWords s c w false →
      ∃ t, exec (.canExchangePoll c) s = .next t ∧ (t.canOf c).pend = [plainBuf b w] ∧ (t.canOf c).words (128 + 20 * b) 20 = w ∧
        word t 8 = x.x.txqCons + 1 ∧ (t.canOf c).x.txqCons = x.x.txqCons + 1) ∧
    (∀ rest, x.x.order = 0 :: rest → x.x.rxProd + 1 < 2 ^ 32 → x.x.rxCons ≤ x.x.rxProd → x.x.rxProd < x.x.rxCons + s.canRxn c →
      ∃ t, exec (.canRingCopy c .rx false) s = .next t ∧ word t 0 = x.x.rxProd + 1 ∧
        (∀ i < 20, word t (0xDC0 + 80 * (x.x.rxProd % s.canRxn c) + 4 * i) = (x.word (1024 + 20 * x.f0.get + i)).toNat) ∧
        (t.canOf c).f0 = ⟨(x.f0.get + 1) % 64, x.f0.fill - 1⟩ ∧ (t.canOf c).x.order = rest) ∧
    (0 < x.ev.fill → x.x.evProd + 1 < 2 ^ 32 → x.x.evCons ≤ x.x.evProd → x.x.evProd < x.x.evCons + 32 →
      ∃ t, exec (.canRingCopy c .ev false) s = .next t ∧ word t 4 = x.x.evProd + 1 ∧
        (∀ i < 4, word t (0x1C0 + 16 * (x.x.evProd % 32) + 4 * i) = (x.word (768 + 4 * x.ev.get + i)).toNat) ∧
        (t.canOf c).ev = ⟨(x.ev.get + 1) % 32, x.ev.fill - 1⟩) ∧
    (x.x.hpDue = true → x.x.hpSeq + 1 < 2 ^ 32 → ∃ t, exec (.canRingCopy c .hp false) s = .next t ∧ word t 0xC = x.x.hpSeq + 1 ∧
      (∀ i < 20, word t (0x140 + 4 * i) = (x.word (896 + i)).toNat) ∧ (t.canOf c).x.hpDue = false))


/-! ### The loop engine (spec/13) -/

/-- R446 to R458, R463: a coefficient write is applied whole and counted, or rejected where it would cross a pair of clamps; a pass computes a
due slot by the law of R452 on the input word of the pool and writes its output word, repeats the last output where the sample is stale, freezes
a slot whose memory fails, and leaves a slot that is not due; the end of a pass raises loop-done. The law keeps the integrator and the output
within their clamps, moves the output by at most RMAX, holds the integrator outside AUTO and the output in FREEZE, and enters AUTO without
a step where the preset fits. -/
def Obligations.LoopEngine : Prop :=
  (∀ (s : State) (m : Master) (c : LoopCoef) (v : Word), live s → s.variant = .lx2416 →
    let a := coefAt c
    let applied := Host.Outcome.next (({ s with lp := { s.lp with coefSeq := (s.lp.coefSeq + 1) % 2 ^ 32 } }).sg a.1 a.2.1 a.2.2 v)
    let refused := Host.Outcome.next (s.reject m .rsvEnc (a.1.addr a.2.1 a.2.2) v)
    ((∃ n i, c = .gain n i) ∨ (∃ n j, c = .fric n j) ∨ (∃ k x, c = .cog k x) ∨
      (∃ n r, c = .reg n r ∧ r ∈ [.man, .ki, .kd, .frX0, .cgX0]) →
      exec (.loopCoefficientWrite m c v) s = applied) ∧
    (∀ n : Fin 64, c = .reg n .imin →
      exec (.loopCoefficientWrite m c v) s = if v.toInt ≤ (s.rg .LOOP_IMAX n).toInt then applied else refused) ∧
    (∀ n : Fin 64, c = .reg n .umax →
      exec (.loopCoefficientWrite m c v) s = if (s.rg .LOOP_UMIN n).toInt ≤ v.toInt then applied else refused) ∧
    (∀ n : Fin 64, c = .reg n .rmax ∨ c = .reg n .vdb →
      exec (.loopCoefficientWrite m c v) s = if 0 ≤ v.toInt then applied else refused) ∧
    (∀ n : Fin 64, c = .reg n .kf → exec (.loopCoefficientWrite m c v) s = if v.toNat ≤ 0x10000 then applied else refused)) ∧
  (∀ (s : State) (clks : BitVec 14),
    (s.lp.running = true → exec (.loopDone clks) s = .next (({ s with lp := { s.lp with
      running := false, passes := (s.lp.passes + 1) % 65536, lastClk := clks.toNat } }).raiseBound 1)) ∧
    (s.lp.running = false → s.cycleOn = true → s.loopEnabled = false → s.cyc.loopDone = false →
      exec (.loopDone clks) s = .next (({ s with cyc := { s.cyc with loopDone := true } }).raiseBound 1)) ∧
    (s.lp.running = false → s.loopEnabled = true → exec (.loopDone clks) s = .next s)) ∧
  (∀ (s : State) (n : Fin 64), loneSlot s n → regsRising s → scanon (0#8) 0 s.pool = true →
    let x := s.slotOf n
    let m := s.rf Fx.LOOP_MODE_MODE n
    let in_ := s.rf Fx.LOOP_IN_ADDR n * 8
    let out := s.rf Fx.LOOP_OUT_ADDR n * 8
    let left := s.loopLeaveOff n x
    let done := fun (t : State) => t.lp.running = true ∧ t.cyc = { s.cyc with loopDone := true } ∧
      ∀ k : Fin 64, k ≠ n → t.slotOf k = s.slotOf k
    let wrote := fun (t : State) (w : List Byte) => rdBytes t.pool out 8 = w ∧
      ∀ a, a < out ∨ out + 8 ≤ a → sget 0#8 a t.pool = sget 0#8 a s.pool
    s.bankSt (poolBank in_) = 0 → s.bankSt (poolBank out) = 0 → out + 8 ≤ lockBase → s.lp.seq < 256 →
    (¬ slotDue s n → ∃ t, exec (.loopPass [] [] []) s = .next t ∧ done t ∧ t.slotOf n = x ∧ t.pool = s.pool) ∧
    (slotDue s n → m ≠ 0 → s.rb Fx.LOOP_SCFG_AGE_EN n = false →
      let sp := (BitVec.ofNat 32 (leNat (rdBytes s.pool in_ 4))).toInt
      let pv := (BitVec.ofNat 32 (leNat (rdBytes s.pool (in_ + 4) 4))).toInt
      let r := s.loopLaw n m { left with mode := m, sampleSeq := s.lp.coefSeq, samples := (x.samples + 1) % 2 ^ 32 } sp pv
      (∃ t, exec (.loopPass [] [] []) s = .next t ∧ done t ∧ t.slotOf n = { r.1 with stale := false } ∧ t.lp.coefSeq = s.lp.coefSeq ∧
        wrote t (outWord s.lp.seq s.cyc.tick m false r.2 r.1.hi r.1.lo r.1.u) ∧
        t.rg .LOOP_MAN n = (if m = 2 ∧ s.rb Fx.LOOP_OPT_MAN_TRACK n = true then BitVec.ofInt 32 r.1.u else s.rg .LOOP_MAN n) ∧
        (r.2 = true → t.rb Fx.LOOP_SSTS_BUMP n = true ∧ counted s t Fx.LOOP_SCNT_BUMP n)) ∧
      (∃ t, exec (.loopPass [] [n] []) s = .next t ∧ done t ∧ t.slotOf n = { left with
          mode := m, sampleSeq := s.lp.coefSeq, samples := (x.samples + 1) % 2 ^ 32, resume := true, stale := true } ∧
        wrote t (outWord s.lp.seq s.cyc.tick m true false left.hi left.lo left.u) ∧ counted s t Fx.LOOP_SCNT_STALE n) ∧
      (∀ off : BitVec 16, ∃ t, exec (.loopPass [] [] [(n, off)]) s = .next t ∧ done t ∧ (t.slotOf n).u = left.u ∧ (t.slotOf n).i = x.i ∧
        t.rf Fx.LOOP_MODE_MODE n = 3 ∧ t.lp.coefSeq = (s.lp.coefSeq + 1) % 2 ^ 32 ∧ t.rb Fx.LOOP_SSTS_ECC n = true ∧
        wrote t (outWord s.lp.seq s.cyc.tick 3 false false left.hi left.lo left.u)))) ∧
  (∀ (s : State) (n : Fin 64) (m : Nat) (x : LSlot) (sp pv : Int),
    let r := s.loopLaw n m x sp pv
    let umin := (s.rg .LOOP_UMIN n).toInt
    let umax := (s.rg .LOOP_UMAX n).toInt
    let imin := (s.rg .LOOP_IMIN n).toInt
    let imax := (s.rg .LOOP_IMAX n).toInt
    let rmax := (s.rg .LOOP_RMAX n).toInt
    let e := sat32 (if s.rb Fx.LOOP_OPT_REV n then pv - sp else sp - pv)
    let p := sat32 (s.loopGain n e * e / 65536)
    let ff := s.loopFf n r.1.dir pv
    (umin ≤ umax → m = 1 ∨ m = 2 → umin ≤ r.1.u ∧ r.1.u ≤ umax) ∧
    (m = 2 → imin ≤ imax → imin ≤ r.1.i ∧ r.1.i ≤ imax) ∧
    (m ≠ 2 → r.1.i = x.i ∧ r.2 = false) ∧
    (m = 3 → r.1.u = x.u) ∧
    (m = 1 → umin ≤ umax → r.1.u = max umin (min umax (s.rg .LOOP_MAN n).toInt)) ∧
    (r.1.ePrev = e ∧ r.1.xPrev = pv ∧ r.1.mPrev = m ∧ r.1.first = false ∧ r.1.resume = false) ∧
    (m = 2 → 0 < rmax → umin ≤ x.u → x.u ≤ umax → (r.1.u - x.u).natAbs ≤ rmax.natAbs) ∧
    (m = 2 → x.mPrev = 2 → x.resume = false → x.hi = true → imin ≤ x.i → x.i ≤ imax → r.1.i ≤ x.i) ∧
    (m = 2 → x.mPrev = 2 → x.resume = false → x.lo = true → imin ≤ x.i → x.i ≤ imax → x.i ≤ r.1.i) ∧
    (m = 2 → x.mPrev ≠ 2 ∨ x.resume = true → umin ≤ x.u → x.u ≤ umax → 0 ≤ rmax →
      fits32 (x.u - p) → fits32 (x.u - p - r.1.d) → fits32 (x.u - ff) → fits32 (x.u - r.1.d - ff) →
      imin ≤ x.u - p - r.1.d - ff → x.u - p - r.1.d - ff ≤ imax → r.1.u = x.u ∧ r.2 = false))


/-! ### Profile images (spec/14) -/

/-- R470 to R478, R483: a request is rejected while another runs or for an absent cluster, else waits for the token or ends with BUSY; verification
refuses the container and leaves the old image as it is, or holds it for the next tick; an image passes only where every row of Table 14-4
does; the replacement at the tick. That several sections cover one byte the spec does not foresee; the model takes the last (log entry 167). -/
def Obligations.ProfileImages : Prop :=
  (∀ (s : State) (m : Master) (k : Fin 16) (page : BitVec 9), live s → regsRising s →
    let go := exec (.imageReplace m k page) s
    let asked := { s.boot with req := some ⟨k, page.toNat * 4096, none⟩, imgCluster := k }
    (s.boot.req.isSome = true ∨ s.variant.cores ≤ k ∨ s.pwr.state ≠ 0 →
      go = .next (s.reject m .rsvEnc 0x2100 (BitVec.ofNat 32 (2 ^ 30 + k.val * 2 ^ 24 + page.toNat * 4096)))) ∧
    (s.boot.req = none → k.val < s.variant.cores → s.pwr.state = 0 →
      (s.tok.holder = 0 → s.tok.fifo = [] →
        ∃ t, go = .next t ∧ t = { s with regs := t.regs, tok := ⟨2, []⟩, boot := asked } ∧ counted s t Fx.MEM_TOKEN_CNT_GRANTS) ∧
      (s.tok.holder ≠ 0 → s.tok.fifo.length < 8 → go = .next { s with tok := ⟨s.tok.holder, s.tok.fifo ++ [2]⟩, boot := asked }) ∧
      (s.tok.fifo.length = 8 → ∃ t, go = .next t ∧ t.tok = s.tok ∧ t.boot = { s.boot with req := none, imgCluster := k, imgResult := 6 } ∧
        t.clu = s.clu ∧ t.core = s.core ∧ t.pool = s.pool ∧ t.ril = s.ril ∧ counted s t Fx.MEM_TOKEN_CNT_BUSY))) ∧
  (∀ (s : State) (k : Fin 16) (a : Nat) (ecc : Bool), regsRising s → s.boot.req = some ⟨k, a, none⟩ → s.tok = ⟨2, []⟩ → a < 0x200000 →
    let d := containerAt s a
    let st := s.loadStatus k (0x200000 - a) d ecc
    (st ≠ 0 → ∃ t, exec (.imageVerify ecc) s = .next t ∧ t.boot = { s.boot with req := none, imgCluster := k, imgResult := st } ∧
      t.tok = ⟨0, []⟩ ∧ t.clu = s.clu ∧ t.core = s.core ∧ t.pool = s.pool ∧ t.ril = s.ril ∧ t.mbx = s.mbx ∧ t.lck = s.lck) ∧
    (s.tickRun = true → ∃ t, exec (.imageVerify ecc) s = .next t ∧
      (st = 0 → t = { s with boot := { s.boot with req := some ⟨k, a, some d⟩ } })) ∧
    (s.tickRun = false → ∃ t, exec (.imageVerify ecc) s = .next t ∧ t.boot.req = none ∧ t.boot.imgResult = st ∧ t.tok = ⟨0, []⟩ ∧
      (st = 0 → s.lock = false → s.coreOn k = true → s.physOf k < 16 → formed d → (t.cluOf k).st = 0 ∧ (t.cluOf k).loaded = true ∧
        t.boot.skip = s.boot.skip ∧ ∀ b < 65536, sget 0#8 b (t.coreOf (s.physOf k)).imem = imageByte d false b))) ∧
  (∀ (s : State) (k avail : Nat) (d : List Byte) (ecc : Bool),
    let st := s.loadStatus k avail d ecc
    (firstCheckFails avail d → st = 2) ∧
    (¬ firstCheckFails avail d → (∀ n < 4, vget none s.boot.keys n = none) → st = 1) ∧
    ((s.cluOf k).st = 4 ∨ (s.cluOf k).migPending = true ∨ ecc = true → st ≠ 0) ∧
    (st = 0 →
      ¬ firstCheckFails avail d ∧ k < s.variant.cores ∧ (leAt d 16 1).testBit (variantBit s.variant) = true ∧
      1 ≤ (instsOf d).length ∧ (instsOf d).length ≤ 4 ∧ ((instsOf d).map Prod.snd).sum ≤ 100 ∧
      ((instsOf d).map Prod.fst).Pairwise (fun x y => mayShare x y = true) ∧
      ∀ c ∈ claimsOf d, ∀ b, c.1 ≤ b → b < c.1 + c.2 → b < 0x200000 ∧ (b < profDir ∨ profDir + 256 ≤ b) ∧
        (b < lockBase ∨ lockBase + 256 ≤ b) ∧
        ∀ j < 16, j ≠ k → ∀ x, vget none s.boot.imgs j = some x → ∀ e ∈ x.claims, ¬ (e.1 ≤ b ∧ b < e.1 + e.2))) ∧
  (∀ (s : State) (k : Fin 16) (a : Nat) (d : List Byte), s.boot.req = some ⟨k, a, some d⟩ → s.tok = ⟨2, []⟩ → s.tickRun = true →
    s.coreOn k = true → s.physOf k < 16 → (s.cluOf k).st ≠ 4 → formed d → regsRising s → scanon (0#8) 0 s.pool = true →
    let c := s.physOf k
    ∃ t, exec .imageReplaceAct s = .next t ∧
      (t.cluOf k).st = 1 ∧ (t.cluOf k).ctx = Ctx.reset ∧ (t.cluOf k).failed = false ∧ (t.cluOf k).loaded = true ∧ (t.cluOf k).phys = c ∧
      (∀ j : Fin 16, j ≠ k → t.cluOf j = s.cluOf j) ∧ locksFreed s t k ∧ (t.fqOf k).free = t.fqBuffers k ∧ t.mbx = s.mbx ∧
      (∀ b < 65536, sget 0#8 b (t.coreOf c).imem = imageByte d false b ∧ sget 0#8 b (t.coreOf c).dmem = imageByte d true b) ∧
      (∀ i < 6, t.rg (bindRegs.getD i .ENG_BIND) k = bindWord d i) ∧
      rdBytes t.pool (0x1FF000 + 16 * k.val) 16 = dirEntry d ∧
      (∀ b, b < 0x1FF000 + 16 * k.val ∨ 0x1FF000 + 16 * k.val + 16 ≤ b → sget 0#8 b t.pool = sget 0#8 b s.pool) ∧
      (∀ e : Fin 48, (∃ x ∈ sectsOf d, x.ty = 4 ∧ x.target = e) → bindsEngine (bindWord d 0) (bindWord d 1) e = true →
        (s.rilOf e).st ≠ 3 → (t.rilOf e).st = 1 ∧ (t.rilOf e).sr = 0#32 ∧ (t.rilOf e).tx = [] ∧ (t.rilOf e).rx = []) ∧
      (∀ e : Fin 48, (∀ x ∈ sectsOf d, x.ty = 4 → x.target ≠ e) → bindsEngine (s.rg .ENG_BIND k) (s.rg .ENG_BIND_AUX k) e = true →
        (s.rilOf e).st ≠ 3 → (t.rilOf e).st = 0) ∧
      t.boot.req = none ∧ t.boot.imgResult = 0 ∧ t.boot.imgCluster = k ∧ t.boot.skip = some k.val ∧ t.imgVer k = leAt d 12 4 ∧
      t.tok = ⟨0, []⟩)


/-! ### Memories, clocks and power (spec/15) -/

/-- R484 to R493: re-reads of single-bit and uncorrectable errors, counted, logged and made suspect, fatal in memories 54 and 55; host atomics
and their reject in the lock range; bank commands rejected, asked for with the token, refused with BUSY or IN_USE, or done with the
contents that Table 15-2 gives. The reading 0 of an atomic on a bank that is not ON is the model's (log entry 165). -/
def Obligations.MemoryErrorsAtomicsAndBanks : Prop :=
  (∀ (s : State) (m : Fin 56) (off : BitVec 18), memHere s m → regsRising s → live s →
    let row := rowAt m off.toNat
    let go := fun (e : Reread) => exec (.eccReread m off e) s
    (∃ t, go .transient = .next t ∧ counted s t Fx.MEM_ECC_CNT_TRANSIENT ∧
      t = { s with regs := t.regs, mem := { s.mem with sbErr := min (s.mem.sbErr + 1) 0xFFFFFFFF } }) ∧
    (∃ t, go .stored = .next t ∧ counted s t Fx.MEM_ECC_CNT_STORED ∧ t.pool = s.pool ∧ t.core = s.core ∧
      (storedIn s m row + 1 < s.rf Fx.MEM_REP_CFG_REP_THR → t.mem.suspects = s.mem.suspects ∧ storedIn t m row = storedIn s m row + 1) ∧
      (s.rf Fx.MEM_REP_CFG_REP_THR ≤ storedIn s m row + 1 → suspected s t m row)) ∧
    (∃ t, go .retryOk = .next t ∧ counted s t Fx.MEM_UNCORR_CNT_RETRY_OK ∧ t.mem = s.mem ∧ t.pool = s.pool ∧
      (logRoom s → logged s t 0x71 1 m off.toNat)) ∧
    (∃ t, go .fail = .next t ∧ counted s t Fx.MEM_UNCORR_CNT_FAIL ∧ t.pool = s.pool ∧ suspected s t m row ∧
      (m.val < 54 → t.tph.fatal = false ∧ (logRoom s → logged s t 0x72 2 m off.toNat)) ∧
      (54 ≤ m.val → t.tph.fatal = true ∧ (logRoom s → logged s t 0x72 3 m off.toNat)))) ∧
  (∀ (s : State) (m : Master), live s → regsRising s →
    let a := s.rf Fx.MEM_ATOM_ADDR_ADDR * 4
    let v := (s.rg .MEM_ATOM_DATA).toNat
    let was := leNat (rdBytes s.pool a 4)
    (lockBase ≤ a → exec (.atomAdd m) s = .next (s.reject m .rsvEnc 0xA0048 1#32) ∧
      exec (.atomSwap m) s = .next (s.reject m .rsvEnc 0xA0048 2#32)) ∧
    (a < lockBase → s.bankSt (poolBank a) ≠ 0 → ∀ ins ∈ [Instr.atomAdd m, .atomSwap m],
      ∃ t, exec ins s = .next t ∧ onlyRegs s t ∧ t.rg .MEM_ATOM_RES = 0#32) ∧
    (a < lockBase → s.bankSt (poolBank a) = 0 → ∀ op ∈ [(Instr.atomAdd m, was + v), (.atomSwap m, v)],
      ∃ t, exec op.1 s = .next t ∧ t = { s with regs := t.regs, pool := t.pool } ∧ t.rg .MEM_ATOM_RES = BitVec.ofNat 32 was ∧
        t.pool = (s.poolWrProt a (leBytes 4 op.2)).pool ∧
        (s.rb Fx.PAIR_CFG_EN = false → scanon (0#8) 0 s.pool = true → rdBytes t.pool a 4 = leBytes 4 op.2 ∧
          ∀ b, b < a ∨ a + 4 ≤ b → sget 0#8 b t.pool = sget 0#8 b s.pool))) ∧
  (∀ (s : State) (src : Master) (m : Fin 64), live s → regsRising s →
    ∀ x ∈ [(1, Instr.bankOn src m), (2, .bankRet src m), (3, .bankOff src m), (4, .bankOos src m)],
    let go := exec x.2 s
    (¬ memHere s m ∨ ¬ hasStates m ∨ s.bankSt m = x.1 - 1 ∨ s.mem.bankOp.isSome = true ∨ s.pwr.state ≠ 0 →
      go = .next (s.reject src .rsvEnc 0xA0010 (BitVec.ofNat 32 (x.1 * 2 ^ 28 + m.val)))) ∧
    (memHere s m → hasStates m → s.bankSt m ≠ x.1 - 1 → s.mem.bankOp = none → s.pwr.state = 0 →
      let asked := { s.mem with bankOp := some (x.1, m.val), bankRes := 0, bankMem := m.val }
      (s.tok.holder = 0 → s.tok.fifo = [] → ∃ t, go = .next t ∧ t = { s with regs := t.regs, tok := ⟨4, []⟩, mem := asked } ∧
        counted s t Fx.MEM_TOKEN_CNT_GRANTS) ∧
      (s.tok.holder ≠ 0 → s.tok.fifo.length < 8 → go = .next { s with tok := ⟨s.tok.holder, s.tok.fifo ++ [4]⟩, mem := asked }) ∧
      (s.tok.fifo.length = 8 → ∃ t, go = .next t ∧ t.tok = s.tok ∧ t.bank = s.bank ∧
        t.mem = { s.mem with bankOp := none, bankRes := 3, bankMem := m.val } ∧ counted s t Fx.MEM_TOKEN_CNT_BUSY))) ∧
  (∀ (s : State) (op : Nat) (m : Fin 64), s.tok = ⟨4, []⟩ → s.mem.bankOp = some (op, m.val) → hasStates m → memHere s m → 1 ≤ op → op ≤ 4 →
    s.bankSt m ≠ op - 1 → scanon (0#8) 0 s.pool = true →
    let ended := fun (t : State) (res : Nat) => t.tok = ⟨0, []⟩ ∧ t.mem = { s.mem with bankOp := none, bankRes := res, bankMem := m.val } ∧
      ∀ j : Fin 64, j ≠ m → t.bankSt j = s.bankSt j
    (s.bankSt m = 0 →
      m.val = 15 ∨ (m.val < 15 ∧ ∃ k : Fin 16, ∃ x, vget none s.boot.imgs k = some x ∧ ∃ c ∈ x.claims, c.1 / 131072 = m ∧ 0 < c.2) ∨
        (∃ n : Fin 16, m.val = 16 + n.val ∧ (s.coreOf n).oos = false) ∨
        (∃ c : Fin 4, m.val = 48 + c.val ∧ s.rb Fx.CAN_CFG_EN c = true ∧ (s.canOf c).st ≠ 6) →
      ∃ t, exec .bankPowerDone s = .next t ∧ ended t 2 ∧ t.bankSt m = 0 ∧ contents s t m False) ∧
    (op = 1 ∨ s.bankSt m ≠ 0 ∨ s.bankUsed m = false →
      ∃ t, exec .bankPowerDone s = .next t ∧ ended t 1 ∧ t.bankSt m = op - 1 ∧
        contents s t m (op = 3 ∨ (op = 1 ∧ s.bankSt m ≠ 1))))

/-- R505 to R511: the background test asks for the token, takes the next row of the sweep or the row or suspect row before it, repeats a failing
run once, counts a pass on the repeat, repairs a row into the next free spare of its bank after a second failure and in every test of a
suspect row, and goes on with the sweep; an abandoned run; the commands of MEM_BT_CMD. That ROW of an untestable row and FULL of a memory that
is not OOS have no effect is the model's reading (log entry 158). -/
def Obligations.BackgroundTestAndRepair : Prop :=
  (∀ (s : State), regsRising s → s.lock = true → s.pwr.state = 0 → s.rb Fx.MEM_BT_CFG_EN = true →
    (none ∈ s.mem.btQ → exec .btRequest s = .next s) ∧
    (none ∉ s.mem.btQ →
      (s.tok.holder = 0 → s.tok.fifo = [] → ∃ t, exec .btRequest s = .next t ∧ counted s t Fx.MEM_TOKEN_CNT_GRANTS ∧
        t = { s with regs := t.regs, tok := ⟨6, []⟩, mem := { s.mem with btQ := s.mem.btQ ++ [none] } }) ∧
      (s.tok.fifo.length = 8 → ∃ t, exec .btRequest s = .next t ∧ onlyRegs s t ∧ counted s t Fx.MEM_TOKEN_CNT_BUSY))) ∧
  (∀ (s : State) (rest : List (Option Nat)), s.mem.btQ = none :: rest → s.tok.holder = 6 → s.mem.btRun = none →
    let runs := fun (x : BtRun) => exec .rowTest s = .next { s with mem := { s.mem with btRun := some x } }
    (∀ m row more, s.mem.suspects = (m, row) :: more → s.testable m row = true → runs ⟨m, row, 1, true, 1⟩) ∧
    (s.mem.suspects = [] →
      (∀ m row, s.mem.btRow = some (m, row) → runs ⟨m, row, 1, false, 1⟩) ∧
      (∀ m row, s.mem.btRow = none → s.mem.btNext = (m, row) → s.testable m row = true → runs ⟨m, row, 1, false, 0⟩))) ∧
  (∀ (s : State) (x : BtRun) (rest : List (Option Nat)), rowRun s x rest →
    let spare := if 16 ≤ x.m ∧ x.m < 32 ∧ 128 ≤ x.row then 4 else 0
    let finished := fun (t : State) => t.tok = ⟨0, []⟩ ∧ t.mem.btRun = none ∧ t.mem.btQ = rest ∧ t.pool = s.pool ∧ t.core = s.core
    let goesOn := fun (t : State) => x.row + 1 < rowsOf x.m → t.mem.btNext = (x.m, x.row + 1)
    let repaired := fun (t : State) => finished t ∧ goesOn t ∧ (x.m, x.row) ∉ t.mem.suspects ∧
      (∀ k, spare ≤ k → k < spare + 4 → s.rb Fx.MEM_SPARE_VALID x.m k = false →
        (∀ j, spare ≤ j → j < k → s.rb Fx.MEM_SPARE_VALID x.m j = true) →
        t.rg .MEM_SPARE x.m k = BitVec.ofNat 32 (0x80000000 + x.row) ∧ counted s t Fx.MEM_BT_CNT_REPAIRED ∧
          (∀ j < 8, j ≠ k → t.rg .MEM_SPARE x.m j = s.rg .MEM_SPARE x.m j)) ∧
      ((∀ k, spare ≤ k → k < spare + 4 → s.rb Fx.MEM_SPARE_VALID x.m k = true) →
        counted s t Fx.MEM_BT_CNT_REPAIR_FAIL ∧ ∀ j < 8, t.rg .MEM_SPARE x.m j = s.rg .MEM_SPARE x.m j)
    (x.run = 1 →
      exec (.rowTestDone true) s = .next { s with mem := { s.mem with btRun := some { x with run := 2 } } } ∧
      (x.suspect = false → ∃ t, exec (.rowTestDone false) s = .next t ∧ finished t ∧ goesOn t ∧
        ∀ j < 8, t.rg .MEM_SPARE x.m j = s.rg .MEM_SPARE x.m j)) ∧
    (x.run = 2 →
      (x.suspect = false → ∃ t, exec (.rowTestDone false) s = .next t ∧ finished t ∧ goesOn t ∧ counted s t Fx.MEM_BT_CNT_RETRY_OK ∧
        (logRoom s → logged s t 0x73 1 x.m x.row)) ∧
      (∃ t, exec (.rowTestDone true) s = .next t ∧ repaired t)) ∧
    (x.suspect = true → ∃ t, exec (.rowTestDone (x.run == 2)) s = .next t ∧ repaired t) ∧
    (∃ t, exec .btAbort s = .next t ∧ finished t ∧ t.mem.btNext = s.mem.btNext ∧ counted s t Fx.MEM_BT_CNT_ABORT ∧
      t.mem.suspects = s.mem.suspects)) ∧
  (∀ (s : State) (src : Master) (m : Fin 64) (row : BitVec 8), live s → regsRising s →
    exec (.btRow src m row) s = .next (if s.testable m row.toNat then { s with mem := { s.mem with btRow := some (m.val, row.toNat) } } else s) ∧
    (s.pwr.state ≠ 0 → exec (.btFull src m) s = .next (s.reject src .rsvEnc 0xA0028 (BitVec.ofNat 32 (2 ^ 31 + m.val * 256)))) ∧
    (s.pwr.state = 0 → ¬ memHere s m ∨ s.bankSt m ≠ 3 → exec (.btFull src m) s = .next s) ∧
    (s.pwr.state = 0 → memHere s m → s.bankSt m = 3 → s.mem.btQ = [] → s.tok.holder = 0 → s.tok.fifo = [] →
      ∃ t, exec (.btFull src m) s = .next t ∧ counted s t Fx.MEM_TOKEN_CNT_GRANTS ∧
        t = { s with regs := t.regs, tok := ⟨6, []⟩, mem := { s.mem with btQ := [some m.val], btFull := 0 } }))

/-- R496, R498 to R504, R513, R517: a PLL locks, loses lock, is tried a second time, fails; the 32.768 kHz clock; the commands of PWR_CMD, rejected
where R501 says so; what entry into DOZE and SLEEP stops, what SLEEP stops besides; HIBERNATE; wakes by command, source and alarm; the
seconds counter. Each fall of LINK at the entry into SLEEP counts in DOWN (deduced from R201, log). -/
def Obligations.ClocksAndPower : Prop :=
  (∀ (s : State) (n : Fin 8), regsRising s → live s →
    let others := fun (a b : Nat) => ∀ j, j ≠ n.val → a.testBit j = b.testBit j
    (s.clk.started.testBit n = true → s.clk.lock.testBit n = false →
      (∃ t, exec (.pllLock n) s = .next t ∧ t.clk.lock.testBit n = true ∧ others t.clk.lock s.clk.lock ∧ t.clk.second.testBit n = false ∧
        t.clk.fail = s.clk.fail ∧ (s.clk.second.testBit n = true → counted s t Fx.CLK_CNT_RELOCK_OK ∧
          (logRoom s → t.tph.queue = s.tph.queue ++ [⟨s.pwr.sec, t.tb0Ns, 0x80, n, 1, 0⟩])) ∧
        (s.clk.second.testBit n = false → t.regs = s.regs ∧ t.tph = s.tph)) ∧
      (s.clk.second.testBit n = false → exec (.pllLockTimeout n) s =
        .next { s with clk := { s.clk with second := Nat.lor s.clk.second (2 ^ n.val) } }) ∧
      (s.clk.second.testBit n = true → ∃ t, exec (.pllLockTimeout n) s = .next t ∧ t.clk.started.testBit n = false ∧
        others t.clk.started s.clk.started ∧ t.clk.fail.testBit n = true ∧ others t.clk.fail s.clk.fail ∧ counted s t Fx.CLK_CNT_LOCK_FAIL ∧
        (n.val ≤ 2 → t.tph.fatal = true ∧ (logRoom s → logged s t 0x81 3 n 0)) ∧
        (3 ≤ n.val → t.tph.fatal = false ∧ (logRoom s → logged s t 0x81 2 n 0)))) ∧
    (s.clk.lock.testBit n = true → ∃ t, exec (.pllLockLoss n) s = .next t ∧
      t = { s with clk := t.clk, pcie := t.pcie } ∧ t.clk.lock.testBit n = false ∧ others t.clk.lock s.clk.lock ∧
      t.clk.second.testBit n = true ∧ t.clk.started = s.clk.started ∧ (n.val = 3 → t.pcie.linkUp = false) ∧ (n.val ≠ 3 → t.pcie = s.pcie))) ∧
  (∀ s : State,
    (s.clk.lse = true → ∃ t, exec .lseLoss s = .next t ∧ t.clk = { s.clk with lse := false } ∧ (logRoom s → logged s t 0x82 2 0 0)) ∧
    exec .lseReturn s = .next { s with clk := { s.clk with lse := true } }) ∧
  (∀ (s : State) (m : Master), live s → regsRising s →
    let refused := fun (op : Nat) => Host.Outcome.next (s.reject m .rsvEnc 0x1100 (BitVec.ofNat 32 op))
    let paired := s.pair.st = 1 ∨ s.pair.st = 2 ∨ s.pair.st = 3
    let entering := fun (t : State) (target : Nat) => t.pwr.state = 1 ∧ t.pwr.target = target ∧ t.tickRun = false ∧
      (∀ k : Fin 16, (t.cluOf k).st = (if (s.cluOf k).st = 1 then 2 else (s.cluOf k).st) ∧
        t.ctxOf k = (if (s.cluOf k).st = 1 then { s.ctxOf k with wait := none } else s.ctxOf k)) ∧
      (∀ e : Fin 48, (t.rilOf e).slots = (s.rilOf e).slots ∧ ((s.rilOf e).st = 1 → (t.rilOf e).st = 0 ∧ e.val ∈ t.pwr.engines)) ∧
      (∀ u : Fin 4, (t.plsOf u).running = false ∧ (t.plsOf u).active = false) ∧
      (∀ c : Fin 2, (s.gysChOf c).mode = 1 → (t.gysChOf c).mode = 6 ∧ c.val ∈ t.pwr.channels) ∧ t.pool = s.pool ∧ t.core = s.core
    (paired ∨ s.tok.holder ≠ 0 ∨ s.tok.fifo ≠ [] →
      exec (.pwrDoze m) s = refused 1 ∧ exec (.pwrSleep m) s = refused 2 ∧ exec (.pwrHibernate m) s = refused 3) ∧
    (s.gys.timer = true → exec (.pwrSleep m) s = refused 2) ∧
    (s.pwr.state ≠ 2 → exec (.pwrWake m) s = refused 4) ∧
    (¬ paired → s.tok.holder = 0 → s.tok.fifo = [] → s.pwr.state = 0 →
      (∃ t, exec (.pwrDoze m) s = .next t ∧ entering t 2) ∧
      (s.gys.timer = false → ∃ t, exec (.pwrSleep m) s = .next t ∧ entering t 3) ∧
      (∃ t, exec (.pwrHibernate m) s = .next t ∧ t.pwr.state = 4 ∧ t.clk.started = 0 ∧ t.clk.lock = 0 ∧ t.pcie.linkUp = false ∧
        t.rg .PWR_WAKE_EN = s.rg .PWR_WAKE_EN ∧ resetLeft s t 4)) ∧
    (s.pwr.state = 2 → ∃ t, exec (.pwrWake m) s = .next t ∧ woken s t 1)) ∧
  (∀ s : State, regsRising s → s.pwr.state = 1 →
    let held := fun (t : State) => t.pool = s.pool ∧ t.core = s.core ∧ t.cfl = s.cfl ∧
      ∀ m < 56, t.bankSt m = if m ≠ 53 ∧ s.bankSt m = 0 then 1 else s.bankSt m
    (s.pwr.target = 2 → ∃ t, exec .powerEntryComplete s = .next t ∧ t.pwr.state = 2 ∧ counted s t Fx.PWR_CNT_DOZE ∧ held t ∧
      t.clk = s.clk ∧ t.mac = s.mac ∧ (logRoom s → logged s t 0x03 0 2 0)) ∧
    (s.pwr.target = 3 → ∃ t, exec .powerEntryComplete s = .next t ∧ t.pwr.state = 3 ∧ counted s t Fx.PWR_CNT_SLEEP ∧ held t ∧
      t.clk.lock = 0 ∧ t.clk.hse = false ∧ t.pcie.linkUp = false ∧ (logRoom s → logged s t 0x03 0 3 0) ∧
      ∀ p : Fin 10, t.portLink p = false ∧ (s.portLink p = true → counted s t Fx.MAC_LINK_CNT_DOWN p))) ∧
  (∀ (s : State) (src : BitVec 7), regsRising s →
    let acts := actingSources s src
    (s.pwr.state < 2 → exec (.wakeSource src) s = .next s) ∧
    (s.pwr.state = 2 ∨ s.pwr.state = 3 →
      (acts = 0#7 → exec (.wakeSource src) s = .next s) ∧
      (acts ≠ 0#7 → ∃ t, exec (.wakeSource src) s = .next t ∧ woken s t acts.toNat)) ∧
    (s.pwr.state = 4 → (src.getLsbD 5 && (s.rg .PWR_WAKE_EN).getLsbD 5 || src.getLsbD 6 && (s.rg .PWR_WAKE_EN).getLsbD 6) = true →
      ∃ t, exec (.wakeSource src) s = .next t ∧ t.pwr.state = 0 ∧ t.pwr.last = 4 ∧ resetLeft s t 4 ∧
        t.rg .PWR_WAKE_EN = RegId.resetValue .PWR_WAKE_EN 0)) ∧
  (∀ s : State, s.pwr.state = 2 ∨ s.pwr.state = 3 → regsRising s → s.rf Fx.PWR_ALARM_SEC ≠ 0 → s.rf Fx.PWR_ALARM_SEC = (s.pwr.sec + 1) % 2 ^ 32 →
    (s.rg .PWR_WAKE_EN).getLsbD 5 = true →
    ∃ t, exec .secondsTick s = .next t ∧ t.pwr.state = 0 ∧ t.pwr.wakeSrc = 32 ∧ t.pwr.last = s.pwr.state) ∧
  (∀ s : State, regsRising s → s.pwr.state < 2 →
    let sec := (s.pwr.sec + 1) % 2 ^ 32
    ∃ t, exec .secondsTick s = .next t ∧ t.pwr = { s.pwr with sec := sec } ∧ t.mem = { s.mem with sbErr := 0 } ∧ t.pool = s.pool ∧
      t.rb Fx.PWR_STS_ALARM = (s.rb Fx.PWR_STS_ALARM || (s.rf Fx.PWR_ALARM_SEC != 0 && s.rf Fx.PWR_ALARM_SEC == sec)) ∧
      (s.mem.sbErr = 0 → t.tph = s.tph) ∧
      (s.mem.sbErr ≠ 0 → logRoom s → s.mem.sbErr < 2 ^ 32 → t.tph.queue = s.tph.queue ++ [⟨sec, s.tb0Ns, 0x70, 0, 1, s.mem.sbErr⟩]))


/-! ### Faults and the Tephra log (spec/16) -/

/-- R498, R520 to R531, R561: the fatal triggers and the state they lead to; the watchdog: a kick clears it where it completes the conditions,
its warning, its expiry with the conditions not met; the Tephra queue written into the ring at TPH_TOTAL mod 4096, frozen by a FATAL entry,
full, released and cleared; the window; VBAT. A HOST_FREEZE by TPH_FREEZE. In the fatal state a further trigger is an event only (the model's
reading, log entry 166). -/
def Obligations.FatalFaultsWatchdogAndLog : Prop :=
  (∀ (s : State) (temp : BitVec 8) (m : Master), live s → regsRising s →
    (∃ t, exec .undervolt s = .next t ∧ fatalBy s t 0x91 0 0) ∧
    (∃ t, exec (.overtemp temp) s = .next t ∧ fatalBy s t 0x92 0 temp.toNat) ∧
    (s.clk.hse = true → ∃ t, exec .hseLoss s = .next t ∧ fatalBy s t 0x83 0 0 ∧ t.clk.hse = false ∧ t.clk.lock = 0 ∧ t.pcie.linkUp = false) ∧
    (s.boot.st = 0 → s.boot.released = true → s.clk.hse = false → ∃ t, exec .hseStartupTimeout s = .next t ∧ fatalBy s t 0x83 0 0) ∧
    (∃ t, exec (.tphFreeze m) s = .next t ∧ fatalBy s t 0x93 0 0)) ∧
  (∀ (s : State) (m : Master) (key : BitVec 8), live s →
    (key ≠ 0x5A#8 → exec (.wdgKick m key) s = .next (s.reject m .rsvEnc 0x3028 (BitVec.ofNat 32 key.toNat))) ∧
    (s.tph.wdgRun = true → s.rb Fx.TPH_WDG_CFG_HOST = true →
      ((∃ k : Fin 16, (s.rg .TPH_WDG_CLU).getLsbD k = true ∧ s.tph.cluMet.getLsbD k = false ∧ ((s.cluOf k).st = 1 ∨ (s.cluOf k).st = 4)) →
        exec (.wdgKick m 0x5A#8) s = .next { s with tph := { s.tph with hostMet := true } }) ∧
      ((∀ k : Fin 16, (s.rg .TPH_WDG_CLU).getLsbD k = true → s.tph.cluMet.getLsbD k = false → (s.cluOf k).st ≠ 1 ∧ (s.cluOf k).st ≠ 4) →
        exec (.wdgKick m 0x5A#8) s = .next { s with tph := { s.tph with hostMet := false, cluMet := 0#16, warn := false } }))) ∧
  (∀ s : State, live s → regsRising s → wdgOpen s →
    exec .wdgWarn s = .next { s with tph := { s.tph with warn := true } } ∧
    (s.tph.warn = true → ∃ t, exec .wdgExpiry s = .next t ∧ ∃ data, fatalBy s t 0x90 0 data ∧
      (data.testBit 16 = (s.rb Fx.TPH_WDG_CFG_HOST && !s.tph.hostMet)) ∧
      ∀ k : Fin 16, data.testBit k = ((s.rg .TPH_WDG_CLU).getLsbD k && !s.tph.cluMet.getLsbD k &&
        decide ((s.cluOf k).st = 1 ∨ (s.cluOf k).st = 4)))) ∧
  (∀ (s : State) (e : TphEntry) (rest : List TphEntry), s.tph.queue = e :: rest → s.tph.clearing = false →
    (s.tph.frozen = false ∨ e.cls = 3 →
      exec .tephraEntryWrite s = .next { s with tph := { s.tph with
        queue := rest, log := sput tphEmpty (s.tph.total % 4096) e s.tph.log, total := (s.tph.total + 1) % 2 ^ 32,
        frozen := s.tph.frozen || e.cls == 3, freezeSeq := if e.cls = 3 then s.tph.total else s.tph.freezeSeq } }) ∧
    (s.tph.frozen = true → e.cls ≠ 3 → exec .tephraEntryWrite s = .next s)) ∧
  (∀ s : State, s.clk.lse = true → s.tph.clearing = false → s.tph.frozen = true ∨ 16 ≤ s.tph.queue.length →
    ∃ t, exec .lseLoss s = .next t ∧ t.tph = { s.tph with dropped := min (s.tph.dropped + 1) 0xFFFF }) ∧
  (∀ (s : State) (m : Master), live s →
    (s.tph.frozen = false → exec (.tphRelease m) s = .next (s.reject m .rsvEnc 0x300C 1#32)) ∧
    (s.tph.frozen = true → exec (.tphRelease m) s = .next { s with tph := { s.tph with frozen := false, dropped := 0 } }) ∧
    exec (.tphClear m) s = .next { s with tph := { s.tph with clearing := true } }) ∧
  (∀ s : State,
    (s.tph.clearing = true → exec .tphClearDone s =
      .next { s with tph := { s.tph with clearing := false, frozen := false, dropped := 0, total := 0, log := [] } } ∧
      exec .tephraEntryWrite s = .next s)) ∧
  (∀ (s : State) (m : Master) (w : Fin 512), regsRising s → s.tph.queue = [] →
    let i := 128 * s.rf Fx.TPH_PAGE_PAGE + w.val / 4
    exec (.tphWindowRead m w false) s =
      .next { s with out := s.out ++ [.readData m (0x3800 + 4 * w.val) 4 (entryWord (sget tphEmpty i s.tph.log) (w.val % 4))] } ∧
    ∃ t, exec (.tphWindowRead m w true) s = .next t ∧ t = { s with regs := t.regs, out := t.out } ∧ t.rb Fx.TPH_STS_ECC = true ∧
      t.out = s.out ++ [.readData m (0x3800 + 4 * w.val) 4 0xFFFFFFFF]) ∧
  (∀ s : State, s.pwr.vbat = false →
    (∃ t, exec .mainRailLoss s = .next t ∧ t.pwr = { s.pwr with vbat := true } ∧ (logRoom s → logged s t 0x02 0 0 0))) ∧
  (∀ s : State, exec .mainRailReturn s = .next { s with pwr := { s.pwr with vbat := false } })


/-! ### Start-up (spec/17) -/

/-- R532 to R540, R551: what each source of reset leaves; PERST_N; straps and the end of INIT; the keys that KEYS admits; fuses programmed and
revoked, rejected where R540 says so. The link kept by causes 2 and 3 needs its clocks. That fuse operations act at the command and are BUSY until
they complete is the model's (log entry 174). -/
def Obligations.ResetsKeysAndFuses : Prop :=
  (∀ (s : State) (m : Master) (key : BitVec 8),
    let kept := fun (t : State) => t.pcie.linkUp = s.pcie.linkUp ∧ t.pcie.bme = s.pcie.bme
    let clocked := s.clk.hse = true ∧ s.clk.lock.testBit 3 = true ∧ s.clk.fail = 0
    let wake := fun (t : State) => t.rg .PWR_WAKE_EN = RegId.resetValue .PWR_WAKE_EN 0
    (∃ t, exec (.powerUpReset false) s = .next t ∧ resetLeft s t 0 ∧ wake t ∧ t.pcie.linkUp = false) ∧
    (∃ t, exec (.powerUpReset true) s = .next t ∧ t.boot.st = 0 ∧ t.boot.prog = s.boot.prog ∧ t.boot.hash = s.boot.hash ∧ t.pool = [] ∧
      t.regs = [] ∧ t.pwr = Pwr.reset ∧ t.tph = Tph.reset) ∧
    (∃ t, exec .resetNAssert s = .next t ∧ resetLeft s t 1 ∧ wake t ∧ t.pcie.linkUp = false) ∧
    (key ≠ 0xA5#8 → exec (.glbReset m key) s = .next (s.reject m .rsvEnc 0x40 (BitVec.ofNat 32 key.toNat))) ∧
    (∃ t, exec (.glbReset m 0xA5#8) s = .next t ∧ resetLeft s t 2 ∧ wake t ∧ (clocked → kept t) ∧
      (s.clk.hse = false → t.pcie.linkUp = false)) ∧
    (s.tph.fatal = true → s.rb Fx.TPH_WDG_CFG_AUTO_RESET = true →
      ∃ t, exec .fatalAutoReset s = .next t ∧ resetLeft s t 3 ∧ wake t ∧ (clocked → kept t) ∧ (s.clk.hse = false → t.pcie.linkUp = false)) ∧
    (s.tph.fatal = false ∨ s.rb Fx.TPH_WDG_CFG_AUTO_RESET = false → exec .fatalAutoReset s = .next s) ∧
    (∃ t, exec .perstN s = .next t ∧ t.pcie.linkUp = false ∧ t.pcie.bme = false ∧ t.regs = s.regs ∧ t.clu = s.clu ∧ t.pool = s.pool ∧
      t.lock = s.lock ∧ t.cfl = s.cfl ∧ (s.boot.st = 3 → s.hst.quiesced = false → t.hst.quiescing = true))) ∧
  (∀ (s : State) (mode : Fin 4) (role fast lse : Bool), s.pwr.state = 0 →
    (s.boot.released = false → exec (.resetRelease mode role fast) s = .next { s with
      boot := { s.boot with released := true, mode := mode, role := role, fast := fast }
      pair := { s.pair with role := role && s.variant.full } }) ∧
    (s.boot.released = true → exec (.resetRelease mode role fast) s = .next s) ∧
    (s.boot.released = true → s.boot.st = 0 → s.clk.lock % 16 = 15 → s.tph.fatal = false →
      ∃ t, exec (.initComplete lse) s = .next t ∧ t.boot.st = (if s.boot.mode = 0 then 1 else 2) ∧ t.boot.busy = (s.boot.busy || s.boot.mode == 0) ∧
        t.clk = { s.clk with lse := lse } ∧ (logRoom s → logged s t 0x01 0 (s.boot.cause % 256) (featDev s.variant)))) ∧
  (∀ (s : State) (m : Master) (page : BitVec 13),
    (s.lock = true → exec (.bootKeys m page) s = .next (s.reject m .rsvEnc 0x2008 (BitVec.ofNat 32 (2 ^ 28 + page.toNat * 256)))) ∧
    (s.lock = false → ∃ t, exec (.bootKeys m page) s = .next t ∧ t = { s with boot := { s.boot with keys := t.boot.keys } } ∧
      holdsKeys s t (keyAt s (page.toNat * 256)))) ∧
  (∀ (s : State) (m : Master) (slot : Fin 4) (key : BitVec 8),
    let word := fun (op : Nat) => BitVec.ofNat 32 (op * 2 ^ 28 + slot.val * 256 + key.toNat)
    let spent := key ≠ 0xC3#8 ∨ s.boot.fuseBusy = true
    let others := ∃ n : Fin 4, n ≠ slot ∧ s.boot.prog.getLsbD n = true ∧ s.boot.revoked.getLsbD n = false
    let bit := BitVec.ofNat 4 (2 ^ slot.val)
    (s.lock = true → exec (.fuseProgram m slot key) s = .next (s.reject m .locked 0x2284 (word 1)) ∧
      exec (.fuseRevoke m slot key) s = .next (s.reject m .locked 0x2284 (word 2))) ∧
    (s.lock = false →
      (spent ∨ s.boot.prog.getLsbD slot = true ∨ fuseBytes s = List.replicate 32 0 →
        exec (.fuseProgram m slot key) s = .next (s.reject m .rsvEnc 0x2284 (word 1))) ∧
      (¬ spent → s.boot.prog.getLsbD slot = false → fuseBytes s ≠ List.replicate 32 0 → exec (.fuseProgram m slot key) s = .next { s with
        boot := { s.boot with fuseBusy := true, prog := s.boot.prog ||| bit, hash := s.boot.hash.set slot (fuseBytes s) } }) ∧
      (spent ∨ s.boot.prog.getLsbD slot = false ∨ s.boot.revoked.getLsbD slot = true ∨ ¬ others →
        exec (.fuseRevoke m slot key) s = .next (s.reject m .rsvEnc 0x2284 (word 2))) ∧
      (¬ spent → s.boot.prog.getLsbD slot = true → s.boot.revoked.getLsbD slot = false → others →
        exec (.fuseRevoke m slot key) s = .next { s with
          boot := { s.boot with fuseBusy := true, revoked := s.boot.revoked ||| bit, keys := s.boot.keys.set slot none } })) ∧
    exec .fuseOpDone s = .next { s with boot := { s.boot with fuseBusy := false } })

/-- R541 to R548: a directory is taken into use, or directory B is read, or the load ends in HOST with BOOT_ERR; a container is loaded, or every
image is unloaded for directory B, or the load ends; the set-up list stops at the first rejected write; the entry into RUN, by the list or by
BOOT_CMD RUN, rejected unless the device is idle in HOST; BOOT_CMD FLASH. -/
def Obligations.FlashBootAndEntryIntoRun : Prop :=
  (∀ (s : State) (d : List Byte), s.boot.st = 1 → s.boot.phase = 1 →
    let st := s.dirStatus d
    (leAt d 0 4 ≠ 0x4C584244 ∨ leAt d 4 2 ≠ 1 ∨ leAt d 8 4 < 512 ∨ 65536 < leAt d 8 4 ∨ d.length < leAt d 8 4 → st = 2) ∧
    ∃ t, exec (.directoryLoad d) s = .next t ∧
      (st ≠ 0 → s.boot.dirB = false → t = { s with boot := { s.boot with dirB := true } }) ∧
      (st ≠ 0 → s.boot.dirB = true → hostWith t 1 0 st ∧ t.clu = s.clu ∧ t.pool = s.pool) ∧
      (st = 0 → t.boot.st = 1 ∧ t.boot.setVer = leAt d 12 4 ∧ t.boot.auto = (leAt d 16 1 % 2 == 1) ∧ t.boot.next = 0 ∧
        t.boot.entries.length = leAt d 6 2 ∧ t.boot.setup.length = leAt d 18 2 ∧
        holdsKeys s t (fun n => (d.drop (64 + 64 * n)).take 64))) ∧
  (∀ (s : State) (k : Fin 16) (off len : Nat) (rest : List (Nat × Nat × Nat)) (d : List Byte) (ecc : Bool), regsRising s →
    s.boot.st = 1 → s.boot.phase = 2 → s.boot.entries = (k.val, off, len) :: rest → s.coreOn k = true → s.physOf k < 16 →
    let st := if leAt d 8 4 ≠ len then 2 else s.loadStatus k d.length d ecc
    ∃ t, exec (.containerLoad d ecc) s = .next t ∧
      (st = 0 → formed d → t.boot.entries = rest ∧ t.boot.next = s.boot.next + 1 ∧ t.imgVer k = leAt d 12 4 ∧ (t.cluOf k).loaded = true ∧
        (t.cluOf k).st = (s.cluOf k).st ∧ (∀ i < 6, t.rg (bindRegs.getD i .ENG_BIND) k = bindWord d i) ∧
        ∀ b < 65536, sget 0#8 b (t.coreOf (s.physOf k)).imem = imageByte d false b ∧
          sget 0#8 b (t.coreOf (s.physOf k)).dmem = imageByte d true b) ∧
      (st ≠ 0 → s.boot.dirB = true → s.boot.next < 4096 → hostWith t 2 s.boot.next st ∧ t.boot.imgs = s.boot.imgs ∧
        (k.val < s.variant.cores → (t.coreOf (s.physOf k)).imem = [] ∧ (t.coreOf (s.physOf k)).dmem = [])) ∧
      (st ≠ 0 → s.boot.dirB = false → t.boot.st = 1 ∧ t.boot.phase = 1 ∧ t.boot.dirB = true ∧
        ∀ j : Fin 16, t.boot.imgs[j] = none ∧ (s.boot.imgs[j] ≠ none → (t.cluOf j).loaded = false))) ∧
  (∀ (s : State) (us : Nat), s.boot.st = 1 → s.boot.phase = 3 →
    (s.boot.setup = [] → s.boot.auto = false → ∃ t, exec (.setupWrites us) s = .next t ∧ t.boot.st = 2 ∧ t.boot.busy = false ∧
      t.lock = s.lock ∧ t.regs = s.regs ∧ t.clu = s.clu) ∧
    (s.boot.setup = [] → s.boot.auto = true → ∃ t, exec (.setupWrites us) s = .next t ∧ inRun s t ∧ t.boot.time = min us 0xFFFFFFFF) ∧
    (∀ off v rest c, s.boot.setup = (off, v) :: rest → s.writeAns off 4 v.toNat = .rejected c →
      ∃ t, exec (.setupWrites us) s = .next t ∧ hostWith t 3 0 0 ∧ t.regs = (s.reject .pcie c off (rejData off 4 v.toNat)).regs)) ∧
  (∀ (s : State) (m : Master) (us : Nat),
    let word := fun (op : Nat) => BitVec.ofNat 32 (op * 2 ^ 28)
    (¬ hostIdle s → exec (.bootFlash m) s = .next (s.reject m .rsvEnc 0x2008 (word 3))) ∧
    (¬ hostIdle s ∨ s.tok.holder ≠ 0 ∨ s.tok.fifo ≠ [] → exec (.bootRun m us) s = .next (s.reject m .rsvEnc 0x2008 (word 2))) ∧
    (hostIdle s → s.tok = ⟨0, []⟩ → ∃ t, exec (.bootRun m us) s = .next t ∧ inRun s t ∧ t.boot.time = min us 0xFFFFFFFF) ∧
    (hostIdle s → ∃ t, exec (.bootFlash m) s = .next t ∧ t.boot.st = 1 ∧ t.boot.busy = true ∧ t.boot.phase = 1 ∧ t.boot.dirB = false ∧
      ∀ j : Fin 16, t.boot.imgs[j] = none ∧ (s.boot.imgs[j] ≠ none → (t.cluOf j).loaded = false)))
end

