-- ==== Sys2Proof/Laws/Maps.lean ====
section
/-!
SUPPORT. Laws of the sparse maps, of the memories held in them and of vectors by a plain index.
-/
namespace Sys2Proof.Laws
open Sys2Proof Sys2Proof.Machine

/-- Keys strictly rising. -/
def Rising {β : Type} (l : List (Nat × β)) : Prop := (l.map Prod.fst).Pairwise (· < ·)

theorem rising_nil {β : Type} : Rising ([] : List (Nat × β)) := List.Pairwise.nil

theorem rising_cons {β : Type} (a : Nat) (v : β) (t : List (Nat × β)) :
    Rising ((a, v) :: t) ↔ (∀ x ∈ t, a < x.1) ∧ Rising t := by
  simp [Rising, List.pairwise_cons]

/-- A key below every key of the map holds the default. -/
theorem sget_below {β : Type} (d : β) (k : Nat) (l : List (Nat × β)) (h : ∀ x ∈ l, k < x.1) : sget d k l = d := by
  cases l with
  | nil => rfl
  | cons x t => obtain ⟨a, v⟩ := x; simp [sget, h (a, v) (by simp)]

theorem sput_keys {β : Type} [DecidableEq β] (d : β) (k : Nat) (v : β) (l : List (Nat × β)) :
    ∀ x ∈ sput d k v l, x.1 = k ∨ x ∈ l := by
  induction l with
  | nil => intro x hx; by_cases h : v = d <;> simp_all [sput]
  | cons y t ih =>
    obtain ⟨a, w⟩ := y
    intro x hx
    simp only [sput] at hx
    split at hx
    · split at hx
      · exact Or.inr hx
      · rcases List.mem_cons.mp hx with h | h
        · exact Or.inl (by rw [h])
        · exact Or.inr h
    · split at hx
      · split at hx
        · exact Or.inr (List.mem_cons_of_mem _ hx)
        · rcases List.mem_cons.mp hx with h | h
          · exact Or.inl (by rw [h])
          · exact Or.inr (List.mem_cons_of_mem _ h)
      · rcases List.mem_cons.mp hx with h | h
        · right; simp [h]
        · rcases ih x h with h | h
          · exact Or.inl h
          · right; simp [h]

theorem rising_sput {β : Type} [DecidableEq β] (d : β) (k : Nat) (v : β) (l : List (Nat × β)) (h : Rising l) :
    Rising (sput d k v l) := by
  induction l with
  | nil => by_cases hv : v = d <;> simp [sput, hv, Rising]
  | cons y t ih =>
    obtain ⟨a, w⟩ := y
    rw [rising_cons] at h
    simp only [sput]
    split
    · rename_i hk
      split
      · exact (rising_cons ..).mpr h
      · refine (rising_cons ..).mpr ⟨?_, (rising_cons ..).mpr h⟩
        intro x hx
        rcases List.mem_cons.mp hx with hx | hx
        · simp [hx, hk]
        · exact lt_trans hk (h.1 x hx)
    · split
      · rename_i hk; subst hk
        split
        · exact h.2
        · exact (rising_cons ..).mpr h
      · refine (rising_cons ..).mpr ⟨?_, ih h.2⟩
        intro x hx
        rcases sput_keys d k v t x hx with hx | hx
        · omega
        · exact h.1 x hx

theorem sget_sput_self {β : Type} [DecidableEq β] (d : β) (k : Nat) (v : β) (l : List (Nat × β)) (h : Rising l) :
    sget d k (sput d k v l) = v := by
  induction l with
  | nil => by_cases hv : v = d <;> simp [sput, sget, hv]
  | cons y t ih =>
    obtain ⟨a, w⟩ := y
    rw [rising_cons] at h
    simp only [sput]
    split
    · rename_i hk
      split
      · simp_all [sget]
      · simp [sget]
    · split
      · rename_i hk; subst hk
        split
        · rename_i hv; rw [hv]; exact sget_below _ _ _ h.1
        · simp [sget]
      · rename_i h1 h2; simp [sget, h1, h2, ih h.2]

theorem sget_sput_ne {β : Type} [DecidableEq β] (d e : β) (j k : Nat) (v : β) (l : List (Nat × β)) (h : Rising l) (hj : j ≠ k) :
    sget e j (sput d k v l) = sget e j l := by
  induction l with
  | nil =>
    by_cases hv : v = d
    · simp [sput, hv]
    · simp only [sput, hv, if_false, sget]
      rw [if_neg (Ne.symm hj)]
      split <;> rfl
  | cons y t ih =>
    obtain ⟨a, w⟩ := y
    rw [rising_cons] at h
    simp only [sput]
    split
    · rename_i hk
      split
      · rfl
      · simp only [sget]
        split
        · rename_i hj2; rw [if_pos (by omega)]
        · rw [if_neg (Ne.symm hj)]
    · split
      · rename_i hk; subst hk
        split
        · simp only [sget]
          split
          · rename_i hj2; exact sget_below _ _ _ (fun x hx => lt_trans hj2 (h.1 x hx))
          · rw [if_neg (Ne.symm hj)]
        · simp only [sget]; rw [if_neg (Ne.symm hj), if_neg (Ne.symm hj)]
      · simp only [sget, ih h.2]

theorem scanon_rising {β : Type} [DecidableEq β] (d : β) (lo : Nat) (l : List (Nat × β)) (h : scanon d lo l = true) :
    Rising l ∧ ∀ x ∈ l, lo ≤ x.1 := by
  induction l generalizing lo with
  | nil => simp [Rising]
  | cons y t ih =>
    obtain ⟨a, w⟩ := y
    simp only [scanon, Bool.and_eq_true, decide_eq_true_eq] at h
    obtain ⟨hr, hb⟩ := ih (a + 1) h.2
    refine ⟨(rising_cons ..).mpr ⟨fun x hx => hb x hx, hr⟩, ?_⟩
    intro x hx
    rcases List.mem_cons.mp hx with hx | hx
    · simp [hx, h.1.1]
    · have := hb x hx; omega

theorem scanon_mono {β : Type} [DecidableEq β] (d : β) (lo lo' : Nat) (l : List (Nat × β)) (hl : lo' ≤ lo) (h : scanon d lo l = true) :
    scanon d lo' l = true := by
  cases l with
  | nil => rfl
  | cons y t =>
    obtain ⟨a, w⟩ := y
    simp only [scanon, Bool.and_eq_true, decide_eq_true_eq] at h ⊢
    exact ⟨⟨by omega, h.1.2⟩, h.2⟩

/-- A write keeps the canonical form. -/
theorem scanon_sput {β : Type} [DecidableEq β] (d : β) (lo k : Nat) (v : β) (l : List (Nat × β)) (hk : lo ≤ k)
    (h : scanon d lo l = true) : scanon d lo (sput d k v l) = true := by
  induction l generalizing lo with
  | nil => by_cases hv : v = d <;> simp [sput, scanon, hv, hk]
  | cons y t ih =>
    obtain ⟨a, w⟩ := y
    simp only [scanon, Bool.and_eq_true, decide_eq_true_eq] at h
    simp only [sput]
    split
    · rename_i hlt
      split
      · simp only [scanon, Bool.and_eq_true, decide_eq_true_eq]; exact h
      · rename_i hv
        simp only [scanon, Bool.and_eq_true, decide_eq_true_eq]
        exact ⟨⟨hk, hv⟩, ⟨by omega, h.1.2⟩, h.2⟩
    · split
      · rename_i heq; subst heq
        split
        · exact scanon_mono d _ lo t (by omega) h.2
        · rename_i hv
          simp only [scanon, Bool.and_eq_true, decide_eq_true_eq]
          exact ⟨⟨hk, hv⟩, h.2⟩
      · simp only [scanon, Bool.and_eq_true, decide_eq_true_eq]
        exact ⟨h.1, ih (a + 1) (by omega) h.2⟩

/-! ### Memories -/

/-- Dropping entries keeps the canonical form. -/
theorem scanon_filter {β : Type} [DecidableEq β] (d : β) (lo : Nat) (l : List (Nat × β)) (f : Nat × β → Bool) (h : scanon d lo l = true) :
    scanon d lo (l.filter f) = true := by
  induction l generalizing lo with
  | nil => rfl
  | cons x t ih =>
    obtain ⟨a, v⟩ := x
    simp only [scanon, Bool.and_eq_true, decide_eq_true_eq] at h
    rw [List.filter_cons]
    split
    · simp only [scanon, Bool.and_eq_true, decide_eq_true_eq]
      exact ⟨h.1, ih _ h.2⟩
    · exact scanon_mono _ _ _ _ (by omega) (ih _ h.2)


/-- Every memory write keeps the canonical form. -/
theorem scanon_wrBytes (m : Cells) (a : Nat) (d : List Byte) (h : scanon (0 : Byte) 0 m = true) :
    scanon (0 : Byte) 0 (wrBytes m a d) = true := by
  induction d generalizing m a with
  | nil => exact h
  | cons b t ih => exact ih _ _ (scanon_sput _ _ _ _ _ (Nat.zero_le _) h)

/-- A byte after a write: the byte stored there, or what it was. -/
theorem sget_wrBytes (m : Cells) (a b : Nat) (d : List Byte) (h : Rising m) :
    sget (0 : Byte) b (wrBytes m a d) = if a ≤ b ∧ b < a + d.length then d.getD (b - a) 0 else sget (0 : Byte) b m := by
  induction d generalizing m a with
  | nil => simp only [wrBytes, List.length_nil]; rw [if_neg (by omega)]
  | cons x t ih =>
    simp only [wrBytes]
    rw [ih _ _ (rising_sput _ _ _ _ h)]
    by_cases hb : b = a
    · subst hb
      rw [if_neg (by omega), if_pos (by simp), sget_sput_self _ _ _ _ h]
      simp
    · rw [sget_sput_ne _ _ _ _ _ _ h hb]
      by_cases hr : a + 1 ≤ b ∧ b < a + 1 + t.length
      · rw [if_pos hr, if_pos (by simp; omega)]
        obtain ⟨n, rfl⟩ : ∃ n, b = a + 1 + n := ⟨b - (a + 1), by omega⟩
        simp [show a + 1 + n - a = n + 1 by omega]
      · rw [if_neg hr, if_neg (by simp; omega)]

theorem rdBytes_one (m : Cells) (a : Nat) : rdBytes m a 1 = [sget 0 a m] := rfl

/-! ### Vectors by a plain index -/

theorem vupd_of_not_lt {α : Type} {n : Nat} (v : Vector α n) (i : Nat) (f : α → α) (h : ¬ i < n) : vupd v i f = v := by
  simp [vupd, h]

theorem vupd_get {α : Type} {n : Nat} (v : Vector α n) (i j : Nat) (f : α → α) :
    (vupd v i f)[j]? = if i = j then (v[j]?).map f else v[j]? := by
  unfold vupd
  split
  · rename_i h
    rw [Vector.getElem?_set]
    split
    · rename_i hj; subst hj; simp [h]
    · rfl
  · rename_i h
    split
    · rename_i hj; subst hj
      have : v[i]? = none := by simp; omega
      simp [this]
    · rfl

end Sys2Proof.Laws
end

