-- ==== Sys2Proof/Laws/State.lean ====
section
/-!
SUPPORT. What the named updates of State leave unchanged: one lemma for each update and each other field, true by definition.
-/
namespace Sys2Proof.Machine
open Sys2Proof

/-! ### State.sg -/

@[simp] theorem State.sg_variant (s : State) (r : RegId) (i j : Nat) (v : Word) : (s.sg r i j v).variant = s.variant := rfl
@[simp] theorem State.sg_lock (s : State) (r : RegId) (i j : Nat) (v : Word) : (s.sg r i j v).lock = s.lock := rfl
@[simp] theorem State.sg_cyc (s : State) (r : RegId) (i j : Nat) (v : Word) : (s.sg r i j v).cyc = s.cyc := rfl
@[simp] theorem State.sg_pcie (s : State) (r : RegId) (i j : Nat) (v : Word) : (s.sg r i j v).pcie = s.pcie := rfl
@[simp] theorem State.sg_hst (s : State) (r : RegId) (i j : Nat) (v : Word) : (s.sg r i j v).hst = s.hst := rfl
@[simp] theorem State.sg_cfl (s : State) (r : RegId) (i j : Nat) (v : Word) : (s.sg r i j v).cfl = s.cfl := rfl
@[simp] theorem State.sg_mac (s : State) (r : RegId) (i j : Nat) (v : Word) : (s.sg r i j v).mac = s.mac := rfl
@[simp] theorem State.sg_tb (s : State) (r : RegId) (i j : Nat) (v : Word) : (s.sg r i j v).tb = s.tb := rfl
@[simp] theorem State.sg_cap (s : State) (r : RegId) (i j : Nat) (v : Word) : (s.sg r i j v).cap = s.cap := rfl
@[simp] theorem State.sg_pls (s : State) (r : RegId) (i j : Nat) (v : Word) : (s.sg r i j v).pls = s.pls := rfl
@[simp] theorem State.sg_gys (s : State) (r : RegId) (i j : Nat) (v : Word) : (s.sg r i j v).gys = s.gys := rfl
@[simp] theorem State.sg_pair (s : State) (r : RegId) (i j : Nat) (v : Word) : (s.sg r i j v).pair = s.pair := rfl
@[simp] theorem State.sg_fq (s : State) (r : RegId) (i j : Nat) (v : Word) : (s.sg r i j v).fq = s.fq := rfl
@[simp] theorem State.sg_clu (s : State) (r : RegId) (i j : Nat) (v : Word) : (s.sg r i j v).clu = s.clu := rfl
@[simp] theorem State.sg_core (s : State) (r : RegId) (i j : Nat) (v : Word) : (s.sg r i j v).core = s.core := rfl
@[simp] theorem State.sg_mig (s : State) (r : RegId) (i j : Nat) (v : Word) : (s.sg r i j v).mig = s.mig := rfl
@[simp] theorem State.sg_mbx (s : State) (r : RegId) (i j : Nat) (v : Word) : (s.sg r i j v).mbx = s.mbx := rfl
@[simp] theorem State.sg_lck (s : State) (r : RegId) (i j : Nat) (v : Word) : (s.sg r i j v).lck = s.lck := rfl
@[simp] theorem State.sg_ril (s : State) (r : RegId) (i j : Nat) (v : Word) : (s.sg r i j v).ril = s.ril := rfl
@[simp] theorem State.sg_rilSyncLo (s : State) (r : RegId) (i j : Nat) (v : Word) : (s.sg r i j v).rilSyncLo = s.rilSyncLo := rfl
@[simp] theorem State.sg_can (s : State) (r : RegId) (i j : Nat) (v : Word) : (s.sg r i j v).can = s.can := rfl
@[simp] theorem State.sg_lp (s : State) (r : RegId) (i j : Nat) (v : Word) : (s.sg r i j v).lp = s.lp := rfl
@[simp] theorem State.sg_pool (s : State) (r : RegId) (i j : Nat) (v : Word) : (s.sg r i j v).pool = s.pool := rfl
@[simp] theorem State.sg_bank (s : State) (r : RegId) (i j : Nat) (v : Word) : (s.sg r i j v).bank = s.bank := rfl
@[simp] theorem State.sg_mem (s : State) (r : RegId) (i j : Nat) (v : Word) : (s.sg r i j v).mem = s.mem := rfl
@[simp] theorem State.sg_tok (s : State) (r : RegId) (i j : Nat) (v : Word) : (s.sg r i j v).tok = s.tok := rfl
@[simp] theorem State.sg_clk (s : State) (r : RegId) (i j : Nat) (v : Word) : (s.sg r i j v).clk = s.clk := rfl
@[simp] theorem State.sg_pwr (s : State) (r : RegId) (i j : Nat) (v : Word) : (s.sg r i j v).pwr = s.pwr := rfl
@[simp] theorem State.sg_boot (s : State) (r : RegId) (i j : Nat) (v : Word) : (s.sg r i j v).boot = s.boot := rfl
@[simp] theorem State.sg_tph (s : State) (r : RegId) (i j : Nat) (v : Word) : (s.sg r i j v).tph = s.tph := rfl
@[simp] theorem State.sg_freeCtr (s : State) (r : RegId) (i j : Nat) (v : Word) : (s.sg r i j v).freeCtr = s.freeCtr := rfl
@[simp] theorem State.sg_out (s : State) (r : RegId) (i j : Nat) (v : Word) : (s.sg r i j v).out = s.out := rfl
@[simp] theorem State.sg_pending (s : State) (r : RegId) (i j : Nat) (v : Word) : (s.sg r i j v).pending = s.pending := rfl

/-! ### State.wf -/

@[simp] theorem State.wf_variant (s : State) (x : FRef) (v i j : Nat) : (s.wf x v i j).variant = s.variant := rfl
@[simp] theorem State.wf_lock (s : State) (x : FRef) (v i j : Nat) : (s.wf x v i j).lock = s.lock := rfl
@[simp] theorem State.wf_cyc (s : State) (x : FRef) (v i j : Nat) : (s.wf x v i j).cyc = s.cyc := rfl
@[simp] theorem State.wf_pcie (s : State) (x : FRef) (v i j : Nat) : (s.wf x v i j).pcie = s.pcie := rfl
@[simp] theorem State.wf_hst (s : State) (x : FRef) (v i j : Nat) : (s.wf x v i j).hst = s.hst := rfl
@[simp] theorem State.wf_cfl (s : State) (x : FRef) (v i j : Nat) : (s.wf x v i j).cfl = s.cfl := rfl
@[simp] theorem State.wf_mac (s : State) (x : FRef) (v i j : Nat) : (s.wf x v i j).mac = s.mac := rfl
@[simp] theorem State.wf_tb (s : State) (x : FRef) (v i j : Nat) : (s.wf x v i j).tb = s.tb := rfl
@[simp] theorem State.wf_cap (s : State) (x : FRef) (v i j : Nat) : (s.wf x v i j).cap = s.cap := rfl
@[simp] theorem State.wf_pls (s : State) (x : FRef) (v i j : Nat) : (s.wf x v i j).pls = s.pls := rfl
@[simp] theorem State.wf_gys (s : State) (x : FRef) (v i j : Nat) : (s.wf x v i j).gys = s.gys := rfl
@[simp] theorem State.wf_pair (s : State) (x : FRef) (v i j : Nat) : (s.wf x v i j).pair = s.pair := rfl
@[simp] theorem State.wf_fq (s : State) (x : FRef) (v i j : Nat) : (s.wf x v i j).fq = s.fq := rfl
@[simp] theorem State.wf_clu (s : State) (x : FRef) (v i j : Nat) : (s.wf x v i j).clu = s.clu := rfl
@[simp] theorem State.wf_core (s : State) (x : FRef) (v i j : Nat) : (s.wf x v i j).core = s.core := rfl
@[simp] theorem State.wf_mig (s : State) (x : FRef) (v i j : Nat) : (s.wf x v i j).mig = s.mig := rfl
@[simp] theorem State.wf_mbx (s : State) (x : FRef) (v i j : Nat) : (s.wf x v i j).mbx = s.mbx := rfl
@[simp] theorem State.wf_lck (s : State) (x : FRef) (v i j : Nat) : (s.wf x v i j).lck = s.lck := rfl
@[simp] theorem State.wf_ril (s : State) (x : FRef) (v i j : Nat) : (s.wf x v i j).ril = s.ril := rfl
@[simp] theorem State.wf_rilSyncLo (s : State) (x : FRef) (v i j : Nat) : (s.wf x v i j).rilSyncLo = s.rilSyncLo := rfl
@[simp] theorem State.wf_can (s : State) (x : FRef) (v i j : Nat) : (s.wf x v i j).can = s.can := rfl
@[simp] theorem State.wf_lp (s : State) (x : FRef) (v i j : Nat) : (s.wf x v i j).lp = s.lp := rfl
@[simp] theorem State.wf_pool (s : State) (x : FRef) (v i j : Nat) : (s.wf x v i j).pool = s.pool := rfl
@[simp] theorem State.wf_bank (s : State) (x : FRef) (v i j : Nat) : (s.wf x v i j).bank = s.bank := rfl
@[simp] theorem State.wf_mem (s : State) (x : FRef) (v i j : Nat) : (s.wf x v i j).mem = s.mem := rfl
@[simp] theorem State.wf_tok (s : State) (x : FRef) (v i j : Nat) : (s.wf x v i j).tok = s.tok := rfl
@[simp] theorem State.wf_clk (s : State) (x : FRef) (v i j : Nat) : (s.wf x v i j).clk = s.clk := rfl
@[simp] theorem State.wf_pwr (s : State) (x : FRef) (v i j : Nat) : (s.wf x v i j).pwr = s.pwr := rfl
@[simp] theorem State.wf_boot (s : State) (x : FRef) (v i j : Nat) : (s.wf x v i j).boot = s.boot := rfl
@[simp] theorem State.wf_tph (s : State) (x : FRef) (v i j : Nat) : (s.wf x v i j).tph = s.tph := rfl
@[simp] theorem State.wf_freeCtr (s : State) (x : FRef) (v i j : Nat) : (s.wf x v i j).freeCtr = s.freeCtr := rfl
@[simp] theorem State.wf_out (s : State) (x : FRef) (v i j : Nat) : (s.wf x v i j).out = s.out := rfl
@[simp] theorem State.wf_pending (s : State) (x : FRef) (v i j : Nat) : (s.wf x v i j).pending = s.pending := rfl

/-! ### State.bump -/

@[simp] theorem State.bump_variant (s : State) (x : FRef) (n i j : Nat) : (s.bump x n i j).variant = s.variant := rfl
@[simp] theorem State.bump_lock (s : State) (x : FRef) (n i j : Nat) : (s.bump x n i j).lock = s.lock := rfl
@[simp] theorem State.bump_cyc (s : State) (x : FRef) (n i j : Nat) : (s.bump x n i j).cyc = s.cyc := rfl
@[simp] theorem State.bump_pcie (s : State) (x : FRef) (n i j : Nat) : (s.bump x n i j).pcie = s.pcie := rfl
@[simp] theorem State.bump_hst (s : State) (x : FRef) (n i j : Nat) : (s.bump x n i j).hst = s.hst := rfl
@[simp] theorem State.bump_cfl (s : State) (x : FRef) (n i j : Nat) : (s.bump x n i j).cfl = s.cfl := rfl
@[simp] theorem State.bump_mac (s : State) (x : FRef) (n i j : Nat) : (s.bump x n i j).mac = s.mac := rfl
@[simp] theorem State.bump_tb (s : State) (x : FRef) (n i j : Nat) : (s.bump x n i j).tb = s.tb := rfl
@[simp] theorem State.bump_cap (s : State) (x : FRef) (n i j : Nat) : (s.bump x n i j).cap = s.cap := rfl
@[simp] theorem State.bump_pls (s : State) (x : FRef) (n i j : Nat) : (s.bump x n i j).pls = s.pls := rfl
@[simp] theorem State.bump_gys (s : State) (x : FRef) (n i j : Nat) : (s.bump x n i j).gys = s.gys := rfl
@[simp] theorem State.bump_pair (s : State) (x : FRef) (n i j : Nat) : (s.bump x n i j).pair = s.pair := rfl
@[simp] theorem State.bump_fq (s : State) (x : FRef) (n i j : Nat) : (s.bump x n i j).fq = s.fq := rfl
@[simp] theorem State.bump_clu (s : State) (x : FRef) (n i j : Nat) : (s.bump x n i j).clu = s.clu := rfl
@[simp] theorem State.bump_core (s : State) (x : FRef) (n i j : Nat) : (s.bump x n i j).core = s.core := rfl
@[simp] theorem State.bump_mig (s : State) (x : FRef) (n i j : Nat) : (s.bump x n i j).mig = s.mig := rfl
@[simp] theorem State.bump_mbx (s : State) (x : FRef) (n i j : Nat) : (s.bump x n i j).mbx = s.mbx := rfl
@[simp] theorem State.bump_lck (s : State) (x : FRef) (n i j : Nat) : (s.bump x n i j).lck = s.lck := rfl
@[simp] theorem State.bump_ril (s : State) (x : FRef) (n i j : Nat) : (s.bump x n i j).ril = s.ril := rfl
@[simp] theorem State.bump_rilSyncLo (s : State) (x : FRef) (n i j : Nat) : (s.bump x n i j).rilSyncLo = s.rilSyncLo := rfl
@[simp] theorem State.bump_can (s : State) (x : FRef) (n i j : Nat) : (s.bump x n i j).can = s.can := rfl
@[simp] theorem State.bump_lp (s : State) (x : FRef) (n i j : Nat) : (s.bump x n i j).lp = s.lp := rfl
@[simp] theorem State.bump_pool (s : State) (x : FRef) (n i j : Nat) : (s.bump x n i j).pool = s.pool := rfl
@[simp] theorem State.bump_bank (s : State) (x : FRef) (n i j : Nat) : (s.bump x n i j).bank = s.bank := rfl
@[simp] theorem State.bump_mem (s : State) (x : FRef) (n i j : Nat) : (s.bump x n i j).mem = s.mem := rfl
@[simp] theorem State.bump_tok (s : State) (x : FRef) (n i j : Nat) : (s.bump x n i j).tok = s.tok := rfl
@[simp] theorem State.bump_clk (s : State) (x : FRef) (n i j : Nat) : (s.bump x n i j).clk = s.clk := rfl
@[simp] theorem State.bump_pwr (s : State) (x : FRef) (n i j : Nat) : (s.bump x n i j).pwr = s.pwr := rfl
@[simp] theorem State.bump_boot (s : State) (x : FRef) (n i j : Nat) : (s.bump x n i j).boot = s.boot := rfl
@[simp] theorem State.bump_tph (s : State) (x : FRef) (n i j : Nat) : (s.bump x n i j).tph = s.tph := rfl
@[simp] theorem State.bump_freeCtr (s : State) (x : FRef) (n i j : Nat) : (s.bump x n i j).freeCtr = s.freeCtr := rfl
@[simp] theorem State.bump_out (s : State) (x : FRef) (n i j : Nat) : (s.bump x n i j).out = s.out := rfl
@[simp] theorem State.bump_pending (s : State) (x : FRef) (n i j : Nat) : (s.bump x n i j).pending = s.pending := rfl

/-! ### State.emit -/

@[simp] theorem State.emit_variant (s : State) (o : Output) : (s.emit o).variant = s.variant := rfl
@[simp] theorem State.emit_regs (s : State) (o : Output) : (s.emit o).regs = s.regs := rfl
@[simp] theorem State.emit_lock (s : State) (o : Output) : (s.emit o).lock = s.lock := rfl
@[simp] theorem State.emit_cyc (s : State) (o : Output) : (s.emit o).cyc = s.cyc := rfl
@[simp] theorem State.emit_pcie (s : State) (o : Output) : (s.emit o).pcie = s.pcie := rfl
@[simp] theorem State.emit_hst (s : State) (o : Output) : (s.emit o).hst = s.hst := rfl
@[simp] theorem State.emit_cfl (s : State) (o : Output) : (s.emit o).cfl = s.cfl := rfl
@[simp] theorem State.emit_mac (s : State) (o : Output) : (s.emit o).mac = s.mac := rfl
@[simp] theorem State.emit_tb (s : State) (o : Output) : (s.emit o).tb = s.tb := rfl
@[simp] theorem State.emit_cap (s : State) (o : Output) : (s.emit o).cap = s.cap := rfl
@[simp] theorem State.emit_pls (s : State) (o : Output) : (s.emit o).pls = s.pls := rfl
@[simp] theorem State.emit_gys (s : State) (o : Output) : (s.emit o).gys = s.gys := rfl
@[simp] theorem State.emit_pair (s : State) (o : Output) : (s.emit o).pair = s.pair := rfl
@[simp] theorem State.emit_fq (s : State) (o : Output) : (s.emit o).fq = s.fq := rfl
@[simp] theorem State.emit_clu (s : State) (o : Output) : (s.emit o).clu = s.clu := rfl
@[simp] theorem State.emit_core (s : State) (o : Output) : (s.emit o).core = s.core := rfl
@[simp] theorem State.emit_mig (s : State) (o : Output) : (s.emit o).mig = s.mig := rfl
@[simp] theorem State.emit_mbx (s : State) (o : Output) : (s.emit o).mbx = s.mbx := rfl
@[simp] theorem State.emit_lck (s : State) (o : Output) : (s.emit o).lck = s.lck := rfl
@[simp] theorem State.emit_ril (s : State) (o : Output) : (s.emit o).ril = s.ril := rfl
@[simp] theorem State.emit_rilSyncLo (s : State) (o : Output) : (s.emit o).rilSyncLo = s.rilSyncLo := rfl
@[simp] theorem State.emit_can (s : State) (o : Output) : (s.emit o).can = s.can := rfl
@[simp] theorem State.emit_lp (s : State) (o : Output) : (s.emit o).lp = s.lp := rfl
@[simp] theorem State.emit_pool (s : State) (o : Output) : (s.emit o).pool = s.pool := rfl
@[simp] theorem State.emit_bank (s : State) (o : Output) : (s.emit o).bank = s.bank := rfl
@[simp] theorem State.emit_mem (s : State) (o : Output) : (s.emit o).mem = s.mem := rfl
@[simp] theorem State.emit_tok (s : State) (o : Output) : (s.emit o).tok = s.tok := rfl
@[simp] theorem State.emit_clk (s : State) (o : Output) : (s.emit o).clk = s.clk := rfl
@[simp] theorem State.emit_pwr (s : State) (o : Output) : (s.emit o).pwr = s.pwr := rfl
@[simp] theorem State.emit_boot (s : State) (o : Output) : (s.emit o).boot = s.boot := rfl
@[simp] theorem State.emit_tph (s : State) (o : Output) : (s.emit o).tph = s.tph := rfl
@[simp] theorem State.emit_freeCtr (s : State) (o : Output) : (s.emit o).freeCtr = s.freeCtr := rfl
@[simp] theorem State.emit_pending (s : State) (o : Output) : (s.emit o).pending = s.pending := rfl

/-! ### State.freeNext -/

@[simp] theorem State.freeNext_variant (s : State) : (s.freeNext).variant = s.variant := rfl
@[simp] theorem State.freeNext_regs (s : State) : (s.freeNext).regs = s.regs := rfl
@[simp] theorem State.freeNext_lock (s : State) : (s.freeNext).lock = s.lock := rfl
@[simp] theorem State.freeNext_cyc (s : State) : (s.freeNext).cyc = s.cyc := rfl
@[simp] theorem State.freeNext_pcie (s : State) : (s.freeNext).pcie = s.pcie := rfl
@[simp] theorem State.freeNext_hst (s : State) : (s.freeNext).hst = s.hst := rfl
@[simp] theorem State.freeNext_cfl (s : State) : (s.freeNext).cfl = s.cfl := rfl
@[simp] theorem State.freeNext_mac (s : State) : (s.freeNext).mac = s.mac := rfl
@[simp] theorem State.freeNext_tb (s : State) : (s.freeNext).tb = s.tb := rfl
@[simp] theorem State.freeNext_cap (s : State) : (s.freeNext).cap = s.cap := rfl
@[simp] theorem State.freeNext_pls (s : State) : (s.freeNext).pls = s.pls := rfl
@[simp] theorem State.freeNext_gys (s : State) : (s.freeNext).gys = s.gys := rfl
@[simp] theorem State.freeNext_pair (s : State) : (s.freeNext).pair = s.pair := rfl
@[simp] theorem State.freeNext_fq (s : State) : (s.freeNext).fq = s.fq := rfl
@[simp] theorem State.freeNext_clu (s : State) : (s.freeNext).clu = s.clu := rfl
@[simp] theorem State.freeNext_core (s : State) : (s.freeNext).core = s.core := rfl
@[simp] theorem State.freeNext_mig (s : State) : (s.freeNext).mig = s.mig := rfl
@[simp] theorem State.freeNext_mbx (s : State) : (s.freeNext).mbx = s.mbx := rfl
@[simp] theorem State.freeNext_lck (s : State) : (s.freeNext).lck = s.lck := rfl
@[simp] theorem State.freeNext_ril (s : State) : (s.freeNext).ril = s.ril := rfl
@[simp] theorem State.freeNext_rilSyncLo (s : State) : (s.freeNext).rilSyncLo = s.rilSyncLo := rfl
@[simp] theorem State.freeNext_can (s : State) : (s.freeNext).can = s.can := rfl
@[simp] theorem State.freeNext_lp (s : State) : (s.freeNext).lp = s.lp := rfl
@[simp] theorem State.freeNext_pool (s : State) : (s.freeNext).pool = s.pool := rfl
@[simp] theorem State.freeNext_bank (s : State) : (s.freeNext).bank = s.bank := rfl
@[simp] theorem State.freeNext_mem (s : State) : (s.freeNext).mem = s.mem := rfl
@[simp] theorem State.freeNext_tok (s : State) : (s.freeNext).tok = s.tok := rfl
@[simp] theorem State.freeNext_clk (s : State) : (s.freeNext).clk = s.clk := rfl
@[simp] theorem State.freeNext_pwr (s : State) : (s.freeNext).pwr = s.pwr := rfl
@[simp] theorem State.freeNext_boot (s : State) : (s.freeNext).boot = s.boot := rfl
@[simp] theorem State.freeNext_tph (s : State) : (s.freeNext).tph = s.tph := rfl
@[simp] theorem State.freeNext_out (s : State) : (s.freeNext).out = s.out := rfl
@[simp] theorem State.freeNext_pending (s : State) : (s.freeNext).pending = s.pending := rfl

/-! ### State.tbUpd -/

@[simp] theorem State.tbUpd_variant (s : State) (n : Nat) (f : TimeBase → TimeBase) : (s.tbUpd n f).variant = s.variant := rfl
@[simp] theorem State.tbUpd_regs (s : State) (n : Nat) (f : TimeBase → TimeBase) : (s.tbUpd n f).regs = s.regs := rfl
@[simp] theorem State.tbUpd_lock (s : State) (n : Nat) (f : TimeBase → TimeBase) : (s.tbUpd n f).lock = s.lock := rfl
@[simp] theorem State.tbUpd_cyc (s : State) (n : Nat) (f : TimeBase → TimeBase) : (s.tbUpd n f).cyc = s.cyc := rfl
@[simp] theorem State.tbUpd_pcie (s : State) (n : Nat) (f : TimeBase → TimeBase) : (s.tbUpd n f).pcie = s.pcie := rfl
@[simp] theorem State.tbUpd_hst (s : State) (n : Nat) (f : TimeBase → TimeBase) : (s.tbUpd n f).hst = s.hst := rfl
@[simp] theorem State.tbUpd_cfl (s : State) (n : Nat) (f : TimeBase → TimeBase) : (s.tbUpd n f).cfl = s.cfl := rfl
@[simp] theorem State.tbUpd_mac (s : State) (n : Nat) (f : TimeBase → TimeBase) : (s.tbUpd n f).mac = s.mac := rfl
@[simp] theorem State.tbUpd_cap (s : State) (n : Nat) (f : TimeBase → TimeBase) : (s.tbUpd n f).cap = s.cap := rfl
@[simp] theorem State.tbUpd_pls (s : State) (n : Nat) (f : TimeBase → TimeBase) : (s.tbUpd n f).pls = s.pls := rfl
@[simp] theorem State.tbUpd_gys (s : State) (n : Nat) (f : TimeBase → TimeBase) : (s.tbUpd n f).gys = s.gys := rfl
@[simp] theorem State.tbUpd_pair (s : State) (n : Nat) (f : TimeBase → TimeBase) : (s.tbUpd n f).pair = s.pair := rfl
@[simp] theorem State.tbUpd_fq (s : State) (n : Nat) (f : TimeBase → TimeBase) : (s.tbUpd n f).fq = s.fq := rfl
@[simp] theorem State.tbUpd_clu (s : State) (n : Nat) (f : TimeBase → TimeBase) : (s.tbUpd n f).clu = s.clu := rfl
@[simp] theorem State.tbUpd_core (s : State) (n : Nat) (f : TimeBase → TimeBase) : (s.tbUpd n f).core = s.core := rfl
@[simp] theorem State.tbUpd_mig (s : State) (n : Nat) (f : TimeBase → TimeBase) : (s.tbUpd n f).mig = s.mig := rfl
@[simp] theorem State.tbUpd_mbx (s : State) (n : Nat) (f : TimeBase → TimeBase) : (s.tbUpd n f).mbx = s.mbx := rfl
@[simp] theorem State.tbUpd_lck (s : State) (n : Nat) (f : TimeBase → TimeBase) : (s.tbUpd n f).lck = s.lck := rfl
@[simp] theorem State.tbUpd_ril (s : State) (n : Nat) (f : TimeBase → TimeBase) : (s.tbUpd n f).ril = s.ril := rfl
@[simp] theorem State.tbUpd_rilSyncLo (s : State) (n : Nat) (f : TimeBase → TimeBase) : (s.tbUpd n f).rilSyncLo = s.rilSyncLo := rfl
@[simp] theorem State.tbUpd_can (s : State) (n : Nat) (f : TimeBase → TimeBase) : (s.tbUpd n f).can = s.can := rfl
@[simp] theorem State.tbUpd_lp (s : State) (n : Nat) (f : TimeBase → TimeBase) : (s.tbUpd n f).lp = s.lp := rfl
@[simp] theorem State.tbUpd_pool (s : State) (n : Nat) (f : TimeBase → TimeBase) : (s.tbUpd n f).pool = s.pool := rfl
@[simp] theorem State.tbUpd_bank (s : State) (n : Nat) (f : TimeBase → TimeBase) : (s.tbUpd n f).bank = s.bank := rfl
@[simp] theorem State.tbUpd_mem (s : State) (n : Nat) (f : TimeBase → TimeBase) : (s.tbUpd n f).mem = s.mem := rfl
@[simp] theorem State.tbUpd_tok (s : State) (n : Nat) (f : TimeBase → TimeBase) : (s.tbUpd n f).tok = s.tok := rfl
@[simp] theorem State.tbUpd_clk (s : State) (n : Nat) (f : TimeBase → TimeBase) : (s.tbUpd n f).clk = s.clk := rfl
@[simp] theorem State.tbUpd_pwr (s : State) (n : Nat) (f : TimeBase → TimeBase) : (s.tbUpd n f).pwr = s.pwr := rfl
@[simp] theorem State.tbUpd_boot (s : State) (n : Nat) (f : TimeBase → TimeBase) : (s.tbUpd n f).boot = s.boot := rfl
@[simp] theorem State.tbUpd_tph (s : State) (n : Nat) (f : TimeBase → TimeBase) : (s.tbUpd n f).tph = s.tph := rfl
@[simp] theorem State.tbUpd_freeCtr (s : State) (n : Nat) (f : TimeBase → TimeBase) : (s.tbUpd n f).freeCtr = s.freeCtr := rfl
@[simp] theorem State.tbUpd_out (s : State) (n : Nat) (f : TimeBase → TimeBase) : (s.tbUpd n f).out = s.out := rfl
@[simp] theorem State.tbUpd_pending (s : State) (n : Nat) (f : TimeBase → TimeBase) : (s.tbUpd n f).pending = s.pending := rfl

/-! ### State.evrUpd -/

@[simp] theorem State.evrUpd_variant (s : State) (n : Nat) (f : EvRing → EvRing) : (s.evrUpd n f).variant = s.variant := rfl
@[simp] theorem State.evrUpd_regs (s : State) (n : Nat) (f : EvRing → EvRing) : (s.evrUpd n f).regs = s.regs := rfl
@[simp] theorem State.evrUpd_lock (s : State) (n : Nat) (f : EvRing → EvRing) : (s.evrUpd n f).lock = s.lock := rfl
@[simp] theorem State.evrUpd_cyc (s : State) (n : Nat) (f : EvRing → EvRing) : (s.evrUpd n f).cyc = s.cyc := rfl
@[simp] theorem State.evrUpd_pcie (s : State) (n : Nat) (f : EvRing → EvRing) : (s.evrUpd n f).pcie = s.pcie := rfl
@[simp] theorem State.evrUpd_cfl (s : State) (n : Nat) (f : EvRing → EvRing) : (s.evrUpd n f).cfl = s.cfl := rfl
@[simp] theorem State.evrUpd_mac (s : State) (n : Nat) (f : EvRing → EvRing) : (s.evrUpd n f).mac = s.mac := rfl
@[simp] theorem State.evrUpd_tb (s : State) (n : Nat) (f : EvRing → EvRing) : (s.evrUpd n f).tb = s.tb := rfl
@[simp] theorem State.evrUpd_cap (s : State) (n : Nat) (f : EvRing → EvRing) : (s.evrUpd n f).cap = s.cap := rfl
@[simp] theorem State.evrUpd_pls (s : State) (n : Nat) (f : EvRing → EvRing) : (s.evrUpd n f).pls = s.pls := rfl
@[simp] theorem State.evrUpd_gys (s : State) (n : Nat) (f : EvRing → EvRing) : (s.evrUpd n f).gys = s.gys := rfl
@[simp] theorem State.evrUpd_pair (s : State) (n : Nat) (f : EvRing → EvRing) : (s.evrUpd n f).pair = s.pair := rfl
@[simp] theorem State.evrUpd_fq (s : State) (n : Nat) (f : EvRing → EvRing) : (s.evrUpd n f).fq = s.fq := rfl
@[simp] theorem State.evrUpd_clu (s : State) (n : Nat) (f : EvRing → EvRing) : (s.evrUpd n f).clu = s.clu := rfl
@[simp] theorem State.evrUpd_core (s : State) (n : Nat) (f : EvRing → EvRing) : (s.evrUpd n f).core = s.core := rfl
@[simp] theorem State.evrUpd_mig (s : State) (n : Nat) (f : EvRing → EvRing) : (s.evrUpd n f).mig = s.mig := rfl
@[simp] theorem State.evrUpd_mbx (s : State) (n : Nat) (f : EvRing → EvRing) : (s.evrUpd n f).mbx = s.mbx := rfl
@[simp] theorem State.evrUpd_lck (s : State) (n : Nat) (f : EvRing → EvRing) : (s.evrUpd n f).lck = s.lck := rfl
@[simp] theorem State.evrUpd_ril (s : State) (n : Nat) (f : EvRing → EvRing) : (s.evrUpd n f).ril = s.ril := rfl
@[simp] theorem State.evrUpd_rilSyncLo (s : State) (n : Nat) (f : EvRing → EvRing) : (s.evrUpd n f).rilSyncLo = s.rilSyncLo := rfl
@[simp] theorem State.evrUpd_can (s : State) (n : Nat) (f : EvRing → EvRing) : (s.evrUpd n f).can = s.can := rfl
@[simp] theorem State.evrUpd_lp (s : State) (n : Nat) (f : EvRing → EvRing) : (s.evrUpd n f).lp = s.lp := rfl
@[simp] theorem State.evrUpd_pool (s : State) (n : Nat) (f : EvRing → EvRing) : (s.evrUpd n f).pool = s.pool := rfl
@[simp] theorem State.evrUpd_bank (s : State) (n : Nat) (f : EvRing → EvRing) : (s.evrUpd n f).bank = s.bank := rfl
@[simp] theorem State.evrUpd_mem (s : State) (n : Nat) (f : EvRing → EvRing) : (s.evrUpd n f).mem = s.mem := rfl
@[simp] theorem State.evrUpd_tok (s : State) (n : Nat) (f : EvRing → EvRing) : (s.evrUpd n f).tok = s.tok := rfl
@[simp] theorem State.evrUpd_clk (s : State) (n : Nat) (f : EvRing → EvRing) : (s.evrUpd n f).clk = s.clk := rfl
@[simp] theorem State.evrUpd_pwr (s : State) (n : Nat) (f : EvRing → EvRing) : (s.evrUpd n f).pwr = s.pwr := rfl
@[simp] theorem State.evrUpd_boot (s : State) (n : Nat) (f : EvRing → EvRing) : (s.evrUpd n f).boot = s.boot := rfl
@[simp] theorem State.evrUpd_tph (s : State) (n : Nat) (f : EvRing → EvRing) : (s.evrUpd n f).tph = s.tph := rfl
@[simp] theorem State.evrUpd_freeCtr (s : State) (n : Nat) (f : EvRing → EvRing) : (s.evrUpd n f).freeCtr = s.freeCtr := rfl
@[simp] theorem State.evrUpd_out (s : State) (n : Nat) (f : EvRing → EvRing) : (s.evrUpd n f).out = s.out := rfl
@[simp] theorem State.evrUpd_pending (s : State) (n : Nat) (f : EvRing → EvRing) : (s.evrUpd n f).pending = s.pending := rfl

/-! ### State.txUpd -/

@[simp] theorem State.txUpd_variant (s : State) (n : Nat) (f : Ring → Ring) : (s.txUpd n f).variant = s.variant := rfl
@[simp] theorem State.txUpd_regs (s : State) (n : Nat) (f : Ring → Ring) : (s.txUpd n f).regs = s.regs := rfl
@[simp] theorem State.txUpd_lock (s : State) (n : Nat) (f : Ring → Ring) : (s.txUpd n f).lock = s.lock := rfl
@[simp] theorem State.txUpd_cyc (s : State) (n : Nat) (f : Ring → Ring) : (s.txUpd n f).cyc = s.cyc := rfl
@[simp] theorem State.txUpd_pcie (s : State) (n : Nat) (f : Ring → Ring) : (s.txUpd n f).pcie = s.pcie := rfl
@[simp] theorem State.txUpd_cfl (s : State) (n : Nat) (f : Ring → Ring) : (s.txUpd n f).cfl = s.cfl := rfl
@[simp] theorem State.txUpd_mac (s : State) (n : Nat) (f : Ring → Ring) : (s.txUpd n f).mac = s.mac := rfl
@[simp] theorem State.txUpd_tb (s : State) (n : Nat) (f : Ring → Ring) : (s.txUpd n f).tb = s.tb := rfl
@[simp] theorem State.txUpd_cap (s : State) (n : Nat) (f : Ring → Ring) : (s.txUpd n f).cap = s.cap := rfl
@[simp] theorem State.txUpd_pls (s : State) (n : Nat) (f : Ring → Ring) : (s.txUpd n f).pls = s.pls := rfl
@[simp] theorem State.txUpd_gys (s : State) (n : Nat) (f : Ring → Ring) : (s.txUpd n f).gys = s.gys := rfl
@[simp] theorem State.txUpd_pair (s : State) (n : Nat) (f : Ring → Ring) : (s.txUpd n f).pair = s.pair := rfl
@[simp] theorem State.txUpd_fq (s : State) (n : Nat) (f : Ring → Ring) : (s.txUpd n f).fq = s.fq := rfl
@[simp] theorem State.txUpd_clu (s : State) (n : Nat) (f : Ring → Ring) : (s.txUpd n f).clu = s.clu := rfl
@[simp] theorem State.txUpd_core (s : State) (n : Nat) (f : Ring → Ring) : (s.txUpd n f).core = s.core := rfl
@[simp] theorem State.txUpd_mig (s : State) (n : Nat) (f : Ring → Ring) : (s.txUpd n f).mig = s.mig := rfl
@[simp] theorem State.txUpd_mbx (s : State) (n : Nat) (f : Ring → Ring) : (s.txUpd n f).mbx = s.mbx := rfl
@[simp] theorem State.txUpd_lck (s : State) (n : Nat) (f : Ring → Ring) : (s.txUpd n f).lck = s.lck := rfl
@[simp] theorem State.txUpd_ril (s : State) (n : Nat) (f : Ring → Ring) : (s.txUpd n f).ril = s.ril := rfl
@[simp] theorem State.txUpd_rilSyncLo (s : State) (n : Nat) (f : Ring → Ring) : (s.txUpd n f).rilSyncLo = s.rilSyncLo := rfl
@[simp] theorem State.txUpd_can (s : State) (n : Nat) (f : Ring → Ring) : (s.txUpd n f).can = s.can := rfl
@[simp] theorem State.txUpd_lp (s : State) (n : Nat) (f : Ring → Ring) : (s.txUpd n f).lp = s.lp := rfl
@[simp] theorem State.txUpd_pool (s : State) (n : Nat) (f : Ring → Ring) : (s.txUpd n f).pool = s.pool := rfl
@[simp] theorem State.txUpd_bank (s : State) (n : Nat) (f : Ring → Ring) : (s.txUpd n f).bank = s.bank := rfl
@[simp] theorem State.txUpd_mem (s : State) (n : Nat) (f : Ring → Ring) : (s.txUpd n f).mem = s.mem := rfl
@[simp] theorem State.txUpd_tok (s : State) (n : Nat) (f : Ring → Ring) : (s.txUpd n f).tok = s.tok := rfl
@[simp] theorem State.txUpd_clk (s : State) (n : Nat) (f : Ring → Ring) : (s.txUpd n f).clk = s.clk := rfl
@[simp] theorem State.txUpd_pwr (s : State) (n : Nat) (f : Ring → Ring) : (s.txUpd n f).pwr = s.pwr := rfl
@[simp] theorem State.txUpd_boot (s : State) (n : Nat) (f : Ring → Ring) : (s.txUpd n f).boot = s.boot := rfl
@[simp] theorem State.txUpd_tph (s : State) (n : Nat) (f : Ring → Ring) : (s.txUpd n f).tph = s.tph := rfl
@[simp] theorem State.txUpd_freeCtr (s : State) (n : Nat) (f : Ring → Ring) : (s.txUpd n f).freeCtr = s.freeCtr := rfl
@[simp] theorem State.txUpd_out (s : State) (n : Nat) (f : Ring → Ring) : (s.txUpd n f).out = s.out := rfl
@[simp] theorem State.txUpd_pending (s : State) (n : Nat) (f : Ring → Ring) : (s.txUpd n f).pending = s.pending := rfl

/-! ### State.rxUpd -/

@[simp] theorem State.rxUpd_variant (s : State) (n : Nat) (f : Ring → Ring) : (s.rxUpd n f).variant = s.variant := rfl
@[simp] theorem State.rxUpd_regs (s : State) (n : Nat) (f : Ring → Ring) : (s.rxUpd n f).regs = s.regs := rfl
@[simp] theorem State.rxUpd_lock (s : State) (n : Nat) (f : Ring → Ring) : (s.rxUpd n f).lock = s.lock := rfl
@[simp] theorem State.rxUpd_cyc (s : State) (n : Nat) (f : Ring → Ring) : (s.rxUpd n f).cyc = s.cyc := rfl
@[simp] theorem State.rxUpd_pcie (s : State) (n : Nat) (f : Ring → Ring) : (s.rxUpd n f).pcie = s.pcie := rfl
@[simp] theorem State.rxUpd_cfl (s : State) (n : Nat) (f : Ring → Ring) : (s.rxUpd n f).cfl = s.cfl := rfl
@[simp] theorem State.rxUpd_mac (s : State) (n : Nat) (f : Ring → Ring) : (s.rxUpd n f).mac = s.mac := rfl
@[simp] theorem State.rxUpd_tb (s : State) (n : Nat) (f : Ring → Ring) : (s.rxUpd n f).tb = s.tb := rfl
@[simp] theorem State.rxUpd_cap (s : State) (n : Nat) (f : Ring → Ring) : (s.rxUpd n f).cap = s.cap := rfl
@[simp] theorem State.rxUpd_pls (s : State) (n : Nat) (f : Ring → Ring) : (s.rxUpd n f).pls = s.pls := rfl
@[simp] theorem State.rxUpd_gys (s : State) (n : Nat) (f : Ring → Ring) : (s.rxUpd n f).gys = s.gys := rfl
@[simp] theorem State.rxUpd_pair (s : State) (n : Nat) (f : Ring → Ring) : (s.rxUpd n f).pair = s.pair := rfl
@[simp] theorem State.rxUpd_fq (s : State) (n : Nat) (f : Ring → Ring) : (s.rxUpd n f).fq = s.fq := rfl
@[simp] theorem State.rxUpd_clu (s : State) (n : Nat) (f : Ring → Ring) : (s.rxUpd n f).clu = s.clu := rfl
@[simp] theorem State.rxUpd_core (s : State) (n : Nat) (f : Ring → Ring) : (s.rxUpd n f).core = s.core := rfl
@[simp] theorem State.rxUpd_mig (s : State) (n : Nat) (f : Ring → Ring) : (s.rxUpd n f).mig = s.mig := rfl
@[simp] theorem State.rxUpd_mbx (s : State) (n : Nat) (f : Ring → Ring) : (s.rxUpd n f).mbx = s.mbx := rfl
@[simp] theorem State.rxUpd_lck (s : State) (n : Nat) (f : Ring → Ring) : (s.rxUpd n f).lck = s.lck := rfl
@[simp] theorem State.rxUpd_ril (s : State) (n : Nat) (f : Ring → Ring) : (s.rxUpd n f).ril = s.ril := rfl
@[simp] theorem State.rxUpd_rilSyncLo (s : State) (n : Nat) (f : Ring → Ring) : (s.rxUpd n f).rilSyncLo = s.rilSyncLo := rfl
@[simp] theorem State.rxUpd_can (s : State) (n : Nat) (f : Ring → Ring) : (s.rxUpd n f).can = s.can := rfl
@[simp] theorem State.rxUpd_lp (s : State) (n : Nat) (f : Ring → Ring) : (s.rxUpd n f).lp = s.lp := rfl
@[simp] theorem State.rxUpd_pool (s : State) (n : Nat) (f : Ring → Ring) : (s.rxUpd n f).pool = s.pool := rfl
@[simp] theorem State.rxUpd_bank (s : State) (n : Nat) (f : Ring → Ring) : (s.rxUpd n f).bank = s.bank := rfl
@[simp] theorem State.rxUpd_mem (s : State) (n : Nat) (f : Ring → Ring) : (s.rxUpd n f).mem = s.mem := rfl
@[simp] theorem State.rxUpd_tok (s : State) (n : Nat) (f : Ring → Ring) : (s.rxUpd n f).tok = s.tok := rfl
@[simp] theorem State.rxUpd_clk (s : State) (n : Nat) (f : Ring → Ring) : (s.rxUpd n f).clk = s.clk := rfl
@[simp] theorem State.rxUpd_pwr (s : State) (n : Nat) (f : Ring → Ring) : (s.rxUpd n f).pwr = s.pwr := rfl
@[simp] theorem State.rxUpd_boot (s : State) (n : Nat) (f : Ring → Ring) : (s.rxUpd n f).boot = s.boot := rfl
@[simp] theorem State.rxUpd_tph (s : State) (n : Nat) (f : Ring → Ring) : (s.rxUpd n f).tph = s.tph := rfl
@[simp] theorem State.rxUpd_freeCtr (s : State) (n : Nat) (f : Ring → Ring) : (s.rxUpd n f).freeCtr = s.freeCtr := rfl
@[simp] theorem State.rxUpd_out (s : State) (n : Nat) (f : Ring → Ring) : (s.rxUpd n f).out = s.out := rfl
@[simp] theorem State.rxUpd_pending (s : State) (n : Nat) (f : Ring → Ring) : (s.rxUpd n f).pending = s.pending := rfl

/-! ### State.allTx -/

@[simp] theorem State.allTx_variant (s : State) (f : Ring → Ring) : (s.allTx f).variant = s.variant := rfl
@[simp] theorem State.allTx_regs (s : State) (f : Ring → Ring) : (s.allTx f).regs = s.regs := rfl
@[simp] theorem State.allTx_lock (s : State) (f : Ring → Ring) : (s.allTx f).lock = s.lock := rfl
@[simp] theorem State.allTx_cyc (s : State) (f : Ring → Ring) : (s.allTx f).cyc = s.cyc := rfl
@[simp] theorem State.allTx_pcie (s : State) (f : Ring → Ring) : (s.allTx f).pcie = s.pcie := rfl
@[simp] theorem State.allTx_cfl (s : State) (f : Ring → Ring) : (s.allTx f).cfl = s.cfl := rfl
@[simp] theorem State.allTx_mac (s : State) (f : Ring → Ring) : (s.allTx f).mac = s.mac := rfl
@[simp] theorem State.allTx_tb (s : State) (f : Ring → Ring) : (s.allTx f).tb = s.tb := rfl
@[simp] theorem State.allTx_cap (s : State) (f : Ring → Ring) : (s.allTx f).cap = s.cap := rfl
@[simp] theorem State.allTx_pls (s : State) (f : Ring → Ring) : (s.allTx f).pls = s.pls := rfl
@[simp] theorem State.allTx_gys (s : State) (f : Ring → Ring) : (s.allTx f).gys = s.gys := rfl
@[simp] theorem State.allTx_pair (s : State) (f : Ring → Ring) : (s.allTx f).pair = s.pair := rfl
@[simp] theorem State.allTx_fq (s : State) (f : Ring → Ring) : (s.allTx f).fq = s.fq := rfl
@[simp] theorem State.allTx_clu (s : State) (f : Ring → Ring) : (s.allTx f).clu = s.clu := rfl
@[simp] theorem State.allTx_core (s : State) (f : Ring → Ring) : (s.allTx f).core = s.core := rfl
@[simp] theorem State.allTx_mig (s : State) (f : Ring → Ring) : (s.allTx f).mig = s.mig := rfl
@[simp] theorem State.allTx_mbx (s : State) (f : Ring → Ring) : (s.allTx f).mbx = s.mbx := rfl
@[simp] theorem State.allTx_lck (s : State) (f : Ring → Ring) : (s.allTx f).lck = s.lck := rfl
@[simp] theorem State.allTx_ril (s : State) (f : Ring → Ring) : (s.allTx f).ril = s.ril := rfl
@[simp] theorem State.allTx_rilSyncLo (s : State) (f : Ring → Ring) : (s.allTx f).rilSyncLo = s.rilSyncLo := rfl
@[simp] theorem State.allTx_can (s : State) (f : Ring → Ring) : (s.allTx f).can = s.can := rfl
@[simp] theorem State.allTx_lp (s : State) (f : Ring → Ring) : (s.allTx f).lp = s.lp := rfl
@[simp] theorem State.allTx_pool (s : State) (f : Ring → Ring) : (s.allTx f).pool = s.pool := rfl
@[simp] theorem State.allTx_bank (s : State) (f : Ring → Ring) : (s.allTx f).bank = s.bank := rfl
@[simp] theorem State.allTx_mem (s : State) (f : Ring → Ring) : (s.allTx f).mem = s.mem := rfl
@[simp] theorem State.allTx_tok (s : State) (f : Ring → Ring) : (s.allTx f).tok = s.tok := rfl
@[simp] theorem State.allTx_clk (s : State) (f : Ring → Ring) : (s.allTx f).clk = s.clk := rfl
@[simp] theorem State.allTx_pwr (s : State) (f : Ring → Ring) : (s.allTx f).pwr = s.pwr := rfl
@[simp] theorem State.allTx_boot (s : State) (f : Ring → Ring) : (s.allTx f).boot = s.boot := rfl
@[simp] theorem State.allTx_tph (s : State) (f : Ring → Ring) : (s.allTx f).tph = s.tph := rfl
@[simp] theorem State.allTx_freeCtr (s : State) (f : Ring → Ring) : (s.allTx f).freeCtr = s.freeCtr := rfl
@[simp] theorem State.allTx_out (s : State) (f : Ring → Ring) : (s.allTx f).out = s.out := rfl
@[simp] theorem State.allTx_pending (s : State) (f : Ring → Ring) : (s.allTx f).pending = s.pending := rfl

/-! ### State.cluUpd -/

@[simp] theorem State.cluUpd_variant (s : State) (k : Nat) (f : Clu → Clu) : (s.cluUpd k f).variant = s.variant := rfl
@[simp] theorem State.cluUpd_regs (s : State) (k : Nat) (f : Clu → Clu) : (s.cluUpd k f).regs = s.regs := rfl
@[simp] theorem State.cluUpd_lock (s : State) (k : Nat) (f : Clu → Clu) : (s.cluUpd k f).lock = s.lock := rfl
@[simp] theorem State.cluUpd_cyc (s : State) (k : Nat) (f : Clu → Clu) : (s.cluUpd k f).cyc = s.cyc := rfl
@[simp] theorem State.cluUpd_pcie (s : State) (k : Nat) (f : Clu → Clu) : (s.cluUpd k f).pcie = s.pcie := rfl
@[simp] theorem State.cluUpd_hst (s : State) (k : Nat) (f : Clu → Clu) : (s.cluUpd k f).hst = s.hst := rfl
@[simp] theorem State.cluUpd_cfl (s : State) (k : Nat) (f : Clu → Clu) : (s.cluUpd k f).cfl = s.cfl := rfl
@[simp] theorem State.cluUpd_mac (s : State) (k : Nat) (f : Clu → Clu) : (s.cluUpd k f).mac = s.mac := rfl
@[simp] theorem State.cluUpd_tb (s : State) (k : Nat) (f : Clu → Clu) : (s.cluUpd k f).tb = s.tb := rfl
@[simp] theorem State.cluUpd_cap (s : State) (k : Nat) (f : Clu → Clu) : (s.cluUpd k f).cap = s.cap := rfl
@[simp] theorem State.cluUpd_pls (s : State) (k : Nat) (f : Clu → Clu) : (s.cluUpd k f).pls = s.pls := rfl
@[simp] theorem State.cluUpd_gys (s : State) (k : Nat) (f : Clu → Clu) : (s.cluUpd k f).gys = s.gys := rfl
@[simp] theorem State.cluUpd_pair (s : State) (k : Nat) (f : Clu → Clu) : (s.cluUpd k f).pair = s.pair := rfl
@[simp] theorem State.cluUpd_fq (s : State) (k : Nat) (f : Clu → Clu) : (s.cluUpd k f).fq = s.fq := rfl
@[simp] theorem State.cluUpd_core (s : State) (k : Nat) (f : Clu → Clu) : (s.cluUpd k f).core = s.core := rfl
@[simp] theorem State.cluUpd_mig (s : State) (k : Nat) (f : Clu → Clu) : (s.cluUpd k f).mig = s.mig := rfl
@[simp] theorem State.cluUpd_mbx (s : State) (k : Nat) (f : Clu → Clu) : (s.cluUpd k f).mbx = s.mbx := rfl
@[simp] theorem State.cluUpd_lck (s : State) (k : Nat) (f : Clu → Clu) : (s.cluUpd k f).lck = s.lck := rfl
@[simp] theorem State.cluUpd_ril (s : State) (k : Nat) (f : Clu → Clu) : (s.cluUpd k f).ril = s.ril := rfl
@[simp] theorem State.cluUpd_rilSyncLo (s : State) (k : Nat) (f : Clu → Clu) : (s.cluUpd k f).rilSyncLo = s.rilSyncLo := rfl
@[simp] theorem State.cluUpd_can (s : State) (k : Nat) (f : Clu → Clu) : (s.cluUpd k f).can = s.can := rfl
@[simp] theorem State.cluUpd_lp (s : State) (k : Nat) (f : Clu → Clu) : (s.cluUpd k f).lp = s.lp := rfl
@[simp] theorem State.cluUpd_pool (s : State) (k : Nat) (f : Clu → Clu) : (s.cluUpd k f).pool = s.pool := rfl
@[simp] theorem State.cluUpd_bank (s : State) (k : Nat) (f : Clu → Clu) : (s.cluUpd k f).bank = s.bank := rfl
@[simp] theorem State.cluUpd_mem (s : State) (k : Nat) (f : Clu → Clu) : (s.cluUpd k f).mem = s.mem := rfl
@[simp] theorem State.cluUpd_tok (s : State) (k : Nat) (f : Clu → Clu) : (s.cluUpd k f).tok = s.tok := rfl
@[simp] theorem State.cluUpd_clk (s : State) (k : Nat) (f : Clu → Clu) : (s.cluUpd k f).clk = s.clk := rfl
@[simp] theorem State.cluUpd_pwr (s : State) (k : Nat) (f : Clu → Clu) : (s.cluUpd k f).pwr = s.pwr := rfl
@[simp] theorem State.cluUpd_boot (s : State) (k : Nat) (f : Clu → Clu) : (s.cluUpd k f).boot = s.boot := rfl
@[simp] theorem State.cluUpd_tph (s : State) (k : Nat) (f : Clu → Clu) : (s.cluUpd k f).tph = s.tph := rfl
@[simp] theorem State.cluUpd_freeCtr (s : State) (k : Nat) (f : Clu → Clu) : (s.cluUpd k f).freeCtr = s.freeCtr := rfl
@[simp] theorem State.cluUpd_out (s : State) (k : Nat) (f : Clu → Clu) : (s.cluUpd k f).out = s.out := rfl
@[simp] theorem State.cluUpd_pending (s : State) (k : Nat) (f : Clu → Clu) : (s.cluUpd k f).pending = s.pending := rfl

/-! ### State.ctxUpd -/

@[simp] theorem State.ctxUpd_variant (s : State) (k : Nat) (f : Ctx → Ctx) : (s.ctxUpd k f).variant = s.variant := rfl
@[simp] theorem State.ctxUpd_regs (s : State) (k : Nat) (f : Ctx → Ctx) : (s.ctxUpd k f).regs = s.regs := rfl
@[simp] theorem State.ctxUpd_lock (s : State) (k : Nat) (f : Ctx → Ctx) : (s.ctxUpd k f).lock = s.lock := rfl
@[simp] theorem State.ctxUpd_cyc (s : State) (k : Nat) (f : Ctx → Ctx) : (s.ctxUpd k f).cyc = s.cyc := rfl
@[simp] theorem State.ctxUpd_pcie (s : State) (k : Nat) (f : Ctx → Ctx) : (s.ctxUpd k f).pcie = s.pcie := rfl
@[simp] theorem State.ctxUpd_hst (s : State) (k : Nat) (f : Ctx → Ctx) : (s.ctxUpd k f).hst = s.hst := rfl
@[simp] theorem State.ctxUpd_cfl (s : State) (k : Nat) (f : Ctx → Ctx) : (s.ctxUpd k f).cfl = s.cfl := rfl
@[simp] theorem State.ctxUpd_mac (s : State) (k : Nat) (f : Ctx → Ctx) : (s.ctxUpd k f).mac = s.mac := rfl
@[simp] theorem State.ctxUpd_tb (s : State) (k : Nat) (f : Ctx → Ctx) : (s.ctxUpd k f).tb = s.tb := rfl
@[simp] theorem State.ctxUpd_cap (s : State) (k : Nat) (f : Ctx → Ctx) : (s.ctxUpd k f).cap = s.cap := rfl
@[simp] theorem State.ctxUpd_pls (s : State) (k : Nat) (f : Ctx → Ctx) : (s.ctxUpd k f).pls = s.pls := rfl
@[simp] theorem State.ctxUpd_gys (s : State) (k : Nat) (f : Ctx → Ctx) : (s.ctxUpd k f).gys = s.gys := rfl
@[simp] theorem State.ctxUpd_pair (s : State) (k : Nat) (f : Ctx → Ctx) : (s.ctxUpd k f).pair = s.pair := rfl
@[simp] theorem State.ctxUpd_fq (s : State) (k : Nat) (f : Ctx → Ctx) : (s.ctxUpd k f).fq = s.fq := rfl
@[simp] theorem State.ctxUpd_core (s : State) (k : Nat) (f : Ctx → Ctx) : (s.ctxUpd k f).core = s.core := rfl
@[simp] theorem State.ctxUpd_mig (s : State) (k : Nat) (f : Ctx → Ctx) : (s.ctxUpd k f).mig = s.mig := rfl
@[simp] theorem State.ctxUpd_mbx (s : State) (k : Nat) (f : Ctx → Ctx) : (s.ctxUpd k f).mbx = s.mbx := rfl
@[simp] theorem State.ctxUpd_lck (s : State) (k : Nat) (f : Ctx → Ctx) : (s.ctxUpd k f).lck = s.lck := rfl
@[simp] theorem State.ctxUpd_ril (s : State) (k : Nat) (f : Ctx → Ctx) : (s.ctxUpd k f).ril = s.ril := rfl
@[simp] theorem State.ctxUpd_rilSyncLo (s : State) (k : Nat) (f : Ctx → Ctx) : (s.ctxUpd k f).rilSyncLo = s.rilSyncLo := rfl
@[simp] theorem State.ctxUpd_can (s : State) (k : Nat) (f : Ctx → Ctx) : (s.ctxUpd k f).can = s.can := rfl
@[simp] theorem State.ctxUpd_lp (s : State) (k : Nat) (f : Ctx → Ctx) : (s.ctxUpd k f).lp = s.lp := rfl
@[simp] theorem State.ctxUpd_pool (s : State) (k : Nat) (f : Ctx → Ctx) : (s.ctxUpd k f).pool = s.pool := rfl
@[simp] theorem State.ctxUpd_bank (s : State) (k : Nat) (f : Ctx → Ctx) : (s.ctxUpd k f).bank = s.bank := rfl
@[simp] theorem State.ctxUpd_mem (s : State) (k : Nat) (f : Ctx → Ctx) : (s.ctxUpd k f).mem = s.mem := rfl
@[simp] theorem State.ctxUpd_tok (s : State) (k : Nat) (f : Ctx → Ctx) : (s.ctxUpd k f).tok = s.tok := rfl
@[simp] theorem State.ctxUpd_clk (s : State) (k : Nat) (f : Ctx → Ctx) : (s.ctxUpd k f).clk = s.clk := rfl
@[simp] theorem State.ctxUpd_pwr (s : State) (k : Nat) (f : Ctx → Ctx) : (s.ctxUpd k f).pwr = s.pwr := rfl
@[simp] theorem State.ctxUpd_boot (s : State) (k : Nat) (f : Ctx → Ctx) : (s.ctxUpd k f).boot = s.boot := rfl
@[simp] theorem State.ctxUpd_tph (s : State) (k : Nat) (f : Ctx → Ctx) : (s.ctxUpd k f).tph = s.tph := rfl
@[simp] theorem State.ctxUpd_freeCtr (s : State) (k : Nat) (f : Ctx → Ctx) : (s.ctxUpd k f).freeCtr = s.freeCtr := rfl
@[simp] theorem State.ctxUpd_out (s : State) (k : Nat) (f : Ctx → Ctx) : (s.ctxUpd k f).out = s.out := rfl
@[simp] theorem State.ctxUpd_pending (s : State) (k : Nat) (f : Ctx → Ctx) : (s.ctxUpd k f).pending = s.pending := rfl

/-! ### State.coreUpd -/

@[simp] theorem State.coreUpd_variant (s : State) (n : Nat) (f : PCore → PCore) : (s.coreUpd n f).variant = s.variant := rfl
@[simp] theorem State.coreUpd_regs (s : State) (n : Nat) (f : PCore → PCore) : (s.coreUpd n f).regs = s.regs := rfl
@[simp] theorem State.coreUpd_lock (s : State) (n : Nat) (f : PCore → PCore) : (s.coreUpd n f).lock = s.lock := rfl
@[simp] theorem State.coreUpd_cyc (s : State) (n : Nat) (f : PCore → PCore) : (s.coreUpd n f).cyc = s.cyc := rfl
@[simp] theorem State.coreUpd_pcie (s : State) (n : Nat) (f : PCore → PCore) : (s.coreUpd n f).pcie = s.pcie := rfl
@[simp] theorem State.coreUpd_hst (s : State) (n : Nat) (f : PCore → PCore) : (s.coreUpd n f).hst = s.hst := rfl
@[simp] theorem State.coreUpd_cfl (s : State) (n : Nat) (f : PCore → PCore) : (s.coreUpd n f).cfl = s.cfl := rfl
@[simp] theorem State.coreUpd_mac (s : State) (n : Nat) (f : PCore → PCore) : (s.coreUpd n f).mac = s.mac := rfl
@[simp] theorem State.coreUpd_tb (s : State) (n : Nat) (f : PCore → PCore) : (s.coreUpd n f).tb = s.tb := rfl
@[simp] theorem State.coreUpd_cap (s : State) (n : Nat) (f : PCore → PCore) : (s.coreUpd n f).cap = s.cap := rfl
@[simp] theorem State.coreUpd_pls (s : State) (n : Nat) (f : PCore → PCore) : (s.coreUpd n f).pls = s.pls := rfl
@[simp] theorem State.coreUpd_gys (s : State) (n : Nat) (f : PCore → PCore) : (s.coreUpd n f).gys = s.gys := rfl
@[simp] theorem State.coreUpd_pair (s : State) (n : Nat) (f : PCore → PCore) : (s.coreUpd n f).pair = s.pair := rfl
@[simp] theorem State.coreUpd_fq (s : State) (n : Nat) (f : PCore → PCore) : (s.coreUpd n f).fq = s.fq := rfl
@[simp] theorem State.coreUpd_clu (s : State) (n : Nat) (f : PCore → PCore) : (s.coreUpd n f).clu = s.clu := rfl
@[simp] theorem State.coreUpd_mig (s : State) (n : Nat) (f : PCore → PCore) : (s.coreUpd n f).mig = s.mig := rfl
@[simp] theorem State.coreUpd_mbx (s : State) (n : Nat) (f : PCore → PCore) : (s.coreUpd n f).mbx = s.mbx := rfl
@[simp] theorem State.coreUpd_lck (s : State) (n : Nat) (f : PCore → PCore) : (s.coreUpd n f).lck = s.lck := rfl
@[simp] theorem State.coreUpd_ril (s : State) (n : Nat) (f : PCore → PCore) : (s.coreUpd n f).ril = s.ril := rfl
@[simp] theorem State.coreUpd_rilSyncLo (s : State) (n : Nat) (f : PCore → PCore) : (s.coreUpd n f).rilSyncLo = s.rilSyncLo := rfl
@[simp] theorem State.coreUpd_can (s : State) (n : Nat) (f : PCore → PCore) : (s.coreUpd n f).can = s.can := rfl
@[simp] theorem State.coreUpd_lp (s : State) (n : Nat) (f : PCore → PCore) : (s.coreUpd n f).lp = s.lp := rfl
@[simp] theorem State.coreUpd_pool (s : State) (n : Nat) (f : PCore → PCore) : (s.coreUpd n f).pool = s.pool := rfl
@[simp] theorem State.coreUpd_bank (s : State) (n : Nat) (f : PCore → PCore) : (s.coreUpd n f).bank = s.bank := rfl
@[simp] theorem State.coreUpd_mem (s : State) (n : Nat) (f : PCore → PCore) : (s.coreUpd n f).mem = s.mem := rfl
@[simp] theorem State.coreUpd_tok (s : State) (n : Nat) (f : PCore → PCore) : (s.coreUpd n f).tok = s.tok := rfl
@[simp] theorem State.coreUpd_clk (s : State) (n : Nat) (f : PCore → PCore) : (s.coreUpd n f).clk = s.clk := rfl
@[simp] theorem State.coreUpd_pwr (s : State) (n : Nat) (f : PCore → PCore) : (s.coreUpd n f).pwr = s.pwr := rfl
@[simp] theorem State.coreUpd_boot (s : State) (n : Nat) (f : PCore → PCore) : (s.coreUpd n f).boot = s.boot := rfl
@[simp] theorem State.coreUpd_tph (s : State) (n : Nat) (f : PCore → PCore) : (s.coreUpd n f).tph = s.tph := rfl
@[simp] theorem State.coreUpd_freeCtr (s : State) (n : Nat) (f : PCore → PCore) : (s.coreUpd n f).freeCtr = s.freeCtr := rfl
@[simp] theorem State.coreUpd_out (s : State) (n : Nat) (f : PCore → PCore) : (s.coreUpd n f).out = s.out := rfl
@[simp] theorem State.coreUpd_pending (s : State) (n : Nat) (f : PCore → PCore) : (s.coreUpd n f).pending = s.pending := rfl

/-! ### State.mbxUpd -/

@[simp] theorem State.mbxUpd_variant (s : State) (m : Nat) (f : Mbx → Mbx) : (s.mbxUpd m f).variant = s.variant := rfl
@[simp] theorem State.mbxUpd_regs (s : State) (m : Nat) (f : Mbx → Mbx) : (s.mbxUpd m f).regs = s.regs := rfl
@[simp] theorem State.mbxUpd_lock (s : State) (m : Nat) (f : Mbx → Mbx) : (s.mbxUpd m f).lock = s.lock := rfl
@[simp] theorem State.mbxUpd_cyc (s : State) (m : Nat) (f : Mbx → Mbx) : (s.mbxUpd m f).cyc = s.cyc := rfl
@[simp] theorem State.mbxUpd_pcie (s : State) (m : Nat) (f : Mbx → Mbx) : (s.mbxUpd m f).pcie = s.pcie := rfl
@[simp] theorem State.mbxUpd_hst (s : State) (m : Nat) (f : Mbx → Mbx) : (s.mbxUpd m f).hst = s.hst := rfl
@[simp] theorem State.mbxUpd_cfl (s : State) (m : Nat) (f : Mbx → Mbx) : (s.mbxUpd m f).cfl = s.cfl := rfl
@[simp] theorem State.mbxUpd_mac (s : State) (m : Nat) (f : Mbx → Mbx) : (s.mbxUpd m f).mac = s.mac := rfl
@[simp] theorem State.mbxUpd_tb (s : State) (m : Nat) (f : Mbx → Mbx) : (s.mbxUpd m f).tb = s.tb := rfl
@[simp] theorem State.mbxUpd_cap (s : State) (m : Nat) (f : Mbx → Mbx) : (s.mbxUpd m f).cap = s.cap := rfl
@[simp] theorem State.mbxUpd_pls (s : State) (m : Nat) (f : Mbx → Mbx) : (s.mbxUpd m f).pls = s.pls := rfl
@[simp] theorem State.mbxUpd_gys (s : State) (m : Nat) (f : Mbx → Mbx) : (s.mbxUpd m f).gys = s.gys := rfl
@[simp] theorem State.mbxUpd_pair (s : State) (m : Nat) (f : Mbx → Mbx) : (s.mbxUpd m f).pair = s.pair := rfl
@[simp] theorem State.mbxUpd_fq (s : State) (m : Nat) (f : Mbx → Mbx) : (s.mbxUpd m f).fq = s.fq := rfl
@[simp] theorem State.mbxUpd_clu (s : State) (m : Nat) (f : Mbx → Mbx) : (s.mbxUpd m f).clu = s.clu := rfl
@[simp] theorem State.mbxUpd_core (s : State) (m : Nat) (f : Mbx → Mbx) : (s.mbxUpd m f).core = s.core := rfl
@[simp] theorem State.mbxUpd_mig (s : State) (m : Nat) (f : Mbx → Mbx) : (s.mbxUpd m f).mig = s.mig := rfl
@[simp] theorem State.mbxUpd_lck (s : State) (m : Nat) (f : Mbx → Mbx) : (s.mbxUpd m f).lck = s.lck := rfl
@[simp] theorem State.mbxUpd_ril (s : State) (m : Nat) (f : Mbx → Mbx) : (s.mbxUpd m f).ril = s.ril := rfl
@[simp] theorem State.mbxUpd_rilSyncLo (s : State) (m : Nat) (f : Mbx → Mbx) : (s.mbxUpd m f).rilSyncLo = s.rilSyncLo := rfl
@[simp] theorem State.mbxUpd_can (s : State) (m : Nat) (f : Mbx → Mbx) : (s.mbxUpd m f).can = s.can := rfl
@[simp] theorem State.mbxUpd_lp (s : State) (m : Nat) (f : Mbx → Mbx) : (s.mbxUpd m f).lp = s.lp := rfl
@[simp] theorem State.mbxUpd_pool (s : State) (m : Nat) (f : Mbx → Mbx) : (s.mbxUpd m f).pool = s.pool := rfl
@[simp] theorem State.mbxUpd_bank (s : State) (m : Nat) (f : Mbx → Mbx) : (s.mbxUpd m f).bank = s.bank := rfl
@[simp] theorem State.mbxUpd_mem (s : State) (m : Nat) (f : Mbx → Mbx) : (s.mbxUpd m f).mem = s.mem := rfl
@[simp] theorem State.mbxUpd_tok (s : State) (m : Nat) (f : Mbx → Mbx) : (s.mbxUpd m f).tok = s.tok := rfl
@[simp] theorem State.mbxUpd_clk (s : State) (m : Nat) (f : Mbx → Mbx) : (s.mbxUpd m f).clk = s.clk := rfl
@[simp] theorem State.mbxUpd_pwr (s : State) (m : Nat) (f : Mbx → Mbx) : (s.mbxUpd m f).pwr = s.pwr := rfl
@[simp] theorem State.mbxUpd_boot (s : State) (m : Nat) (f : Mbx → Mbx) : (s.mbxUpd m f).boot = s.boot := rfl
@[simp] theorem State.mbxUpd_tph (s : State) (m : Nat) (f : Mbx → Mbx) : (s.mbxUpd m f).tph = s.tph := rfl
@[simp] theorem State.mbxUpd_freeCtr (s : State) (m : Nat) (f : Mbx → Mbx) : (s.mbxUpd m f).freeCtr = s.freeCtr := rfl
@[simp] theorem State.mbxUpd_out (s : State) (m : Nat) (f : Mbx → Mbx) : (s.mbxUpd m f).out = s.out := rfl
@[simp] theorem State.mbxUpd_pending (s : State) (m : Nat) (f : Mbx → Mbx) : (s.mbxUpd m f).pending = s.pending := rfl

/-! ### State.rilUpd -/

@[simp] theorem State.rilUpd_variant (s : State) (e : Nat) (f : Ril → Ril) : (s.rilUpd e f).variant = s.variant := rfl
@[simp] theorem State.rilUpd_regs (s : State) (e : Nat) (f : Ril → Ril) : (s.rilUpd e f).regs = s.regs := rfl
@[simp] theorem State.rilUpd_lock (s : State) (e : Nat) (f : Ril → Ril) : (s.rilUpd e f).lock = s.lock := rfl
@[simp] theorem State.rilUpd_cyc (s : State) (e : Nat) (f : Ril → Ril) : (s.rilUpd e f).cyc = s.cyc := rfl
@[simp] theorem State.rilUpd_pcie (s : State) (e : Nat) (f : Ril → Ril) : (s.rilUpd e f).pcie = s.pcie := rfl
@[simp] theorem State.rilUpd_hst (s : State) (e : Nat) (f : Ril → Ril) : (s.rilUpd e f).hst = s.hst := rfl
@[simp] theorem State.rilUpd_cfl (s : State) (e : Nat) (f : Ril → Ril) : (s.rilUpd e f).cfl = s.cfl := rfl
@[simp] theorem State.rilUpd_mac (s : State) (e : Nat) (f : Ril → Ril) : (s.rilUpd e f).mac = s.mac := rfl
@[simp] theorem State.rilUpd_tb (s : State) (e : Nat) (f : Ril → Ril) : (s.rilUpd e f).tb = s.tb := rfl
@[simp] theorem State.rilUpd_cap (s : State) (e : Nat) (f : Ril → Ril) : (s.rilUpd e f).cap = s.cap := rfl
@[simp] theorem State.rilUpd_pls (s : State) (e : Nat) (f : Ril → Ril) : (s.rilUpd e f).pls = s.pls := rfl
@[simp] theorem State.rilUpd_gys (s : State) (e : Nat) (f : Ril → Ril) : (s.rilUpd e f).gys = s.gys := rfl
@[simp] theorem State.rilUpd_pair (s : State) (e : Nat) (f : Ril → Ril) : (s.rilUpd e f).pair = s.pair := rfl
@[simp] theorem State.rilUpd_fq (s : State) (e : Nat) (f : Ril → Ril) : (s.rilUpd e f).fq = s.fq := rfl
@[simp] theorem State.rilUpd_clu (s : State) (e : Nat) (f : Ril → Ril) : (s.rilUpd e f).clu = s.clu := rfl
@[simp] theorem State.rilUpd_core (s : State) (e : Nat) (f : Ril → Ril) : (s.rilUpd e f).core = s.core := rfl
@[simp] theorem State.rilUpd_mig (s : State) (e : Nat) (f : Ril → Ril) : (s.rilUpd e f).mig = s.mig := rfl
@[simp] theorem State.rilUpd_mbx (s : State) (e : Nat) (f : Ril → Ril) : (s.rilUpd e f).mbx = s.mbx := rfl
@[simp] theorem State.rilUpd_lck (s : State) (e : Nat) (f : Ril → Ril) : (s.rilUpd e f).lck = s.lck := rfl
@[simp] theorem State.rilUpd_rilSyncLo (s : State) (e : Nat) (f : Ril → Ril) : (s.rilUpd e f).rilSyncLo = s.rilSyncLo := rfl
@[simp] theorem State.rilUpd_can (s : State) (e : Nat) (f : Ril → Ril) : (s.rilUpd e f).can = s.can := rfl
@[simp] theorem State.rilUpd_lp (s : State) (e : Nat) (f : Ril → Ril) : (s.rilUpd e f).lp = s.lp := rfl
@[simp] theorem State.rilUpd_pool (s : State) (e : Nat) (f : Ril → Ril) : (s.rilUpd e f).pool = s.pool := rfl
@[simp] theorem State.rilUpd_bank (s : State) (e : Nat) (f : Ril → Ril) : (s.rilUpd e f).bank = s.bank := rfl
@[simp] theorem State.rilUpd_mem (s : State) (e : Nat) (f : Ril → Ril) : (s.rilUpd e f).mem = s.mem := rfl
@[simp] theorem State.rilUpd_tok (s : State) (e : Nat) (f : Ril → Ril) : (s.rilUpd e f).tok = s.tok := rfl
@[simp] theorem State.rilUpd_clk (s : State) (e : Nat) (f : Ril → Ril) : (s.rilUpd e f).clk = s.clk := rfl
@[simp] theorem State.rilUpd_pwr (s : State) (e : Nat) (f : Ril → Ril) : (s.rilUpd e f).pwr = s.pwr := rfl
@[simp] theorem State.rilUpd_boot (s : State) (e : Nat) (f : Ril → Ril) : (s.rilUpd e f).boot = s.boot := rfl
@[simp] theorem State.rilUpd_tph (s : State) (e : Nat) (f : Ril → Ril) : (s.rilUpd e f).tph = s.tph := rfl
@[simp] theorem State.rilUpd_freeCtr (s : State) (e : Nat) (f : Ril → Ril) : (s.rilUpd e f).freeCtr = s.freeCtr := rfl
@[simp] theorem State.rilUpd_out (s : State) (e : Nat) (f : Ril → Ril) : (s.rilUpd e f).out = s.out := rfl
@[simp] theorem State.rilUpd_pending (s : State) (e : Nat) (f : Ril → Ril) : (s.rilUpd e f).pending = s.pending := rfl

/-! ### State.canUpd -/

@[simp] theorem State.canUpd_variant (s : State) (c : Nat) (f : Can → Can) : (s.canUpd c f).variant = s.variant := rfl
@[simp] theorem State.canUpd_regs (s : State) (c : Nat) (f : Can → Can) : (s.canUpd c f).regs = s.regs := rfl
@[simp] theorem State.canUpd_lock (s : State) (c : Nat) (f : Can → Can) : (s.canUpd c f).lock = s.lock := rfl
@[simp] theorem State.canUpd_cyc (s : State) (c : Nat) (f : Can → Can) : (s.canUpd c f).cyc = s.cyc := rfl
@[simp] theorem State.canUpd_pcie (s : State) (c : Nat) (f : Can → Can) : (s.canUpd c f).pcie = s.pcie := rfl
@[simp] theorem State.canUpd_hst (s : State) (c : Nat) (f : Can → Can) : (s.canUpd c f).hst = s.hst := rfl
@[simp] theorem State.canUpd_cfl (s : State) (c : Nat) (f : Can → Can) : (s.canUpd c f).cfl = s.cfl := rfl
@[simp] theorem State.canUpd_mac (s : State) (c : Nat) (f : Can → Can) : (s.canUpd c f).mac = s.mac := rfl
@[simp] theorem State.canUpd_tb (s : State) (c : Nat) (f : Can → Can) : (s.canUpd c f).tb = s.tb := rfl
@[simp] theorem State.canUpd_cap (s : State) (c : Nat) (f : Can → Can) : (s.canUpd c f).cap = s.cap := rfl
@[simp] theorem State.canUpd_pls (s : State) (c : Nat) (f : Can → Can) : (s.canUpd c f).pls = s.pls := rfl
@[simp] theorem State.canUpd_gys (s : State) (c : Nat) (f : Can → Can) : (s.canUpd c f).gys = s.gys := rfl
@[simp] theorem State.canUpd_pair (s : State) (c : Nat) (f : Can → Can) : (s.canUpd c f).pair = s.pair := rfl
@[simp] theorem State.canUpd_fq (s : State) (c : Nat) (f : Can → Can) : (s.canUpd c f).fq = s.fq := rfl
@[simp] theorem State.canUpd_clu (s : State) (c : Nat) (f : Can → Can) : (s.canUpd c f).clu = s.clu := rfl
@[simp] theorem State.canUpd_core (s : State) (c : Nat) (f : Can → Can) : (s.canUpd c f).core = s.core := rfl
@[simp] theorem State.canUpd_mig (s : State) (c : Nat) (f : Can → Can) : (s.canUpd c f).mig = s.mig := rfl
@[simp] theorem State.canUpd_mbx (s : State) (c : Nat) (f : Can → Can) : (s.canUpd c f).mbx = s.mbx := rfl
@[simp] theorem State.canUpd_lck (s : State) (c : Nat) (f : Can → Can) : (s.canUpd c f).lck = s.lck := rfl
@[simp] theorem State.canUpd_ril (s : State) (c : Nat) (f : Can → Can) : (s.canUpd c f).ril = s.ril := rfl
@[simp] theorem State.canUpd_rilSyncLo (s : State) (c : Nat) (f : Can → Can) : (s.canUpd c f).rilSyncLo = s.rilSyncLo := rfl
@[simp] theorem State.canUpd_lp (s : State) (c : Nat) (f : Can → Can) : (s.canUpd c f).lp = s.lp := rfl
@[simp] theorem State.canUpd_pool (s : State) (c : Nat) (f : Can → Can) : (s.canUpd c f).pool = s.pool := rfl
@[simp] theorem State.canUpd_bank (s : State) (c : Nat) (f : Can → Can) : (s.canUpd c f).bank = s.bank := rfl
@[simp] theorem State.canUpd_mem (s : State) (c : Nat) (f : Can → Can) : (s.canUpd c f).mem = s.mem := rfl
@[simp] theorem State.canUpd_tok (s : State) (c : Nat) (f : Can → Can) : (s.canUpd c f).tok = s.tok := rfl
@[simp] theorem State.canUpd_clk (s : State) (c : Nat) (f : Can → Can) : (s.canUpd c f).clk = s.clk := rfl
@[simp] theorem State.canUpd_pwr (s : State) (c : Nat) (f : Can → Can) : (s.canUpd c f).pwr = s.pwr := rfl
@[simp] theorem State.canUpd_boot (s : State) (c : Nat) (f : Can → Can) : (s.canUpd c f).boot = s.boot := rfl
@[simp] theorem State.canUpd_tph (s : State) (c : Nat) (f : Can → Can) : (s.canUpd c f).tph = s.tph := rfl
@[simp] theorem State.canUpd_freeCtr (s : State) (c : Nat) (f : Can → Can) : (s.canUpd c f).freeCtr = s.freeCtr := rfl
@[simp] theorem State.canUpd_out (s : State) (c : Nat) (f : Can → Can) : (s.canUpd c f).out = s.out := rfl
@[simp] theorem State.canUpd_pending (s : State) (c : Nat) (f : Can → Can) : (s.canUpd c f).pending = s.pending := rfl

/-! ### State.fqUpd -/

@[simp] theorem State.fqUpd_variant (s : State) (k : Nat) (f : FqState → FqState) : (s.fqUpd k f).variant = s.variant := rfl
@[simp] theorem State.fqUpd_regs (s : State) (k : Nat) (f : FqState → FqState) : (s.fqUpd k f).regs = s.regs := rfl
@[simp] theorem State.fqUpd_lock (s : State) (k : Nat) (f : FqState → FqState) : (s.fqUpd k f).lock = s.lock := rfl
@[simp] theorem State.fqUpd_cyc (s : State) (k : Nat) (f : FqState → FqState) : (s.fqUpd k f).cyc = s.cyc := rfl
@[simp] theorem State.fqUpd_pcie (s : State) (k : Nat) (f : FqState → FqState) : (s.fqUpd k f).pcie = s.pcie := rfl
@[simp] theorem State.fqUpd_hst (s : State) (k : Nat) (f : FqState → FqState) : (s.fqUpd k f).hst = s.hst := rfl
@[simp] theorem State.fqUpd_cfl (s : State) (k : Nat) (f : FqState → FqState) : (s.fqUpd k f).cfl = s.cfl := rfl
@[simp] theorem State.fqUpd_mac (s : State) (k : Nat) (f : FqState → FqState) : (s.fqUpd k f).mac = s.mac := rfl
@[simp] theorem State.fqUpd_tb (s : State) (k : Nat) (f : FqState → FqState) : (s.fqUpd k f).tb = s.tb := rfl
@[simp] theorem State.fqUpd_cap (s : State) (k : Nat) (f : FqState → FqState) : (s.fqUpd k f).cap = s.cap := rfl
@[simp] theorem State.fqUpd_pls (s : State) (k : Nat) (f : FqState → FqState) : (s.fqUpd k f).pls = s.pls := rfl
@[simp] theorem State.fqUpd_gys (s : State) (k : Nat) (f : FqState → FqState) : (s.fqUpd k f).gys = s.gys := rfl
@[simp] theorem State.fqUpd_pair (s : State) (k : Nat) (f : FqState → FqState) : (s.fqUpd k f).pair = s.pair := rfl
@[simp] theorem State.fqUpd_clu (s : State) (k : Nat) (f : FqState → FqState) : (s.fqUpd k f).clu = s.clu := rfl
@[simp] theorem State.fqUpd_core (s : State) (k : Nat) (f : FqState → FqState) : (s.fqUpd k f).core = s.core := rfl
@[simp] theorem State.fqUpd_mig (s : State) (k : Nat) (f : FqState → FqState) : (s.fqUpd k f).mig = s.mig := rfl
@[simp] theorem State.fqUpd_mbx (s : State) (k : Nat) (f : FqState → FqState) : (s.fqUpd k f).mbx = s.mbx := rfl
@[simp] theorem State.fqUpd_lck (s : State) (k : Nat) (f : FqState → FqState) : (s.fqUpd k f).lck = s.lck := rfl
@[simp] theorem State.fqUpd_ril (s : State) (k : Nat) (f : FqState → FqState) : (s.fqUpd k f).ril = s.ril := rfl
@[simp] theorem State.fqUpd_rilSyncLo (s : State) (k : Nat) (f : FqState → FqState) : (s.fqUpd k f).rilSyncLo = s.rilSyncLo := rfl
@[simp] theorem State.fqUpd_can (s : State) (k : Nat) (f : FqState → FqState) : (s.fqUpd k f).can = s.can := rfl
@[simp] theorem State.fqUpd_lp (s : State) (k : Nat) (f : FqState → FqState) : (s.fqUpd k f).lp = s.lp := rfl
@[simp] theorem State.fqUpd_pool (s : State) (k : Nat) (f : FqState → FqState) : (s.fqUpd k f).pool = s.pool := rfl
@[simp] theorem State.fqUpd_bank (s : State) (k : Nat) (f : FqState → FqState) : (s.fqUpd k f).bank = s.bank := rfl
@[simp] theorem State.fqUpd_mem (s : State) (k : Nat) (f : FqState → FqState) : (s.fqUpd k f).mem = s.mem := rfl
@[simp] theorem State.fqUpd_tok (s : State) (k : Nat) (f : FqState → FqState) : (s.fqUpd k f).tok = s.tok := rfl
@[simp] theorem State.fqUpd_clk (s : State) (k : Nat) (f : FqState → FqState) : (s.fqUpd k f).clk = s.clk := rfl
@[simp] theorem State.fqUpd_pwr (s : State) (k : Nat) (f : FqState → FqState) : (s.fqUpd k f).pwr = s.pwr := rfl
@[simp] theorem State.fqUpd_boot (s : State) (k : Nat) (f : FqState → FqState) : (s.fqUpd k f).boot = s.boot := rfl
@[simp] theorem State.fqUpd_tph (s : State) (k : Nat) (f : FqState → FqState) : (s.fqUpd k f).tph = s.tph := rfl
@[simp] theorem State.fqUpd_freeCtr (s : State) (k : Nat) (f : FqState → FqState) : (s.fqUpd k f).freeCtr = s.freeCtr := rfl
@[simp] theorem State.fqUpd_out (s : State) (k : Nat) (f : FqState → FqState) : (s.fqUpd k f).out = s.out := rfl
@[simp] theorem State.fqUpd_pending (s : State) (k : Nat) (f : FqState → FqState) : (s.fqUpd k f).pending = s.pending := rfl

/-! ### State.gysUpd -/

@[simp] theorem State.gysUpd_variant (s : State) (f : Gys → Gys) : (s.gysUpd f).variant = s.variant := rfl
@[simp] theorem State.gysUpd_regs (s : State) (f : Gys → Gys) : (s.gysUpd f).regs = s.regs := rfl
@[simp] theorem State.gysUpd_lock (s : State) (f : Gys → Gys) : (s.gysUpd f).lock = s.lock := rfl
@[simp] theorem State.gysUpd_cyc (s : State) (f : Gys → Gys) : (s.gysUpd f).cyc = s.cyc := rfl
@[simp] theorem State.gysUpd_pcie (s : State) (f : Gys → Gys) : (s.gysUpd f).pcie = s.pcie := rfl
@[simp] theorem State.gysUpd_hst (s : State) (f : Gys → Gys) : (s.gysUpd f).hst = s.hst := rfl
@[simp] theorem State.gysUpd_cfl (s : State) (f : Gys → Gys) : (s.gysUpd f).cfl = s.cfl := rfl
@[simp] theorem State.gysUpd_mac (s : State) (f : Gys → Gys) : (s.gysUpd f).mac = s.mac := rfl
@[simp] theorem State.gysUpd_tb (s : State) (f : Gys → Gys) : (s.gysUpd f).tb = s.tb := rfl
@[simp] theorem State.gysUpd_cap (s : State) (f : Gys → Gys) : (s.gysUpd f).cap = s.cap := rfl
@[simp] theorem State.gysUpd_pls (s : State) (f : Gys → Gys) : (s.gysUpd f).pls = s.pls := rfl
@[simp] theorem State.gysUpd_pair (s : State) (f : Gys → Gys) : (s.gysUpd f).pair = s.pair := rfl
@[simp] theorem State.gysUpd_fq (s : State) (f : Gys → Gys) : (s.gysUpd f).fq = s.fq := rfl
@[simp] theorem State.gysUpd_clu (s : State) (f : Gys → Gys) : (s.gysUpd f).clu = s.clu := rfl
@[simp] theorem State.gysUpd_core (s : State) (f : Gys → Gys) : (s.gysUpd f).core = s.core := rfl
@[simp] theorem State.gysUpd_mig (s : State) (f : Gys → Gys) : (s.gysUpd f).mig = s.mig := rfl
@[simp] theorem State.gysUpd_mbx (s : State) (f : Gys → Gys) : (s.gysUpd f).mbx = s.mbx := rfl
@[simp] theorem State.gysUpd_lck (s : State) (f : Gys → Gys) : (s.gysUpd f).lck = s.lck := rfl
@[simp] theorem State.gysUpd_ril (s : State) (f : Gys → Gys) : (s.gysUpd f).ril = s.ril := rfl
@[simp] theorem State.gysUpd_rilSyncLo (s : State) (f : Gys → Gys) : (s.gysUpd f).rilSyncLo = s.rilSyncLo := rfl
@[simp] theorem State.gysUpd_can (s : State) (f : Gys → Gys) : (s.gysUpd f).can = s.can := rfl
@[simp] theorem State.gysUpd_lp (s : State) (f : Gys → Gys) : (s.gysUpd f).lp = s.lp := rfl
@[simp] theorem State.gysUpd_pool (s : State) (f : Gys → Gys) : (s.gysUpd f).pool = s.pool := rfl
@[simp] theorem State.gysUpd_bank (s : State) (f : Gys → Gys) : (s.gysUpd f).bank = s.bank := rfl
@[simp] theorem State.gysUpd_mem (s : State) (f : Gys → Gys) : (s.gysUpd f).mem = s.mem := rfl
@[simp] theorem State.gysUpd_tok (s : State) (f : Gys → Gys) : (s.gysUpd f).tok = s.tok := rfl
@[simp] theorem State.gysUpd_clk (s : State) (f : Gys → Gys) : (s.gysUpd f).clk = s.clk := rfl
@[simp] theorem State.gysUpd_pwr (s : State) (f : Gys → Gys) : (s.gysUpd f).pwr = s.pwr := rfl
@[simp] theorem State.gysUpd_boot (s : State) (f : Gys → Gys) : (s.gysUpd f).boot = s.boot := rfl
@[simp] theorem State.gysUpd_tph (s : State) (f : Gys → Gys) : (s.gysUpd f).tph = s.tph := rfl
@[simp] theorem State.gysUpd_freeCtr (s : State) (f : Gys → Gys) : (s.gysUpd f).freeCtr = s.freeCtr := rfl
@[simp] theorem State.gysUpd_out (s : State) (f : Gys → Gys) : (s.gysUpd f).out = s.out := rfl
@[simp] theorem State.gysUpd_pending (s : State) (f : Gys → Gys) : (s.gysUpd f).pending = s.pending := rfl

/-! ### State.gysChUpd -/

@[simp] theorem State.gysChUpd_variant (s : State) (c : Nat) (f : GysCh → GysCh) : (s.gysChUpd c f).variant = s.variant := rfl
@[simp] theorem State.gysChUpd_regs (s : State) (c : Nat) (f : GysCh → GysCh) : (s.gysChUpd c f).regs = s.regs := rfl
@[simp] theorem State.gysChUpd_lock (s : State) (c : Nat) (f : GysCh → GysCh) : (s.gysChUpd c f).lock = s.lock := rfl
@[simp] theorem State.gysChUpd_cyc (s : State) (c : Nat) (f : GysCh → GysCh) : (s.gysChUpd c f).cyc = s.cyc := rfl
@[simp] theorem State.gysChUpd_pcie (s : State) (c : Nat) (f : GysCh → GysCh) : (s.gysChUpd c f).pcie = s.pcie := rfl
@[simp] theorem State.gysChUpd_hst (s : State) (c : Nat) (f : GysCh → GysCh) : (s.gysChUpd c f).hst = s.hst := rfl
@[simp] theorem State.gysChUpd_cfl (s : State) (c : Nat) (f : GysCh → GysCh) : (s.gysChUpd c f).cfl = s.cfl := rfl
@[simp] theorem State.gysChUpd_mac (s : State) (c : Nat) (f : GysCh → GysCh) : (s.gysChUpd c f).mac = s.mac := rfl
@[simp] theorem State.gysChUpd_tb (s : State) (c : Nat) (f : GysCh → GysCh) : (s.gysChUpd c f).tb = s.tb := rfl
@[simp] theorem State.gysChUpd_cap (s : State) (c : Nat) (f : GysCh → GysCh) : (s.gysChUpd c f).cap = s.cap := rfl
@[simp] theorem State.gysChUpd_pls (s : State) (c : Nat) (f : GysCh → GysCh) : (s.gysChUpd c f).pls = s.pls := rfl
@[simp] theorem State.gysChUpd_pair (s : State) (c : Nat) (f : GysCh → GysCh) : (s.gysChUpd c f).pair = s.pair := rfl
@[simp] theorem State.gysChUpd_fq (s : State) (c : Nat) (f : GysCh → GysCh) : (s.gysChUpd c f).fq = s.fq := rfl
@[simp] theorem State.gysChUpd_clu (s : State) (c : Nat) (f : GysCh → GysCh) : (s.gysChUpd c f).clu = s.clu := rfl
@[simp] theorem State.gysChUpd_core (s : State) (c : Nat) (f : GysCh → GysCh) : (s.gysChUpd c f).core = s.core := rfl
@[simp] theorem State.gysChUpd_mig (s : State) (c : Nat) (f : GysCh → GysCh) : (s.gysChUpd c f).mig = s.mig := rfl
@[simp] theorem State.gysChUpd_mbx (s : State) (c : Nat) (f : GysCh → GysCh) : (s.gysChUpd c f).mbx = s.mbx := rfl
@[simp] theorem State.gysChUpd_lck (s : State) (c : Nat) (f : GysCh → GysCh) : (s.gysChUpd c f).lck = s.lck := rfl
@[simp] theorem State.gysChUpd_ril (s : State) (c : Nat) (f : GysCh → GysCh) : (s.gysChUpd c f).ril = s.ril := rfl
@[simp] theorem State.gysChUpd_rilSyncLo (s : State) (c : Nat) (f : GysCh → GysCh) : (s.gysChUpd c f).rilSyncLo = s.rilSyncLo := rfl
@[simp] theorem State.gysChUpd_can (s : State) (c : Nat) (f : GysCh → GysCh) : (s.gysChUpd c f).can = s.can := rfl
@[simp] theorem State.gysChUpd_lp (s : State) (c : Nat) (f : GysCh → GysCh) : (s.gysChUpd c f).lp = s.lp := rfl
@[simp] theorem State.gysChUpd_pool (s : State) (c : Nat) (f : GysCh → GysCh) : (s.gysChUpd c f).pool = s.pool := rfl
@[simp] theorem State.gysChUpd_bank (s : State) (c : Nat) (f : GysCh → GysCh) : (s.gysChUpd c f).bank = s.bank := rfl
@[simp] theorem State.gysChUpd_mem (s : State) (c : Nat) (f : GysCh → GysCh) : (s.gysChUpd c f).mem = s.mem := rfl
@[simp] theorem State.gysChUpd_tok (s : State) (c : Nat) (f : GysCh → GysCh) : (s.gysChUpd c f).tok = s.tok := rfl
@[simp] theorem State.gysChUpd_clk (s : State) (c : Nat) (f : GysCh → GysCh) : (s.gysChUpd c f).clk = s.clk := rfl
@[simp] theorem State.gysChUpd_pwr (s : State) (c : Nat) (f : GysCh → GysCh) : (s.gysChUpd c f).pwr = s.pwr := rfl
@[simp] theorem State.gysChUpd_boot (s : State) (c : Nat) (f : GysCh → GysCh) : (s.gysChUpd c f).boot = s.boot := rfl
@[simp] theorem State.gysChUpd_tph (s : State) (c : Nat) (f : GysCh → GysCh) : (s.gysChUpd c f).tph = s.tph := rfl
@[simp] theorem State.gysChUpd_freeCtr (s : State) (c : Nat) (f : GysCh → GysCh) : (s.gysChUpd c f).freeCtr = s.freeCtr := rfl
@[simp] theorem State.gysChUpd_out (s : State) (c : Nat) (f : GysCh → GysCh) : (s.gysChUpd c f).out = s.out := rfl
@[simp] theorem State.gysChUpd_pending (s : State) (c : Nat) (f : GysCh → GysCh) : (s.gysChUpd c f).pending = s.pending := rfl

/-! ### State.pairUpd -/

@[simp] theorem State.pairUpd_variant (s : State) (f : PairU → PairU) : (s.pairUpd f).variant = s.variant := rfl
@[simp] theorem State.pairUpd_regs (s : State) (f : PairU → PairU) : (s.pairUpd f).regs = s.regs := rfl
@[simp] theorem State.pairUpd_lock (s : State) (f : PairU → PairU) : (s.pairUpd f).lock = s.lock := rfl
@[simp] theorem State.pairUpd_cyc (s : State) (f : PairU → PairU) : (s.pairUpd f).cyc = s.cyc := rfl
@[simp] theorem State.pairUpd_pcie (s : State) (f : PairU → PairU) : (s.pairUpd f).pcie = s.pcie := rfl
@[simp] theorem State.pairUpd_hst (s : State) (f : PairU → PairU) : (s.pairUpd f).hst = s.hst := rfl
@[simp] theorem State.pairUpd_cfl (s : State) (f : PairU → PairU) : (s.pairUpd f).cfl = s.cfl := rfl
@[simp] theorem State.pairUpd_mac (s : State) (f : PairU → PairU) : (s.pairUpd f).mac = s.mac := rfl
@[simp] theorem State.pairUpd_tb (s : State) (f : PairU → PairU) : (s.pairUpd f).tb = s.tb := rfl
@[simp] theorem State.pairUpd_cap (s : State) (f : PairU → PairU) : (s.pairUpd f).cap = s.cap := rfl
@[simp] theorem State.pairUpd_pls (s : State) (f : PairU → PairU) : (s.pairUpd f).pls = s.pls := rfl
@[simp] theorem State.pairUpd_gys (s : State) (f : PairU → PairU) : (s.pairUpd f).gys = s.gys := rfl
@[simp] theorem State.pairUpd_fq (s : State) (f : PairU → PairU) : (s.pairUpd f).fq = s.fq := rfl
@[simp] theorem State.pairUpd_clu (s : State) (f : PairU → PairU) : (s.pairUpd f).clu = s.clu := rfl
@[simp] theorem State.pairUpd_core (s : State) (f : PairU → PairU) : (s.pairUpd f).core = s.core := rfl
@[simp] theorem State.pairUpd_mig (s : State) (f : PairU → PairU) : (s.pairUpd f).mig = s.mig := rfl
@[simp] theorem State.pairUpd_mbx (s : State) (f : PairU → PairU) : (s.pairUpd f).mbx = s.mbx := rfl
@[simp] theorem State.pairUpd_lck (s : State) (f : PairU → PairU) : (s.pairUpd f).lck = s.lck := rfl
@[simp] theorem State.pairUpd_ril (s : State) (f : PairU → PairU) : (s.pairUpd f).ril = s.ril := rfl
@[simp] theorem State.pairUpd_rilSyncLo (s : State) (f : PairU → PairU) : (s.pairUpd f).rilSyncLo = s.rilSyncLo := rfl
@[simp] theorem State.pairUpd_can (s : State) (f : PairU → PairU) : (s.pairUpd f).can = s.can := rfl
@[simp] theorem State.pairUpd_lp (s : State) (f : PairU → PairU) : (s.pairUpd f).lp = s.lp := rfl
@[simp] theorem State.pairUpd_pool (s : State) (f : PairU → PairU) : (s.pairUpd f).pool = s.pool := rfl
@[simp] theorem State.pairUpd_bank (s : State) (f : PairU → PairU) : (s.pairUpd f).bank = s.bank := rfl
@[simp] theorem State.pairUpd_mem (s : State) (f : PairU → PairU) : (s.pairUpd f).mem = s.mem := rfl
@[simp] theorem State.pairUpd_tok (s : State) (f : PairU → PairU) : (s.pairUpd f).tok = s.tok := rfl
@[simp] theorem State.pairUpd_clk (s : State) (f : PairU → PairU) : (s.pairUpd f).clk = s.clk := rfl
@[simp] theorem State.pairUpd_pwr (s : State) (f : PairU → PairU) : (s.pairUpd f).pwr = s.pwr := rfl
@[simp] theorem State.pairUpd_boot (s : State) (f : PairU → PairU) : (s.pairUpd f).boot = s.boot := rfl
@[simp] theorem State.pairUpd_tph (s : State) (f : PairU → PairU) : (s.pairUpd f).tph = s.tph := rfl
@[simp] theorem State.pairUpd_freeCtr (s : State) (f : PairU → PairU) : (s.pairUpd f).freeCtr = s.freeCtr := rfl
@[simp] theorem State.pairUpd_out (s : State) (f : PairU → PairU) : (s.pairUpd f).out = s.out := rfl
@[simp] theorem State.pairUpd_pending (s : State) (f : PairU → PairU) : (s.pairUpd f).pending = s.pending := rfl

/-! ### State.bootUpd -/

@[simp] theorem State.bootUpd_variant (s : State) (f : BootU → BootU) : (s.bootUpd f).variant = s.variant := rfl
@[simp] theorem State.bootUpd_regs (s : State) (f : BootU → BootU) : (s.bootUpd f).regs = s.regs := rfl
@[simp] theorem State.bootUpd_lock (s : State) (f : BootU → BootU) : (s.bootUpd f).lock = s.lock := rfl
@[simp] theorem State.bootUpd_cyc (s : State) (f : BootU → BootU) : (s.bootUpd f).cyc = s.cyc := rfl
@[simp] theorem State.bootUpd_pcie (s : State) (f : BootU → BootU) : (s.bootUpd f).pcie = s.pcie := rfl
@[simp] theorem State.bootUpd_hst (s : State) (f : BootU → BootU) : (s.bootUpd f).hst = s.hst := rfl
@[simp] theorem State.bootUpd_cfl (s : State) (f : BootU → BootU) : (s.bootUpd f).cfl = s.cfl := rfl
@[simp] theorem State.bootUpd_mac (s : State) (f : BootU → BootU) : (s.bootUpd f).mac = s.mac := rfl
@[simp] theorem State.bootUpd_tb (s : State) (f : BootU → BootU) : (s.bootUpd f).tb = s.tb := rfl
@[simp] theorem State.bootUpd_cap (s : State) (f : BootU → BootU) : (s.bootUpd f).cap = s.cap := rfl
@[simp] theorem State.bootUpd_pls (s : State) (f : BootU → BootU) : (s.bootUpd f).pls = s.pls := rfl
@[simp] theorem State.bootUpd_gys (s : State) (f : BootU → BootU) : (s.bootUpd f).gys = s.gys := rfl
@[simp] theorem State.bootUpd_pair (s : State) (f : BootU → BootU) : (s.bootUpd f).pair = s.pair := rfl
@[simp] theorem State.bootUpd_fq (s : State) (f : BootU → BootU) : (s.bootUpd f).fq = s.fq := rfl
@[simp] theorem State.bootUpd_clu (s : State) (f : BootU → BootU) : (s.bootUpd f).clu = s.clu := rfl
@[simp] theorem State.bootUpd_core (s : State) (f : BootU → BootU) : (s.bootUpd f).core = s.core := rfl
@[simp] theorem State.bootUpd_mig (s : State) (f : BootU → BootU) : (s.bootUpd f).mig = s.mig := rfl
@[simp] theorem State.bootUpd_mbx (s : State) (f : BootU → BootU) : (s.bootUpd f).mbx = s.mbx := rfl
@[simp] theorem State.bootUpd_lck (s : State) (f : BootU → BootU) : (s.bootUpd f).lck = s.lck := rfl
@[simp] theorem State.bootUpd_ril (s : State) (f : BootU → BootU) : (s.bootUpd f).ril = s.ril := rfl
@[simp] theorem State.bootUpd_rilSyncLo (s : State) (f : BootU → BootU) : (s.bootUpd f).rilSyncLo = s.rilSyncLo := rfl
@[simp] theorem State.bootUpd_can (s : State) (f : BootU → BootU) : (s.bootUpd f).can = s.can := rfl
@[simp] theorem State.bootUpd_lp (s : State) (f : BootU → BootU) : (s.bootUpd f).lp = s.lp := rfl
@[simp] theorem State.bootUpd_pool (s : State) (f : BootU → BootU) : (s.bootUpd f).pool = s.pool := rfl
@[simp] theorem State.bootUpd_bank (s : State) (f : BootU → BootU) : (s.bootUpd f).bank = s.bank := rfl
@[simp] theorem State.bootUpd_mem (s : State) (f : BootU → BootU) : (s.bootUpd f).mem = s.mem := rfl
@[simp] theorem State.bootUpd_tok (s : State) (f : BootU → BootU) : (s.bootUpd f).tok = s.tok := rfl
@[simp] theorem State.bootUpd_clk (s : State) (f : BootU → BootU) : (s.bootUpd f).clk = s.clk := rfl
@[simp] theorem State.bootUpd_pwr (s : State) (f : BootU → BootU) : (s.bootUpd f).pwr = s.pwr := rfl
@[simp] theorem State.bootUpd_tph (s : State) (f : BootU → BootU) : (s.bootUpd f).tph = s.tph := rfl
@[simp] theorem State.bootUpd_freeCtr (s : State) (f : BootU → BootU) : (s.bootUpd f).freeCtr = s.freeCtr := rfl
@[simp] theorem State.bootUpd_out (s : State) (f : BootU → BootU) : (s.bootUpd f).out = s.out := rfl
@[simp] theorem State.bootUpd_pending (s : State) (f : BootU → BootU) : (s.bootUpd f).pending = s.pending := rfl

/-! ### State.slotUpd -/

@[simp] theorem State.slotUpd_variant (s : State) (n : Nat) (f : LSlot → LSlot) : (s.slotUpd n f).variant = s.variant := rfl
@[simp] theorem State.slotUpd_regs (s : State) (n : Nat) (f : LSlot → LSlot) : (s.slotUpd n f).regs = s.regs := rfl
@[simp] theorem State.slotUpd_lock (s : State) (n : Nat) (f : LSlot → LSlot) : (s.slotUpd n f).lock = s.lock := rfl
@[simp] theorem State.slotUpd_cyc (s : State) (n : Nat) (f : LSlot → LSlot) : (s.slotUpd n f).cyc = s.cyc := rfl
@[simp] theorem State.slotUpd_pcie (s : State) (n : Nat) (f : LSlot → LSlot) : (s.slotUpd n f).pcie = s.pcie := rfl
@[simp] theorem State.slotUpd_hst (s : State) (n : Nat) (f : LSlot → LSlot) : (s.slotUpd n f).hst = s.hst := rfl
@[simp] theorem State.slotUpd_cfl (s : State) (n : Nat) (f : LSlot → LSlot) : (s.slotUpd n f).cfl = s.cfl := rfl
@[simp] theorem State.slotUpd_mac (s : State) (n : Nat) (f : LSlot → LSlot) : (s.slotUpd n f).mac = s.mac := rfl
@[simp] theorem State.slotUpd_tb (s : State) (n : Nat) (f : LSlot → LSlot) : (s.slotUpd n f).tb = s.tb := rfl
@[simp] theorem State.slotUpd_cap (s : State) (n : Nat) (f : LSlot → LSlot) : (s.slotUpd n f).cap = s.cap := rfl
@[simp] theorem State.slotUpd_pls (s : State) (n : Nat) (f : LSlot → LSlot) : (s.slotUpd n f).pls = s.pls := rfl
@[simp] theorem State.slotUpd_gys (s : State) (n : Nat) (f : LSlot → LSlot) : (s.slotUpd n f).gys = s.gys := rfl
@[simp] theorem State.slotUpd_pair (s : State) (n : Nat) (f : LSlot → LSlot) : (s.slotUpd n f).pair = s.pair := rfl
@[simp] theorem State.slotUpd_fq (s : State) (n : Nat) (f : LSlot → LSlot) : (s.slotUpd n f).fq = s.fq := rfl
@[simp] theorem State.slotUpd_clu (s : State) (n : Nat) (f : LSlot → LSlot) : (s.slotUpd n f).clu = s.clu := rfl
@[simp] theorem State.slotUpd_core (s : State) (n : Nat) (f : LSlot → LSlot) : (s.slotUpd n f).core = s.core := rfl
@[simp] theorem State.slotUpd_mig (s : State) (n : Nat) (f : LSlot → LSlot) : (s.slotUpd n f).mig = s.mig := rfl
@[simp] theorem State.slotUpd_mbx (s : State) (n : Nat) (f : LSlot → LSlot) : (s.slotUpd n f).mbx = s.mbx := rfl
@[simp] theorem State.slotUpd_lck (s : State) (n : Nat) (f : LSlot → LSlot) : (s.slotUpd n f).lck = s.lck := rfl
@[simp] theorem State.slotUpd_ril (s : State) (n : Nat) (f : LSlot → LSlot) : (s.slotUpd n f).ril = s.ril := rfl
@[simp] theorem State.slotUpd_rilSyncLo (s : State) (n : Nat) (f : LSlot → LSlot) : (s.slotUpd n f).rilSyncLo = s.rilSyncLo := rfl
@[simp] theorem State.slotUpd_can (s : State) (n : Nat) (f : LSlot → LSlot) : (s.slotUpd n f).can = s.can := rfl
@[simp] theorem State.slotUpd_pool (s : State) (n : Nat) (f : LSlot → LSlot) : (s.slotUpd n f).pool = s.pool := rfl
@[simp] theorem State.slotUpd_bank (s : State) (n : Nat) (f : LSlot → LSlot) : (s.slotUpd n f).bank = s.bank := rfl
@[simp] theorem State.slotUpd_mem (s : State) (n : Nat) (f : LSlot → LSlot) : (s.slotUpd n f).mem = s.mem := rfl
@[simp] theorem State.slotUpd_tok (s : State) (n : Nat) (f : LSlot → LSlot) : (s.slotUpd n f).tok = s.tok := rfl
@[simp] theorem State.slotUpd_clk (s : State) (n : Nat) (f : LSlot → LSlot) : (s.slotUpd n f).clk = s.clk := rfl
@[simp] theorem State.slotUpd_pwr (s : State) (n : Nat) (f : LSlot → LSlot) : (s.slotUpd n f).pwr = s.pwr := rfl
@[simp] theorem State.slotUpd_boot (s : State) (n : Nat) (f : LSlot → LSlot) : (s.slotUpd n f).boot = s.boot := rfl
@[simp] theorem State.slotUpd_tph (s : State) (n : Nat) (f : LSlot → LSlot) : (s.slotUpd n f).tph = s.tph := rfl
@[simp] theorem State.slotUpd_freeCtr (s : State) (n : Nat) (f : LSlot → LSlot) : (s.slotUpd n f).freeCtr = s.freeCtr := rfl
@[simp] theorem State.slotUpd_out (s : State) (n : Nat) (f : LSlot → LSlot) : (s.slotUpd n f).out = s.out := rfl
@[simp] theorem State.slotUpd_pending (s : State) (n : Nat) (f : LSlot → LSlot) : (s.slotUpd n f).pending = s.pending := rfl

/-! ### State.twUpd -/

@[simp] theorem State.twUpd_variant (s : State) (w : Nat) (f : Transit → Transit) : (s.twUpd w f).variant = s.variant := rfl
@[simp] theorem State.twUpd_regs (s : State) (w : Nat) (f : Transit → Transit) : (s.twUpd w f).regs = s.regs := rfl
@[simp] theorem State.twUpd_lock (s : State) (w : Nat) (f : Transit → Transit) : (s.twUpd w f).lock = s.lock := rfl
@[simp] theorem State.twUpd_cyc (s : State) (w : Nat) (f : Transit → Transit) : (s.twUpd w f).cyc = s.cyc := rfl
@[simp] theorem State.twUpd_pcie (s : State) (w : Nat) (f : Transit → Transit) : (s.twUpd w f).pcie = s.pcie := rfl
@[simp] theorem State.twUpd_hst (s : State) (w : Nat) (f : Transit → Transit) : (s.twUpd w f).hst = s.hst := rfl
@[simp] theorem State.twUpd_mac (s : State) (w : Nat) (f : Transit → Transit) : (s.twUpd w f).mac = s.mac := rfl
@[simp] theorem State.twUpd_tb (s : State) (w : Nat) (f : Transit → Transit) : (s.twUpd w f).tb = s.tb := rfl
@[simp] theorem State.twUpd_cap (s : State) (w : Nat) (f : Transit → Transit) : (s.twUpd w f).cap = s.cap := rfl
@[simp] theorem State.twUpd_pls (s : State) (w : Nat) (f : Transit → Transit) : (s.twUpd w f).pls = s.pls := rfl
@[simp] theorem State.twUpd_gys (s : State) (w : Nat) (f : Transit → Transit) : (s.twUpd w f).gys = s.gys := rfl
@[simp] theorem State.twUpd_pair (s : State) (w : Nat) (f : Transit → Transit) : (s.twUpd w f).pair = s.pair := rfl
@[simp] theorem State.twUpd_fq (s : State) (w : Nat) (f : Transit → Transit) : (s.twUpd w f).fq = s.fq := rfl
@[simp] theorem State.twUpd_clu (s : State) (w : Nat) (f : Transit → Transit) : (s.twUpd w f).clu = s.clu := rfl
@[simp] theorem State.twUpd_core (s : State) (w : Nat) (f : Transit → Transit) : (s.twUpd w f).core = s.core := rfl
@[simp] theorem State.twUpd_mig (s : State) (w : Nat) (f : Transit → Transit) : (s.twUpd w f).mig = s.mig := rfl
@[simp] theorem State.twUpd_mbx (s : State) (w : Nat) (f : Transit → Transit) : (s.twUpd w f).mbx = s.mbx := rfl
@[simp] theorem State.twUpd_lck (s : State) (w : Nat) (f : Transit → Transit) : (s.twUpd w f).lck = s.lck := rfl
@[simp] theorem State.twUpd_ril (s : State) (w : Nat) (f : Transit → Transit) : (s.twUpd w f).ril = s.ril := rfl
@[simp] theorem State.twUpd_rilSyncLo (s : State) (w : Nat) (f : Transit → Transit) : (s.twUpd w f).rilSyncLo = s.rilSyncLo := rfl
@[simp] theorem State.twUpd_can (s : State) (w : Nat) (f : Transit → Transit) : (s.twUpd w f).can = s.can := rfl
@[simp] theorem State.twUpd_lp (s : State) (w : Nat) (f : Transit → Transit) : (s.twUpd w f).lp = s.lp := rfl
@[simp] theorem State.twUpd_pool (s : State) (w : Nat) (f : Transit → Transit) : (s.twUpd w f).pool = s.pool := rfl
@[simp] theorem State.twUpd_bank (s : State) (w : Nat) (f : Transit → Transit) : (s.twUpd w f).bank = s.bank := rfl
@[simp] theorem State.twUpd_mem (s : State) (w : Nat) (f : Transit → Transit) : (s.twUpd w f).mem = s.mem := rfl
@[simp] theorem State.twUpd_tok (s : State) (w : Nat) (f : Transit → Transit) : (s.twUpd w f).tok = s.tok := rfl
@[simp] theorem State.twUpd_clk (s : State) (w : Nat) (f : Transit → Transit) : (s.twUpd w f).clk = s.clk := rfl
@[simp] theorem State.twUpd_pwr (s : State) (w : Nat) (f : Transit → Transit) : (s.twUpd w f).pwr = s.pwr := rfl
@[simp] theorem State.twUpd_boot (s : State) (w : Nat) (f : Transit → Transit) : (s.twUpd w f).boot = s.boot := rfl
@[simp] theorem State.twUpd_tph (s : State) (w : Nat) (f : Transit → Transit) : (s.twUpd w f).tph = s.tph := rfl
@[simp] theorem State.twUpd_freeCtr (s : State) (w : Nat) (f : Transit → Transit) : (s.twUpd w f).freeCtr = s.freeCtr := rfl
@[simp] theorem State.twUpd_out (s : State) (w : Nat) (f : Transit → Transit) : (s.twUpd w f).out = s.out := rfl
@[simp] theorem State.twUpd_pending (s : State) (w : Nat) (f : Transit → Transit) : (s.twUpd w f).pending = s.pending := rfl

/-! ### State.outUpd -/

@[simp] theorem State.outUpd_variant (s : State) (p : Nat) (f : OutPort → OutPort) : (s.outUpd p f).variant = s.variant := rfl
@[simp] theorem State.outUpd_regs (s : State) (p : Nat) (f : OutPort → OutPort) : (s.outUpd p f).regs = s.regs := rfl
@[simp] theorem State.outUpd_lock (s : State) (p : Nat) (f : OutPort → OutPort) : (s.outUpd p f).lock = s.lock := rfl
@[simp] theorem State.outUpd_cyc (s : State) (p : Nat) (f : OutPort → OutPort) : (s.outUpd p f).cyc = s.cyc := rfl
@[simp] theorem State.outUpd_pcie (s : State) (p : Nat) (f : OutPort → OutPort) : (s.outUpd p f).pcie = s.pcie := rfl
@[simp] theorem State.outUpd_hst (s : State) (p : Nat) (f : OutPort → OutPort) : (s.outUpd p f).hst = s.hst := rfl
@[simp] theorem State.outUpd_mac (s : State) (p : Nat) (f : OutPort → OutPort) : (s.outUpd p f).mac = s.mac := rfl
@[simp] theorem State.outUpd_tb (s : State) (p : Nat) (f : OutPort → OutPort) : (s.outUpd p f).tb = s.tb := rfl
@[simp] theorem State.outUpd_cap (s : State) (p : Nat) (f : OutPort → OutPort) : (s.outUpd p f).cap = s.cap := rfl
@[simp] theorem State.outUpd_pls (s : State) (p : Nat) (f : OutPort → OutPort) : (s.outUpd p f).pls = s.pls := rfl
@[simp] theorem State.outUpd_gys (s : State) (p : Nat) (f : OutPort → OutPort) : (s.outUpd p f).gys = s.gys := rfl
@[simp] theorem State.outUpd_pair (s : State) (p : Nat) (f : OutPort → OutPort) : (s.outUpd p f).pair = s.pair := rfl
@[simp] theorem State.outUpd_fq (s : State) (p : Nat) (f : OutPort → OutPort) : (s.outUpd p f).fq = s.fq := rfl
@[simp] theorem State.outUpd_clu (s : State) (p : Nat) (f : OutPort → OutPort) : (s.outUpd p f).clu = s.clu := rfl
@[simp] theorem State.outUpd_core (s : State) (p : Nat) (f : OutPort → OutPort) : (s.outUpd p f).core = s.core := rfl
@[simp] theorem State.outUpd_mig (s : State) (p : Nat) (f : OutPort → OutPort) : (s.outUpd p f).mig = s.mig := rfl
@[simp] theorem State.outUpd_mbx (s : State) (p : Nat) (f : OutPort → OutPort) : (s.outUpd p f).mbx = s.mbx := rfl
@[simp] theorem State.outUpd_lck (s : State) (p : Nat) (f : OutPort → OutPort) : (s.outUpd p f).lck = s.lck := rfl
@[simp] theorem State.outUpd_ril (s : State) (p : Nat) (f : OutPort → OutPort) : (s.outUpd p f).ril = s.ril := rfl
@[simp] theorem State.outUpd_rilSyncLo (s : State) (p : Nat) (f : OutPort → OutPort) : (s.outUpd p f).rilSyncLo = s.rilSyncLo := rfl
@[simp] theorem State.outUpd_can (s : State) (p : Nat) (f : OutPort → OutPort) : (s.outUpd p f).can = s.can := rfl
@[simp] theorem State.outUpd_lp (s : State) (p : Nat) (f : OutPort → OutPort) : (s.outUpd p f).lp = s.lp := rfl
@[simp] theorem State.outUpd_pool (s : State) (p : Nat) (f : OutPort → OutPort) : (s.outUpd p f).pool = s.pool := rfl
@[simp] theorem State.outUpd_bank (s : State) (p : Nat) (f : OutPort → OutPort) : (s.outUpd p f).bank = s.bank := rfl
@[simp] theorem State.outUpd_mem (s : State) (p : Nat) (f : OutPort → OutPort) : (s.outUpd p f).mem = s.mem := rfl
@[simp] theorem State.outUpd_tok (s : State) (p : Nat) (f : OutPort → OutPort) : (s.outUpd p f).tok = s.tok := rfl
@[simp] theorem State.outUpd_clk (s : State) (p : Nat) (f : OutPort → OutPort) : (s.outUpd p f).clk = s.clk := rfl
@[simp] theorem State.outUpd_pwr (s : State) (p : Nat) (f : OutPort → OutPort) : (s.outUpd p f).pwr = s.pwr := rfl
@[simp] theorem State.outUpd_boot (s : State) (p : Nat) (f : OutPort → OutPort) : (s.outUpd p f).boot = s.boot := rfl
@[simp] theorem State.outUpd_tph (s : State) (p : Nat) (f : OutPort → OutPort) : (s.outUpd p f).tph = s.tph := rfl
@[simp] theorem State.outUpd_freeCtr (s : State) (p : Nat) (f : OutPort → OutPort) : (s.outUpd p f).freeCtr = s.freeCtr := rfl
@[simp] theorem State.outUpd_out (s : State) (p : Nat) (f : OutPort → OutPort) : (s.outUpd p f).out = s.out := rfl
@[simp] theorem State.outUpd_pending (s : State) (p : Nat) (f : OutPort → OutPort) : (s.outUpd p f).pending = s.pending := rfl

/-! ### State.inUpd -/

@[simp] theorem State.inUpd_variant (s : State) (p : Nat) (f : InPort → InPort) : (s.inUpd p f).variant = s.variant := rfl
@[simp] theorem State.inUpd_regs (s : State) (p : Nat) (f : InPort → InPort) : (s.inUpd p f).regs = s.regs := rfl
@[simp] theorem State.inUpd_lock (s : State) (p : Nat) (f : InPort → InPort) : (s.inUpd p f).lock = s.lock := rfl
@[simp] theorem State.inUpd_cyc (s : State) (p : Nat) (f : InPort → InPort) : (s.inUpd p f).cyc = s.cyc := rfl
@[simp] theorem State.inUpd_pcie (s : State) (p : Nat) (f : InPort → InPort) : (s.inUpd p f).pcie = s.pcie := rfl
@[simp] theorem State.inUpd_hst (s : State) (p : Nat) (f : InPort → InPort) : (s.inUpd p f).hst = s.hst := rfl
@[simp] theorem State.inUpd_mac (s : State) (p : Nat) (f : InPort → InPort) : (s.inUpd p f).mac = s.mac := rfl
@[simp] theorem State.inUpd_tb (s : State) (p : Nat) (f : InPort → InPort) : (s.inUpd p f).tb = s.tb := rfl
@[simp] theorem State.inUpd_cap (s : State) (p : Nat) (f : InPort → InPort) : (s.inUpd p f).cap = s.cap := rfl
@[simp] theorem State.inUpd_pls (s : State) (p : Nat) (f : InPort → InPort) : (s.inUpd p f).pls = s.pls := rfl
@[simp] theorem State.inUpd_gys (s : State) (p : Nat) (f : InPort → InPort) : (s.inUpd p f).gys = s.gys := rfl
@[simp] theorem State.inUpd_pair (s : State) (p : Nat) (f : InPort → InPort) : (s.inUpd p f).pair = s.pair := rfl
@[simp] theorem State.inUpd_fq (s : State) (p : Nat) (f : InPort → InPort) : (s.inUpd p f).fq = s.fq := rfl
@[simp] theorem State.inUpd_clu (s : State) (p : Nat) (f : InPort → InPort) : (s.inUpd p f).clu = s.clu := rfl
@[simp] theorem State.inUpd_core (s : State) (p : Nat) (f : InPort → InPort) : (s.inUpd p f).core = s.core := rfl
@[simp] theorem State.inUpd_mig (s : State) (p : Nat) (f : InPort → InPort) : (s.inUpd p f).mig = s.mig := rfl
@[simp] theorem State.inUpd_mbx (s : State) (p : Nat) (f : InPort → InPort) : (s.inUpd p f).mbx = s.mbx := rfl
@[simp] theorem State.inUpd_lck (s : State) (p : Nat) (f : InPort → InPort) : (s.inUpd p f).lck = s.lck := rfl
@[simp] theorem State.inUpd_ril (s : State) (p : Nat) (f : InPort → InPort) : (s.inUpd p f).ril = s.ril := rfl
@[simp] theorem State.inUpd_rilSyncLo (s : State) (p : Nat) (f : InPort → InPort) : (s.inUpd p f).rilSyncLo = s.rilSyncLo := rfl
@[simp] theorem State.inUpd_can (s : State) (p : Nat) (f : InPort → InPort) : (s.inUpd p f).can = s.can := rfl
@[simp] theorem State.inUpd_lp (s : State) (p : Nat) (f : InPort → InPort) : (s.inUpd p f).lp = s.lp := rfl
@[simp] theorem State.inUpd_pool (s : State) (p : Nat) (f : InPort → InPort) : (s.inUpd p f).pool = s.pool := rfl
@[simp] theorem State.inUpd_bank (s : State) (p : Nat) (f : InPort → InPort) : (s.inUpd p f).bank = s.bank := rfl
@[simp] theorem State.inUpd_mem (s : State) (p : Nat) (f : InPort → InPort) : (s.inUpd p f).mem = s.mem := rfl
@[simp] theorem State.inUpd_tok (s : State) (p : Nat) (f : InPort → InPort) : (s.inUpd p f).tok = s.tok := rfl
@[simp] theorem State.inUpd_clk (s : State) (p : Nat) (f : InPort → InPort) : (s.inUpd p f).clk = s.clk := rfl
@[simp] theorem State.inUpd_pwr (s : State) (p : Nat) (f : InPort → InPort) : (s.inUpd p f).pwr = s.pwr := rfl
@[simp] theorem State.inUpd_boot (s : State) (p : Nat) (f : InPort → InPort) : (s.inUpd p f).boot = s.boot := rfl
@[simp] theorem State.inUpd_tph (s : State) (p : Nat) (f : InPort → InPort) : (s.inUpd p f).tph = s.tph := rfl
@[simp] theorem State.inUpd_freeCtr (s : State) (p : Nat) (f : InPort → InPort) : (s.inUpd p f).freeCtr = s.freeCtr := rfl
@[simp] theorem State.inUpd_out (s : State) (p : Nat) (f : InPort → InPort) : (s.inUpd p f).out = s.out := rfl
@[simp] theorem State.inUpd_pending (s : State) (p : Nat) (f : InPort → InPort) : (s.inUpd p f).pending = s.pending := rfl

/-! ### State.gateUpd -/

@[simp] theorem State.gateUpd_variant (s : State) (p : Nat) (f : Gate → Gate) : (s.gateUpd p f).variant = s.variant := rfl
@[simp] theorem State.gateUpd_regs (s : State) (p : Nat) (f : Gate → Gate) : (s.gateUpd p f).regs = s.regs := rfl
@[simp] theorem State.gateUpd_lock (s : State) (p : Nat) (f : Gate → Gate) : (s.gateUpd p f).lock = s.lock := rfl
@[simp] theorem State.gateUpd_cyc (s : State) (p : Nat) (f : Gate → Gate) : (s.gateUpd p f).cyc = s.cyc := rfl
@[simp] theorem State.gateUpd_pcie (s : State) (p : Nat) (f : Gate → Gate) : (s.gateUpd p f).pcie = s.pcie := rfl
@[simp] theorem State.gateUpd_hst (s : State) (p : Nat) (f : Gate → Gate) : (s.gateUpd p f).hst = s.hst := rfl
@[simp] theorem State.gateUpd_mac (s : State) (p : Nat) (f : Gate → Gate) : (s.gateUpd p f).mac = s.mac := rfl
@[simp] theorem State.gateUpd_tb (s : State) (p : Nat) (f : Gate → Gate) : (s.gateUpd p f).tb = s.tb := rfl
@[simp] theorem State.gateUpd_cap (s : State) (p : Nat) (f : Gate → Gate) : (s.gateUpd p f).cap = s.cap := rfl
@[simp] theorem State.gateUpd_pls (s : State) (p : Nat) (f : Gate → Gate) : (s.gateUpd p f).pls = s.pls := rfl
@[simp] theorem State.gateUpd_gys (s : State) (p : Nat) (f : Gate → Gate) : (s.gateUpd p f).gys = s.gys := rfl
@[simp] theorem State.gateUpd_pair (s : State) (p : Nat) (f : Gate → Gate) : (s.gateUpd p f).pair = s.pair := rfl
@[simp] theorem State.gateUpd_fq (s : State) (p : Nat) (f : Gate → Gate) : (s.gateUpd p f).fq = s.fq := rfl
@[simp] theorem State.gateUpd_clu (s : State) (p : Nat) (f : Gate → Gate) : (s.gateUpd p f).clu = s.clu := rfl
@[simp] theorem State.gateUpd_core (s : State) (p : Nat) (f : Gate → Gate) : (s.gateUpd p f).core = s.core := rfl
@[simp] theorem State.gateUpd_mig (s : State) (p : Nat) (f : Gate → Gate) : (s.gateUpd p f).mig = s.mig := rfl
@[simp] theorem State.gateUpd_mbx (s : State) (p : Nat) (f : Gate → Gate) : (s.gateUpd p f).mbx = s.mbx := rfl
@[simp] theorem State.gateUpd_lck (s : State) (p : Nat) (f : Gate → Gate) : (s.gateUpd p f).lck = s.lck := rfl
@[simp] theorem State.gateUpd_ril (s : State) (p : Nat) (f : Gate → Gate) : (s.gateUpd p f).ril = s.ril := rfl
@[simp] theorem State.gateUpd_rilSyncLo (s : State) (p : Nat) (f : Gate → Gate) : (s.gateUpd p f).rilSyncLo = s.rilSyncLo := rfl
@[simp] theorem State.gateUpd_can (s : State) (p : Nat) (f : Gate → Gate) : (s.gateUpd p f).can = s.can := rfl
@[simp] theorem State.gateUpd_lp (s : State) (p : Nat) (f : Gate → Gate) : (s.gateUpd p f).lp = s.lp := rfl
@[simp] theorem State.gateUpd_pool (s : State) (p : Nat) (f : Gate → Gate) : (s.gateUpd p f).pool = s.pool := rfl
@[simp] theorem State.gateUpd_bank (s : State) (p : Nat) (f : Gate → Gate) : (s.gateUpd p f).bank = s.bank := rfl
@[simp] theorem State.gateUpd_mem (s : State) (p : Nat) (f : Gate → Gate) : (s.gateUpd p f).mem = s.mem := rfl
@[simp] theorem State.gateUpd_tok (s : State) (p : Nat) (f : Gate → Gate) : (s.gateUpd p f).tok = s.tok := rfl
@[simp] theorem State.gateUpd_clk (s : State) (p : Nat) (f : Gate → Gate) : (s.gateUpd p f).clk = s.clk := rfl
@[simp] theorem State.gateUpd_pwr (s : State) (p : Nat) (f : Gate → Gate) : (s.gateUpd p f).pwr = s.pwr := rfl
@[simp] theorem State.gateUpd_boot (s : State) (p : Nat) (f : Gate → Gate) : (s.gateUpd p f).boot = s.boot := rfl
@[simp] theorem State.gateUpd_tph (s : State) (p : Nat) (f : Gate → Gate) : (s.gateUpd p f).tph = s.tph := rfl
@[simp] theorem State.gateUpd_freeCtr (s : State) (p : Nat) (f : Gate → Gate) : (s.gateUpd p f).freeCtr = s.freeCtr := rfl
@[simp] theorem State.gateUpd_out (s : State) (p : Nat) (f : Gate → Gate) : (s.gateUpd p f).out = s.out := rfl
@[simp] theorem State.gateUpd_pending (s : State) (p : Nat) (f : Gate → Gate) : (s.gateUpd p f).pending = s.pending := rfl

/-! ### State.frameUpd -/

@[simp] theorem State.frameUpd_variant (s : State) (n : Nat) (f : Frame → Frame) : (s.frameUpd n f).variant = s.variant := rfl
@[simp] theorem State.frameUpd_regs (s : State) (n : Nat) (f : Frame → Frame) : (s.frameUpd n f).regs = s.regs := rfl
@[simp] theorem State.frameUpd_lock (s : State) (n : Nat) (f : Frame → Frame) : (s.frameUpd n f).lock = s.lock := rfl
@[simp] theorem State.frameUpd_cyc (s : State) (n : Nat) (f : Frame → Frame) : (s.frameUpd n f).cyc = s.cyc := rfl
@[simp] theorem State.frameUpd_pcie (s : State) (n : Nat) (f : Frame → Frame) : (s.frameUpd n f).pcie = s.pcie := rfl
@[simp] theorem State.frameUpd_hst (s : State) (n : Nat) (f : Frame → Frame) : (s.frameUpd n f).hst = s.hst := rfl
@[simp] theorem State.frameUpd_mac (s : State) (n : Nat) (f : Frame → Frame) : (s.frameUpd n f).mac = s.mac := rfl
@[simp] theorem State.frameUpd_tb (s : State) (n : Nat) (f : Frame → Frame) : (s.frameUpd n f).tb = s.tb := rfl
@[simp] theorem State.frameUpd_cap (s : State) (n : Nat) (f : Frame → Frame) : (s.frameUpd n f).cap = s.cap := rfl
@[simp] theorem State.frameUpd_pls (s : State) (n : Nat) (f : Frame → Frame) : (s.frameUpd n f).pls = s.pls := rfl
@[simp] theorem State.frameUpd_gys (s : State) (n : Nat) (f : Frame → Frame) : (s.frameUpd n f).gys = s.gys := rfl
@[simp] theorem State.frameUpd_pair (s : State) (n : Nat) (f : Frame → Frame) : (s.frameUpd n f).pair = s.pair := rfl
@[simp] theorem State.frameUpd_fq (s : State) (n : Nat) (f : Frame → Frame) : (s.frameUpd n f).fq = s.fq := rfl
@[simp] theorem State.frameUpd_clu (s : State) (n : Nat) (f : Frame → Frame) : (s.frameUpd n f).clu = s.clu := rfl
@[simp] theorem State.frameUpd_core (s : State) (n : Nat) (f : Frame → Frame) : (s.frameUpd n f).core = s.core := rfl
@[simp] theorem State.frameUpd_mig (s : State) (n : Nat) (f : Frame → Frame) : (s.frameUpd n f).mig = s.mig := rfl
@[simp] theorem State.frameUpd_mbx (s : State) (n : Nat) (f : Frame → Frame) : (s.frameUpd n f).mbx = s.mbx := rfl
@[simp] theorem State.frameUpd_lck (s : State) (n : Nat) (f : Frame → Frame) : (s.frameUpd n f).lck = s.lck := rfl
@[simp] theorem State.frameUpd_ril (s : State) (n : Nat) (f : Frame → Frame) : (s.frameUpd n f).ril = s.ril := rfl
@[simp] theorem State.frameUpd_rilSyncLo (s : State) (n : Nat) (f : Frame → Frame) : (s.frameUpd n f).rilSyncLo = s.rilSyncLo := rfl
@[simp] theorem State.frameUpd_can (s : State) (n : Nat) (f : Frame → Frame) : (s.frameUpd n f).can = s.can := rfl
@[simp] theorem State.frameUpd_lp (s : State) (n : Nat) (f : Frame → Frame) : (s.frameUpd n f).lp = s.lp := rfl
@[simp] theorem State.frameUpd_pool (s : State) (n : Nat) (f : Frame → Frame) : (s.frameUpd n f).pool = s.pool := rfl
@[simp] theorem State.frameUpd_bank (s : State) (n : Nat) (f : Frame → Frame) : (s.frameUpd n f).bank = s.bank := rfl
@[simp] theorem State.frameUpd_mem (s : State) (n : Nat) (f : Frame → Frame) : (s.frameUpd n f).mem = s.mem := rfl
@[simp] theorem State.frameUpd_tok (s : State) (n : Nat) (f : Frame → Frame) : (s.frameUpd n f).tok = s.tok := rfl
@[simp] theorem State.frameUpd_clk (s : State) (n : Nat) (f : Frame → Frame) : (s.frameUpd n f).clk = s.clk := rfl
@[simp] theorem State.frameUpd_pwr (s : State) (n : Nat) (f : Frame → Frame) : (s.frameUpd n f).pwr = s.pwr := rfl
@[simp] theorem State.frameUpd_boot (s : State) (n : Nat) (f : Frame → Frame) : (s.frameUpd n f).boot = s.boot := rfl
@[simp] theorem State.frameUpd_tph (s : State) (n : Nat) (f : Frame → Frame) : (s.frameUpd n f).tph = s.tph := rfl
@[simp] theorem State.frameUpd_freeCtr (s : State) (n : Nat) (f : Frame → Frame) : (s.frameUpd n f).freeCtr = s.freeCtr := rfl
@[simp] theorem State.frameUpd_out (s : State) (n : Nat) (f : Frame → Frame) : (s.frameUpd n f).out = s.out := rfl
@[simp] theorem State.frameUpd_pending (s : State) (n : Nat) (f : Frame → Frame) : (s.frameUpd n f).pending = s.pending := rfl

/-! ### State.macUpd -/

@[simp] theorem State.macUpd_variant (s : State) (p : Nat) (f : Mac → Mac) : (s.macUpd p f).variant = s.variant := rfl
@[simp] theorem State.macUpd_regs (s : State) (p : Nat) (f : Mac → Mac) : (s.macUpd p f).regs = s.regs := rfl
@[simp] theorem State.macUpd_lock (s : State) (p : Nat) (f : Mac → Mac) : (s.macUpd p f).lock = s.lock := rfl
@[simp] theorem State.macUpd_cyc (s : State) (p : Nat) (f : Mac → Mac) : (s.macUpd p f).cyc = s.cyc := rfl
@[simp] theorem State.macUpd_pcie (s : State) (p : Nat) (f : Mac → Mac) : (s.macUpd p f).pcie = s.pcie := rfl
@[simp] theorem State.macUpd_hst (s : State) (p : Nat) (f : Mac → Mac) : (s.macUpd p f).hst = s.hst := rfl
@[simp] theorem State.macUpd_cfl (s : State) (p : Nat) (f : Mac → Mac) : (s.macUpd p f).cfl = s.cfl := rfl
@[simp] theorem State.macUpd_tb (s : State) (p : Nat) (f : Mac → Mac) : (s.macUpd p f).tb = s.tb := rfl
@[simp] theorem State.macUpd_cap (s : State) (p : Nat) (f : Mac → Mac) : (s.macUpd p f).cap = s.cap := rfl
@[simp] theorem State.macUpd_pls (s : State) (p : Nat) (f : Mac → Mac) : (s.macUpd p f).pls = s.pls := rfl
@[simp] theorem State.macUpd_gys (s : State) (p : Nat) (f : Mac → Mac) : (s.macUpd p f).gys = s.gys := rfl
@[simp] theorem State.macUpd_pair (s : State) (p : Nat) (f : Mac → Mac) : (s.macUpd p f).pair = s.pair := rfl
@[simp] theorem State.macUpd_fq (s : State) (p : Nat) (f : Mac → Mac) : (s.macUpd p f).fq = s.fq := rfl
@[simp] theorem State.macUpd_clu (s : State) (p : Nat) (f : Mac → Mac) : (s.macUpd p f).clu = s.clu := rfl
@[simp] theorem State.macUpd_core (s : State) (p : Nat) (f : Mac → Mac) : (s.macUpd p f).core = s.core := rfl
@[simp] theorem State.macUpd_mig (s : State) (p : Nat) (f : Mac → Mac) : (s.macUpd p f).mig = s.mig := rfl
@[simp] theorem State.macUpd_mbx (s : State) (p : Nat) (f : Mac → Mac) : (s.macUpd p f).mbx = s.mbx := rfl
@[simp] theorem State.macUpd_lck (s : State) (p : Nat) (f : Mac → Mac) : (s.macUpd p f).lck = s.lck := rfl
@[simp] theorem State.macUpd_ril (s : State) (p : Nat) (f : Mac → Mac) : (s.macUpd p f).ril = s.ril := rfl
@[simp] theorem State.macUpd_rilSyncLo (s : State) (p : Nat) (f : Mac → Mac) : (s.macUpd p f).rilSyncLo = s.rilSyncLo := rfl
@[simp] theorem State.macUpd_can (s : State) (p : Nat) (f : Mac → Mac) : (s.macUpd p f).can = s.can := rfl
@[simp] theorem State.macUpd_lp (s : State) (p : Nat) (f : Mac → Mac) : (s.macUpd p f).lp = s.lp := rfl
@[simp] theorem State.macUpd_pool (s : State) (p : Nat) (f : Mac → Mac) : (s.macUpd p f).pool = s.pool := rfl
@[simp] theorem State.macUpd_bank (s : State) (p : Nat) (f : Mac → Mac) : (s.macUpd p f).bank = s.bank := rfl
@[simp] theorem State.macUpd_mem (s : State) (p : Nat) (f : Mac → Mac) : (s.macUpd p f).mem = s.mem := rfl
@[simp] theorem State.macUpd_tok (s : State) (p : Nat) (f : Mac → Mac) : (s.macUpd p f).tok = s.tok := rfl
@[simp] theorem State.macUpd_clk (s : State) (p : Nat) (f : Mac → Mac) : (s.macUpd p f).clk = s.clk := rfl
@[simp] theorem State.macUpd_pwr (s : State) (p : Nat) (f : Mac → Mac) : (s.macUpd p f).pwr = s.pwr := rfl
@[simp] theorem State.macUpd_boot (s : State) (p : Nat) (f : Mac → Mac) : (s.macUpd p f).boot = s.boot := rfl
@[simp] theorem State.macUpd_tph (s : State) (p : Nat) (f : Mac → Mac) : (s.macUpd p f).tph = s.tph := rfl
@[simp] theorem State.macUpd_freeCtr (s : State) (p : Nat) (f : Mac → Mac) : (s.macUpd p f).freeCtr = s.freeCtr := rfl
@[simp] theorem State.macUpd_out (s : State) (p : Nat) (f : Mac → Mac) : (s.macUpd p f).out = s.out := rfl
@[simp] theorem State.macUpd_pending (s : State) (p : Nat) (f : Mac → Mac) : (s.macUpd p f).pending = s.pending := rfl

/-! ### State.plsUpd -/

@[simp] theorem State.plsUpd_variant (s : State) (k : Nat) (f : Pulse → Pulse) : (s.plsUpd k f).variant = s.variant := rfl
@[simp] theorem State.plsUpd_regs (s : State) (k : Nat) (f : Pulse → Pulse) : (s.plsUpd k f).regs = s.regs := rfl
@[simp] theorem State.plsUpd_lock (s : State) (k : Nat) (f : Pulse → Pulse) : (s.plsUpd k f).lock = s.lock := rfl
@[simp] theorem State.plsUpd_cyc (s : State) (k : Nat) (f : Pulse → Pulse) : (s.plsUpd k f).cyc = s.cyc := rfl
@[simp] theorem State.plsUpd_pcie (s : State) (k : Nat) (f : Pulse → Pulse) : (s.plsUpd k f).pcie = s.pcie := rfl
@[simp] theorem State.plsUpd_hst (s : State) (k : Nat) (f : Pulse → Pulse) : (s.plsUpd k f).hst = s.hst := rfl
@[simp] theorem State.plsUpd_cfl (s : State) (k : Nat) (f : Pulse → Pulse) : (s.plsUpd k f).cfl = s.cfl := rfl
@[simp] theorem State.plsUpd_mac (s : State) (k : Nat) (f : Pulse → Pulse) : (s.plsUpd k f).mac = s.mac := rfl
@[simp] theorem State.plsUpd_tb (s : State) (k : Nat) (f : Pulse → Pulse) : (s.plsUpd k f).tb = s.tb := rfl
@[simp] theorem State.plsUpd_cap (s : State) (k : Nat) (f : Pulse → Pulse) : (s.plsUpd k f).cap = s.cap := rfl
@[simp] theorem State.plsUpd_gys (s : State) (k : Nat) (f : Pulse → Pulse) : (s.plsUpd k f).gys = s.gys := rfl
@[simp] theorem State.plsUpd_pair (s : State) (k : Nat) (f : Pulse → Pulse) : (s.plsUpd k f).pair = s.pair := rfl
@[simp] theorem State.plsUpd_fq (s : State) (k : Nat) (f : Pulse → Pulse) : (s.plsUpd k f).fq = s.fq := rfl
@[simp] theorem State.plsUpd_clu (s : State) (k : Nat) (f : Pulse → Pulse) : (s.plsUpd k f).clu = s.clu := rfl
@[simp] theorem State.plsUpd_core (s : State) (k : Nat) (f : Pulse → Pulse) : (s.plsUpd k f).core = s.core := rfl
@[simp] theorem State.plsUpd_mig (s : State) (k : Nat) (f : Pulse → Pulse) : (s.plsUpd k f).mig = s.mig := rfl
@[simp] theorem State.plsUpd_mbx (s : State) (k : Nat) (f : Pulse → Pulse) : (s.plsUpd k f).mbx = s.mbx := rfl
@[simp] theorem State.plsUpd_lck (s : State) (k : Nat) (f : Pulse → Pulse) : (s.plsUpd k f).lck = s.lck := rfl
@[simp] theorem State.plsUpd_ril (s : State) (k : Nat) (f : Pulse → Pulse) : (s.plsUpd k f).ril = s.ril := rfl
@[simp] theorem State.plsUpd_rilSyncLo (s : State) (k : Nat) (f : Pulse → Pulse) : (s.plsUpd k f).rilSyncLo = s.rilSyncLo := rfl
@[simp] theorem State.plsUpd_can (s : State) (k : Nat) (f : Pulse → Pulse) : (s.plsUpd k f).can = s.can := rfl
@[simp] theorem State.plsUpd_lp (s : State) (k : Nat) (f : Pulse → Pulse) : (s.plsUpd k f).lp = s.lp := rfl
@[simp] theorem State.plsUpd_pool (s : State) (k : Nat) (f : Pulse → Pulse) : (s.plsUpd k f).pool = s.pool := rfl
@[simp] theorem State.plsUpd_bank (s : State) (k : Nat) (f : Pulse → Pulse) : (s.plsUpd k f).bank = s.bank := rfl
@[simp] theorem State.plsUpd_mem (s : State) (k : Nat) (f : Pulse → Pulse) : (s.plsUpd k f).mem = s.mem := rfl
@[simp] theorem State.plsUpd_tok (s : State) (k : Nat) (f : Pulse → Pulse) : (s.plsUpd k f).tok = s.tok := rfl
@[simp] theorem State.plsUpd_clk (s : State) (k : Nat) (f : Pulse → Pulse) : (s.plsUpd k f).clk = s.clk := rfl
@[simp] theorem State.plsUpd_pwr (s : State) (k : Nat) (f : Pulse → Pulse) : (s.plsUpd k f).pwr = s.pwr := rfl
@[simp] theorem State.plsUpd_boot (s : State) (k : Nat) (f : Pulse → Pulse) : (s.plsUpd k f).boot = s.boot := rfl
@[simp] theorem State.plsUpd_tph (s : State) (k : Nat) (f : Pulse → Pulse) : (s.plsUpd k f).tph = s.tph := rfl
@[simp] theorem State.plsUpd_freeCtr (s : State) (k : Nat) (f : Pulse → Pulse) : (s.plsUpd k f).freeCtr = s.freeCtr := rfl
@[simp] theorem State.plsUpd_out (s : State) (k : Nat) (f : Pulse → Pulse) : (s.plsUpd k f).out = s.out := rfl
@[simp] theorem State.plsUpd_pending (s : State) (k : Nat) (f : Pulse → Pulse) : (s.plsUpd k f).pending = s.pending := rfl

/-! ### State.capUpd -/

@[simp] theorem State.capUpd_variant (s : State) (k : Nat) (f : Capture → Capture) : (s.capUpd k f).variant = s.variant := rfl
@[simp] theorem State.capUpd_regs (s : State) (k : Nat) (f : Capture → Capture) : (s.capUpd k f).regs = s.regs := rfl
@[simp] theorem State.capUpd_lock (s : State) (k : Nat) (f : Capture → Capture) : (s.capUpd k f).lock = s.lock := rfl
@[simp] theorem State.capUpd_cyc (s : State) (k : Nat) (f : Capture → Capture) : (s.capUpd k f).cyc = s.cyc := rfl
@[simp] theorem State.capUpd_pcie (s : State) (k : Nat) (f : Capture → Capture) : (s.capUpd k f).pcie = s.pcie := rfl
@[simp] theorem State.capUpd_hst (s : State) (k : Nat) (f : Capture → Capture) : (s.capUpd k f).hst = s.hst := rfl
@[simp] theorem State.capUpd_cfl (s : State) (k : Nat) (f : Capture → Capture) : (s.capUpd k f).cfl = s.cfl := rfl
@[simp] theorem State.capUpd_mac (s : State) (k : Nat) (f : Capture → Capture) : (s.capUpd k f).mac = s.mac := rfl
@[simp] theorem State.capUpd_tb (s : State) (k : Nat) (f : Capture → Capture) : (s.capUpd k f).tb = s.tb := rfl
@[simp] theorem State.capUpd_pls (s : State) (k : Nat) (f : Capture → Capture) : (s.capUpd k f).pls = s.pls := rfl
@[simp] theorem State.capUpd_gys (s : State) (k : Nat) (f : Capture → Capture) : (s.capUpd k f).gys = s.gys := rfl
@[simp] theorem State.capUpd_pair (s : State) (k : Nat) (f : Capture → Capture) : (s.capUpd k f).pair = s.pair := rfl
@[simp] theorem State.capUpd_fq (s : State) (k : Nat) (f : Capture → Capture) : (s.capUpd k f).fq = s.fq := rfl
@[simp] theorem State.capUpd_clu (s : State) (k : Nat) (f : Capture → Capture) : (s.capUpd k f).clu = s.clu := rfl
@[simp] theorem State.capUpd_core (s : State) (k : Nat) (f : Capture → Capture) : (s.capUpd k f).core = s.core := rfl
@[simp] theorem State.capUpd_mig (s : State) (k : Nat) (f : Capture → Capture) : (s.capUpd k f).mig = s.mig := rfl
@[simp] theorem State.capUpd_mbx (s : State) (k : Nat) (f : Capture → Capture) : (s.capUpd k f).mbx = s.mbx := rfl
@[simp] theorem State.capUpd_lck (s : State) (k : Nat) (f : Capture → Capture) : (s.capUpd k f).lck = s.lck := rfl
@[simp] theorem State.capUpd_ril (s : State) (k : Nat) (f : Capture → Capture) : (s.capUpd k f).ril = s.ril := rfl
@[simp] theorem State.capUpd_rilSyncLo (s : State) (k : Nat) (f : Capture → Capture) : (s.capUpd k f).rilSyncLo = s.rilSyncLo := rfl
@[simp] theorem State.capUpd_can (s : State) (k : Nat) (f : Capture → Capture) : (s.capUpd k f).can = s.can := rfl
@[simp] theorem State.capUpd_lp (s : State) (k : Nat) (f : Capture → Capture) : (s.capUpd k f).lp = s.lp := rfl
@[simp] theorem State.capUpd_pool (s : State) (k : Nat) (f : Capture → Capture) : (s.capUpd k f).pool = s.pool := rfl
@[simp] theorem State.capUpd_bank (s : State) (k : Nat) (f : Capture → Capture) : (s.capUpd k f).bank = s.bank := rfl
@[simp] theorem State.capUpd_mem (s : State) (k : Nat) (f : Capture → Capture) : (s.capUpd k f).mem = s.mem := rfl
@[simp] theorem State.capUpd_tok (s : State) (k : Nat) (f : Capture → Capture) : (s.capUpd k f).tok = s.tok := rfl
@[simp] theorem State.capUpd_clk (s : State) (k : Nat) (f : Capture → Capture) : (s.capUpd k f).clk = s.clk := rfl
@[simp] theorem State.capUpd_pwr (s : State) (k : Nat) (f : Capture → Capture) : (s.capUpd k f).pwr = s.pwr := rfl
@[simp] theorem State.capUpd_boot (s : State) (k : Nat) (f : Capture → Capture) : (s.capUpd k f).boot = s.boot := rfl
@[simp] theorem State.capUpd_tph (s : State) (k : Nat) (f : Capture → Capture) : (s.capUpd k f).tph = s.tph := rfl
@[simp] theorem State.capUpd_freeCtr (s : State) (k : Nat) (f : Capture → Capture) : (s.capUpd k f).freeCtr = s.freeCtr := rfl
@[simp] theorem State.capUpd_out (s : State) (k : Nat) (f : Capture → Capture) : (s.capUpd k f).out = s.out := rfl
@[simp] theorem State.capUpd_pending (s : State) (k : Nat) (f : Capture → Capture) : (s.capUpd k f).pending = s.pending := rfl

end Sys2Proof.Machine
end

