-- ==== Sys2Proof/Laws/Registers.lean ====
section
/-!
SUPPORT. Laws of register words and fields, of the counters, of a rejected write, and of the units held in vectors.
-/
namespace Sys2Proof.Laws
open Sys2Proof Sys2Proof.Machine

/-! ### Bits -/

theorem bits_lt (w : Word) (hi lo : Nat) : bits w hi lo < 2 ^ (hi + 1 - lo) := Nat.mod_lt _ (Nat.two_pow_pos _)

/-- The bits replaced read as the value put. -/
theorem bits_putBits (w : Word) (hi lo v : Nat) (hl : lo ≤ hi) (hh : hi < 32) :
    bits (putBits w hi lo v) hi lo = v % 2 ^ (hi + 1 - lo) := by
  obtain ⟨n, rfl⟩ : ∃ n, hi = lo + n := ⟨hi - lo, by omega⟩
  have hw := w.isLt
  have e1 : lo + n + 1 - lo = n + 1 := by omega
  have hsum : lo + n + 1 ≤ 32 := by omega
  simp only [bits, putBits, BitVec.toNat_ofNat, e1]
  set P := 2 ^ lo with hP
  set Q := 2 ^ (n + 1) with hQ
  have hPpos : 0 < P := Nat.two_pow_pos _
  have hQpos : 0 < Q := Nat.two_pow_pos _
  set x := w.toNat with hx
  have hdm : x = P * (x / P) + x % P := (Nat.div_add_mod x P).symm
  have hdm2 : x / P = Q * (x / P / Q) + x / P % Q := (Nat.div_add_mod _ Q).symm
  set a := x / P / Q with ha
  set b := x / P % Q with hb
  set c := x % P with hc
  have hc' : c < P := Nat.mod_lt _ hPpos
  have hv : v % Q < Q := Nat.mod_lt _ hQpos
  have hxe : x = P * (Q * a) + P * b + c := by
    rw [hdm, hdm2]; ring
  have hval : x - b * P + v % Q * P = P * (Q * a + v % Q) + c := by
    have : x - b * P = P * (Q * a) + c := by
      rw [hxe, show b * P = P * b by ring]; omega
    rw [this]; ring
  have hPQ : P * Q * 2 ^ (32 - (lo + n + 1)) = 2 ^ 32 := by
    rw [hP, hQ, ← pow_add, ← pow_add]; congr 1; omega
  have hlt : P * (Q * a + v % Q) + c < 2 ^ 32 := by
    have hxlt : P * (Q * a) < 2 ^ 32 := by omega
    have ha' : a < 2 ^ (32 - (lo + n + 1)) := by
      rw [← hPQ, mul_assoc P Q] at hxlt
      have := Nat.lt_of_mul_lt_mul_left hxlt
      exact Nat.lt_of_mul_lt_mul_left this
    have h2 : Q * a + v % Q + 1 ≤ Q * 2 ^ (32 - (lo + n + 1)) := by
      have : Q * (a + 1) ≤ Q * 2 ^ (32 - (lo + n + 1)) := Nat.mul_le_mul_left _ ha'
      rw [Nat.mul_add, Nat.mul_one] at this
      omega
    have h3 : P * (Q * a + v % Q + 1) ≤ P * (Q * 2 ^ (32 - (lo + n + 1))) := Nat.mul_le_mul_left _ h2
    rw [← mul_assoc, hPQ, Nat.mul_add, Nat.mul_one] at h3
    omega
  rw [hval, Nat.mod_eq_of_lt hlt, Nat.mul_add_div hPpos, Nat.div_eq_of_lt hc', Nat.add_zero, Nat.mul_add_mod, Nat.mod_mod]

/-! ### Registers -/

theorem rising_sg (s : State) (r : RegId) (i j : Nat) (v : Word) (h : Rising s.regs) : Rising (s.sg r i j v).regs :=
  rising_sput _ _ _ _ h

theorem rg_sg_self (s : State) (r : RegId) (i j : Nat) (v : Word) (h : Rising s.regs) : (s.sg r i j v).rg r i j = v :=
  sget_sput_self _ _ _ _ h

theorem rg_sg_ne (s : State) (r q : RegId) (i j k l : Nat) (v : Word) (h : Rising s.regs) (hn : q.addr k l ≠ r.addr i j) :
    (s.sg r i j v).rg q k l = s.rg q k l := sget_sput_ne _ _ _ _ _ _ h hn

/-- The registers alone decide what a register holds. -/
theorem rg_congr (s t : State) (r : RegId) (i j : Nat) (h : s.regs = t.regs) : s.rg r i j = t.rg r i j := by
  simp [State.rg, h]

theorem rising_wf (s : State) (x : FRef) (v i j : Nat) (h : Rising s.regs) : Rising (s.wf x v i j).regs := rising_sg _ _ _ _ _ h

theorem rf_wf_self (s : State) (x : FRef) (v i j : Nat) (h : Rising s.regs) (hl : x.lo ≤ x.hi) (hh : x.hi < 32) :
    (s.wf x v i j).rf x i j = v % 2 ^ (x.hi + 1 - x.lo) := by
  simp only [State.rf, State.wf]
  rw [rg_sg_self _ _ _ _ _ h, bits_putBits _ _ _ _ hl hh]

theorem rg_wf_ne (s : State) (x : FRef) (q : RegId) (v i j k l : Nat) (h : Rising s.regs) (hn : q.addr k l ≠ x.id.addr i j) :
    (s.wf x v i j).rg q k l = s.rg q k l := rg_sg_ne _ _ _ _ _ _ _ _ h hn

theorem rising_bump (s : State) (x : FRef) (n i j : Nat) (h : Rising s.regs) : Rising (s.bump x n i j).regs := rising_wf _ _ _ _ _ h

/-- A counter after an event: its count plus `n`, saturating. -/
theorem rf_bump_self (s : State) (x : FRef) (n i j : Nat) (h : Rising s.regs) (hl : x.lo ≤ x.hi) (hh : x.hi < 32) :
    (s.bump x n i j).rf x i j = min (s.rf x i j + n) (2 ^ (x.hi + 1 - x.lo) - 1) := by
  unfold State.bump
  rw [rf_wf_self _ _ _ _ _ h hl hh, Nat.mod_eq_of_lt]
  exact lt_of_le_of_lt (min_le_right _ _) (Nat.sub_lt (Nat.two_pow_pos _) Nat.one_pos)

theorem rg_bump_ne (s : State) (x : FRef) (q : RegId) (n i j k l : Nat) (h : Rising s.regs) (hn : q.addr k l ≠ x.id.addr i j) :
    (s.bump x n i j).rg q k l = s.rg q k l := rg_wf_ne _ _ _ _ _ _ _ _ h hn

/-! ### A rejected write (R13, R17) -/

/-- A rejected write changes registers only. -/
theorem reject_only (s : State) (m : Master) (c : RejCause) (off : Nat) (d : Word) :
    s.reject m c off d = { s with regs := (s.reject m c off d).regs } := by
  unfold State.reject; dsimp only; split <;> rfl

theorem rising_reject (s : State) (m : Master) (c : RejCause) (off : Nat) (d : Word) (h : Rising s.regs) :
    Rising (s.reject m c off d).regs := by
  unfold State.reject; dsimp only
  split
  · exact rising_bump _ _ _ _ _ h
  · exact rising_sg _ _ _ _ _ (rising_sg _ _ _ _ _ (rising_bump _ _ _ _ _ h))

/-! ### Units by number -/

theorem cluOf_cluUpd (s : State) (k n : Nat) (f : Clu → Clu) (h : n < 16) :
    (s.cluUpd k f).cluOf n = if k = n then f (s.cluOf n) else s.cluOf n := by
  simp only [State.cluOf, State.cluUpd, vget, vupd_get]
  split
  · rename_i e; subst e; simp [h]
  · rfl

theorem ctxOf_ctxUpd (s : State) (k n : Nat) (f : Ctx → Ctx) (h : n < 16) :
    (s.ctxUpd k f).ctxOf n = if k = n then f (s.ctxOf n) else s.ctxOf n := by
  unfold State.ctxOf State.ctxUpd
  rw [cluOf_cluUpd _ _ _ _ h]; split <;> rfl

theorem rilOf_rilUpd (s : State) (k n : Nat) (f : Ril → Ril) (h : n < 48) :
    (s.rilUpd k f).rilOf n = if k = n then f (s.rilOf n) else s.rilOf n := by
  simp only [State.rilOf, State.rilUpd, vget, vupd_get]
  split
  · rename_i e; subst e; simp [h]
  · rfl

theorem canOf_canUpd (s : State) (k n : Nat) (f : Can → Can) (h : n < 4) :
    (s.canUpd k f).canOf n = if k = n then f (s.canOf n) else s.canOf n := by
  simp only [State.canOf, State.canUpd, vget, vupd_get]
  split
  · rename_i e; subst e; simp [h]
  · rfl

theorem mbxOf_mbxUpd (s : State) (k n : Nat) (f : Mbx → Mbx) (h : n < 64) :
    (s.mbxUpd k f).mbxOf n = if k = n then f (s.mbxOf n) else s.mbxOf n := by
  simp only [State.mbxOf, State.mbxUpd, vget, vupd_get]
  split
  · rename_i e; subst e; simp [h]
  · rfl

theorem fqOf_fqUpd (s : State) (k n : Nat) (f : FqState → FqState) (h : n < 16) :
    (s.fqUpd k f).fqOf n = if k = n then f (s.fqOf n) else s.fqOf n := by
  simp only [State.fqOf, State.fqUpd, vget, vupd_get]
  split
  · rename_i e; subst e; simp [h]
  · rfl

theorem txOf_txUpd (s : State) (k n : Nat) (f : Ring → Ring) (h : n < 32) :
    (s.txUpd k f).txOf n = if k = n then f (s.txOf n) else s.txOf n := by
  simp only [State.txOf, State.txUpd, vupd_get]
  split
  · rename_i e; subst e; simp [h]
  · rfl

theorem rxOf_rxUpd (s : State) (k n : Nat) (f : Ring → Ring) (h : n < 32) :
    (s.rxUpd k f).rxOf n = if k = n then f (s.rxOf n) else s.rxOf n := by
  simp only [State.rxOf, State.rxUpd, vupd_get]
  split
  · rename_i e; subst e; simp [h]
  · rfl

theorem evrOf_evrUpd (s : State) (k n : Nat) (f : EvRing → EvRing) (h : n < 16) :
    (s.evrUpd k f).evrOf n = if k = n then f (s.evrOf n) else s.evrOf n := by
  simp only [State.evrOf, State.evrUpd, vupd_get]
  split
  · rename_i e; subst e; simp [h]
  · rfl

theorem tbOf_tbUpd (s : State) (k n : Nat) (f : TimeBase → TimeBase) (h : n < 8) :
    (s.tbUpd k f).tbOf n = if k = n then f (s.tbOf n) else s.tbOf n := by
  simp only [State.tbOf, State.tbUpd, vupd_get]
  split
  · rename_i e; subst e; simp [h]
  · rfl

end Sys2Proof.Laws
end

