-- ==== Sys2Proof/Laws/Frames.lean ====
section
/-!
SUPPORT. One lemma for each shared operation of Machine/Ops.lean and for the errors and locks of Machine/CoreOps.lean, which says
everything the operation can change, and that the invariant of the machine holds after each of them.
-/
namespace Sys2Proof.Laws
open Sys2Proof Sys2Proof.Machine Sys2Proof.Safety

/-! ### Registers only -/

theorem onlyRegs_refl (s : State) : onlyRegs s s := rfl

theorem onlyRegs_trans {s t u : State} (h1 : onlyRegs s t) (h2 : onlyRegs t u) : onlyRegs s u := by
  unfold onlyRegs at *
  rw [h2, h1]

theorem onlyRegs_sg (s : State) (r : RegId) (i j : Nat) (v : Word) : onlyRegs s (s.sg r i j v) := rfl
theorem onlyRegs_wf (s : State) (x : FRef) (v i j : Nat) : onlyRegs s (s.wf x v i j) := rfl
theorem onlyRegs_bump (s : State) (x : FRef) (n i j : Nat) : onlyRegs s (s.bump x n i j) := rfl

/-- R13, R17: a rejected write changes registers only. -/
theorem onlyRegs_reject (s : State) (m : Master) (c : RejCause) (off : Nat) (d : Word) : onlyRegs s (s.reject m c off d) := by
  unfold State.reject
  dsimp only
  split <;> rfl

/-! ### Events (R75 to R79) -/

/-- What posting a record and triggering a vector can change: registers, what is sent, the event rings, the pending bits. -/
def postFrame (s t : State) : Prop :=
  t = { s with regs := t.regs, out := t.out, hst := { s.hst with evr := t.hst.evr }, pcie := { s.pcie with pend := t.pcie.pend } } ∧
    (Rising s.regs → Rising t.regs)

theorem postFrame_refl (s : State) : postFrame s s := ⟨rfl, id⟩

theorem postFrame_trans {s t u : State} (h1 : postFrame s t) (h2 : postFrame t u) : postFrame s u := by
  refine ⟨?_, h2.2 ∘ h1.2⟩
  rw [h2.1, h1.1]

theorem postFrame_bump (s : State) (x : FRef) (n i j : Nat) : postFrame s (s.bump x n i j) := ⟨rfl, rising_bump s x n i j⟩
theorem postFrame_emit (s : State) (o : Output) : postFrame s (s.emit o) := ⟨rfl, id⟩
theorem postFrame_evrUpd (s : State) (n : Nat) (f : EvRing → EvRing) : postFrame s (s.evrUpd n f) := ⟨rfl, id⟩

/-- R79: triggering a vector sends its message or sets its pending bit. -/
theorem postFrame_trigger (s : State) (v : Nat) : postFrame s (s.trigger v) := by
  unfold State.trigger
  split
  · exact ⟨rfl, id⟩
  · exact postFrame_emit _ _

theorem postFrame_evrSignal (s : State) (n : Nat) : postFrame s (s.evrSignal n) :=
  postFrame_trans (postFrame_evrUpd s n _) (postFrame_trigger _ _)

theorem postFrame_evrWrite (s : State) (n code obj a b : Nat) : postFrame s (s.evrWrite n code obj a b) := by
  unfold State.evrWrite
  dsimp only
  split
  · exact postFrame_trans (postFrame_trans (postFrame_emit s _) (postFrame_evrUpd _ n _)) (postFrame_evrSignal _ _)
  · exact postFrame_trans (postFrame_emit s _) (postFrame_evrUpd _ n _)

theorem postFrame_evrDrop (s : State) (n : Nat) : postFrame s (s.evrDrop n) :=
  postFrame_trans (postFrame_evrUpd s n _) (postFrame_bump _ _ _ _ _)

theorem postFrame_evrPayLost (s : State) (n : Nat) : postFrame s (s.evrPayLost n) := by
  unfold State.evrPayLost
  dsimp only
  split
  · exact postFrame_trans (postFrame_evrUpd s n _) (postFrame_evrWrite _ _ _ _ _ _)
  · exact postFrame_refl s

/-- R77: a record is written, or dropped and counted. -/
theorem postFrame_postTo (s : State) (n code obj a b : Nat) : postFrame s (s.postTo n code obj a b) := by
  unfold State.postTo
  dsimp only
  split
  · exact postFrame_evrDrop s n
  · split
    · exact postFrame_trans (postFrame_evrPayLost s n) (postFrame_evrDrop _ _)
    · exact postFrame_trans (postFrame_evrPayLost s n) (postFrame_evrWrite _ _ _ _ _ _)

/-- R76: an event of a class. -/
theorem postFrame_post (s : State) (cls code obj a b : Nat) : postFrame s (s.post cls code obj a b) := by
  unfold State.post
  split
  · exact postFrame_postTo s _ _ _ _ _
  · exact postFrame_refl s

theorem postFrame_maintDone (s : State) (a r : Nat) : postFrame s (s.maintDone a r) := postFrame_post s _ _ _ _ _

/-- An event of a class that is not enabled changes nothing (R76). -/
theorem post_disabled (s : State) (cls code obj a b : Nat) (h : (s.rg .HST_EV_EN).getLsbD cls = false) :
    s.post cls code obj a b = s := by
  simp [State.post, h]

/-! ### The Tephra queue (R526 to R528) -/

/-- An entry is put at the end of the queue, or dropped and counted; nothing else changes. -/
theorem tlog_only (s : State) (code cls obj data : Nat) :
    (∃ e, s.tph.queue.length < 16 ∧ s.tlog code cls obj data = { s with tph := { s.tph with queue := s.tph.queue ++ [e] } }) ∨
      s.tlog code cls obj data = { s with tph := { s.tph with dropped := min (s.tph.dropped + 1) 0xFFFF } } := by
  unfold State.tlog
  split
  · exact .inr rfl
  · next h =>
    simp only [Bool.or_eq_true, decide_eq_true_eq, not_or, not_le] at h
    exact .inl ⟨_, h.2, rfl⟩

/-! ### The pool (R491, R369, R280) -/

/-- A write of the mirror or loop engine changes the pool only, below the lock range, or counts an access to a bank that is not ON. -/
theorem poolWr_only (s : State) (a : Nat) (d : List Byte) :
    (s.bankSt (poolBank a) = 0 ∧ s.poolWr a d = { s with pool := wrBytes s.pool a (d.take (lockBase - a)) }) ∨
      (s.bankSt (poolBank a) ≠ 0 ∧ s.poolWr a d = s.bump Fx.MEM_OFF_ACC_COUNT) := by
  unfold State.poolWr
  split
  · next h => exact .inl ⟨h, rfl⟩
  · next h => exact .inr ⟨h, rfl⟩

/-- No write reaches the lock range (R369), and the bytes outside the write are unchanged. -/
theorem poolWr_outside (s : State) (a b : Nat) (d : List Byte) (h : Rising s.pool) (hb : b < a ∨ a + d.length ≤ b ∨ lockBase ≤ b) :
    sget 0#8 b (s.poolWr a d).pool = sget 0#8 b s.pool := by
  obtain ⟨-, e⟩ | ⟨-, e⟩ := poolWr_only s a d
  · rw [e]
    show sget 0#8 b (wrBytes s.pool a (d.take (lockBase - a))) = _
    have hn : ¬ (a ≤ b ∧ b < a + (d.take (lockBase - a)).length) := by
      rw [List.length_take]; omega
    have hg := sget_wrBytes s.pool a b (d.take (lockBase - a)) h
    rw [if_neg hn] at hg
    exact hg
  · rw [e]; rfl

theorem poolWrProt_only (s : State) (a : Nat) (d : List Byte) :
    (s.mirrorProt a d.length = true ∧ s.poolWrProt a d = s.bump Fx.MEM_MIRROR_WREJ_COUNT) ∨
      (s.mirrorProt a d.length = false ∧ s.poolWrProt a d = s.poolWr a d) := by
  unfold State.poolWrProt
  split
  · next h => exact .inl ⟨h, rfl⟩
  · next h => exact .inr ⟨by simpa using h, rfl⟩

/-! ### The maintenance token (R512) -/

/-- A request is granted, waits, or meets a full FIFO and is counted. -/
theorem tokReq_only (s : State) (code : Nat) :
    (s.tok.holder = 0 ∧ s.tok.fifo = [] ∧ (s.tokReq code).tok = ⟨code, []⟩ ∧ onlyRegs { s with tok := ⟨code, []⟩ } (s.tokReq code)) ∨
    (s.tok.fifo.length < 8 ∧ s.tokReq code = { s with tok := { s.tok with fifo := s.tok.fifo ++ [code] } }) ∨
    (8 ≤ s.tok.fifo.length ∧ s.tokReq code = s.bump Fx.MEM_TOKEN_CNT_BUSY) := by
  unfold State.tokReq State.tokAns
  split
  · next h =>
    split at h
    · next g =>
      refine .inl ⟨g.1, g.2, ?_, ?_⟩
      · simp [State.bump, State.wf, State.sg, g.2]
      · simp [onlyRegs, State.bump, State.wf, State.sg, g.2]
    · split at h <;> exact absurd h (by decide)
  · next h =>
    split at h
    · exact absurd h (by decide)
    · split at h
      · next g => exact .inr (.inl ⟨g, rfl⟩)
      · exact absurd h (by decide)
  · next h =>
    split at h
    · exact absurd h (by decide)
    · split at h
      · exact absurd h (by decide)
      · next g => exact .inr (.inr ⟨by omega, rfl⟩)

/-- A release passes the token to the head of the FIFO. -/
theorem tokRelease_only (s : State) :
    (s.tokRelease).tok = ⟨s.tok.fifo.headD 0, s.tok.fifo.tail⟩ ∧
      onlyRegs { s with tok := ⟨s.tok.fifo.headD 0, s.tok.fifo.tail⟩ } s.tokRelease := by
  unfold State.tokRelease
  split
  · next h => simp [h, onlyRegs]
  · next h => simp [h, onlyRegs, State.bump, State.wf, State.sg]

/-! ### Errors and locks (R368 to R371, R486, R487) -/

/-- A row becomes suspect, is suspect already or cannot be, or is lost and counted. -/
theorem suspect_only (s : State) (m row : Nat) :
    s.suspect m row = s ∨ s.suspect m row = s.bump Fx.MEM_ECC_CNT_SUSPECT_LOST ∨
      (s.mem.suspects.length < 16 ∧ s.suspect m row = { s with mem := { s.mem with suspects := s.mem.suspects ++ [(m, row)] } }) := by
  unfold State.suspect
  split
  · exact .inl rfl
  · split
    · exact .inr (.inl rfl)
    · next h => exact .inr (.inr ⟨by omega, rfl⟩)

/-- R370: a read acquires a free lock and answers 0; it reads a held one. -/
theorem lockRead_only (s : State) (id n : Nat) :
    (s.lckOf n = 0 ∧ s.lockRead id n = ({ s with lck := vupd s.lck n fun _ => lockWord id }, 0)) ∨
      (s.lckOf n ≠ 0 ∧ s.lockRead id n = (s, s.lckOf n)) := by
  unfold State.lockRead
  split
  · next h => exact .inl ⟨h, rfl⟩
  · next h => exact .inr ⟨h, rfl⟩

/-- R371: 0 written by the owner frees the lock; every other write is counted. -/
theorem lockWrite_only (s : State) (id n v : Nat) :
    (v = 0 ∧ s.lckOf n = lockWord id ∧ s.lockWrite id n v = { s with lck := vupd s.lck n fun _ => 0 }) ∨
      (¬ (v = 0 ∧ s.lckOf n = lockWord id) ∧ s.lockWrite id n v = s.bump Fx.ENG_LOCK_CNT_BAD) := by
  unfold State.lockWrite
  split
  · next h => exact .inl ⟨h.1, h.2, rfl⟩
  · next h => exact .inr ⟨h, rfl⟩

/-! ### The invariant -/

/-- The invariant reads five parts of the state only. -/
theorem inv_of {s t : State} (h : MachInv s) (hr : Rising s.regs → Rising t.regs) (hp : t.pool = s.pool) (ht : t.tok = s.tok)
    (hq : t.tph.queue = s.tph.queue) (hm : t.mem.suspects = s.mem.suspects) : MachInv t := by
  obtain ⟨h1, h2, h3, h4, h5⟩ := h
  exact ⟨hr h1, hp ▸ h2, ht ▸ h3, hq ▸ h4, hm ▸ h5⟩

theorem inv_sg (s : State) (r : RegId) (i j : Nat) (v : Word) (h : MachInv s) : MachInv (s.sg r i j v) :=
  inv_of h (rising_sg s r i j v) rfl rfl rfl rfl

theorem inv_wf (s : State) (x : FRef) (v i j : Nat) (h : MachInv s) : MachInv (s.wf x v i j) := inv_sg _ _ _ _ _ h

theorem inv_bump (s : State) (x : FRef) (n i j : Nat) (h : MachInv s) : MachInv (s.bump x n i j) := inv_wf _ _ _ _ _ h

theorem inv_emit (s : State) (o : Output) (h : MachInv s) : MachInv (s.emit o) := inv_of h id rfl rfl rfl rfl

theorem inv_freeNext (s : State) (h : MachInv s) : MachInv s.freeNext := inv_of h id rfl rfl rfl rfl

theorem inv_reject (s : State) (m : Master) (c : RejCause) (off : Nat) (d : Word) (h : MachInv s) : MachInv (s.reject m c off d) := by
  have e := onlyRegs_reject s m c off d
  unfold onlyRegs at e
  refine inv_of h (rising_reject s m c off d) ?_ ?_ ?_ ?_ <;> rw [e]

theorem inv_postFrame {s t : State} (f : postFrame s t) (h : MachInv s) : MachInv t := by
  refine inv_of h f.2 ?_ ?_ ?_ ?_ <;> rw [f.1]

theorem inv_post (s : State) (cls code obj a b : Nat) (h : MachInv s) : MachInv (s.post cls code obj a b) :=
  inv_postFrame (postFrame_post s cls code obj a b) h

theorem inv_trigger (s : State) (v : Nat) (h : MachInv s) : MachInv (s.trigger v) := inv_postFrame (postFrame_trigger s v) h

theorem inv_tlog (s : State) (code cls obj data : Nat) (h : MachInv s) : MachInv (s.tlog code cls obj data) := by
  obtain ⟨h1, h2, h3, h4, h5⟩ := h
  obtain ⟨e, hl, eq⟩ | eq := tlog_only s code cls obj data
  · rw [eq]
    exact ⟨h1, h2, h3, by show (s.tph.queue ++ [e]).length ≤ 16; rw [List.length_append]; exact hl, h5⟩
  · rw [eq]; exact ⟨h1, h2, h3, h4, h5⟩

/-- Every write of bytes into the pool keeps its canonical form. -/
theorem inv_wrBytes (s : State) (a : Nat) (d : List Byte) (h : MachInv s) : MachInv { s with pool := wrBytes s.pool a d } :=
  ⟨h.1, scanon_wrBytes s.pool a d h.2.1, h.2.2⟩

/-- The contents of a memory are lost: what is left of the pool keeps its form. -/
theorem wf_filter (m : Cells) (f : Nat × Byte → Bool) (h : Memory.wf m = true) : Memory.wf (m.filter f) = true := scanon_filter _ _ _ f h

theorem inv_memLost (s : State) (m : Nat) (h : MachInv s) : MachInv (s.memLost m) := by
  unfold State.memLost
  split
  · exact ⟨h.1, wf_filter _ _ h.2.1, h.2.2⟩
  · split
    · exact inv_of h (fun x => x) rfl rfl rfl rfl
    · split
      · exact inv_of h (fun x => x) rfl rfl rfl rfl
      · exact h

theorem inv_poolWr (s : State) (a : Nat) (d : List Byte) (h : MachInv s) : MachInv (s.poolWr a d) := by
  obtain ⟨-, e⟩ | ⟨-, e⟩ := poolWr_only s a d
  · rw [e]; exact inv_wrBytes _ _ _ h
  · rw [e]; exact inv_bump _ _ _ _ _ h

theorem inv_poolWrProt (s : State) (a : Nat) (d : List Byte) (h : MachInv s) : MachInv (s.poolWrProt a d) := by
  obtain ⟨-, e⟩ | ⟨-, e⟩ := poolWrProt_only s a d
  · rw [e]; exact inv_bump _ _ _ _ _ h
  · rw [e]; exact inv_poolWr _ _ _ h

theorem inv_tokReq (s : State) (code : Nat) (h : MachInv s) : MachInv (s.tokReq code) := by
  have ⟨h1, h2, h3, h4, h5⟩ := h
  unfold State.tokReq State.tokAns
  split
  · exact inv_bump _ _ _ _ _ ⟨h1, h2, h3, h4, h5⟩
  · next g =>
    refine ⟨h1, h2, ?_, h4, h5⟩
    show (s.tok.fifo ++ [code]).length ≤ 8
    rw [List.length_append]
    split at g
    · exact absurd g (by decide)
    · split at g
      · next l => exact l
      · exact absurd g (by decide)
  · exact inv_bump _ _ _ _ _ h

theorem inv_tokRelease (s : State) (h : MachInv s) : MachInv s.tokRelease := by
  have ⟨h1, h2, h3, h4, h5⟩ := h
  unfold State.tokRelease
  split
  · exact ⟨h1, h2, Nat.zero_le _, h4, h5⟩
  · next g =>
    refine inv_bump _ _ _ _ _ ⟨h1, h2, ?_, h4, h5⟩
    rw [g, List.length_cons] at h3
    exact Nat.le_of_succ_le h3

theorem inv_suspect (s : State) (m row : Nat) (h : MachInv s) : MachInv (s.suspect m row) := by
  have ⟨h1, h2, h3, h4, h5⟩ := h
  obtain e | e | ⟨l, e⟩ := suspect_only s m row
  · rw [e]; exact h
  · rw [e]; exact inv_bump _ _ _ _ _ h
  · rw [e]
    exact ⟨h1, h2, h3, h4, by show (s.mem.suspects ++ [(m, row)]).length ≤ 16; rw [List.length_append]; exact l⟩

theorem inv_eccRetry (s : State) (m off : Nat) (h : MachInv s) : MachInv (s.eccRetry m off) := inv_tlog _ _ _ _ _ (inv_bump _ _ _ _ _ h)

theorem inv_eccFail (s : State) (m off : Nat) (h : MachInv s) : MachInv (s.eccFail m off) :=
  inv_suspect _ _ _ (inv_post _ _ _ _ _ _ (inv_tlog _ _ _ _ _ (inv_bump _ _ _ _ _ h)))

theorem inv_ctxUpd (s : State) (k : Nat) (f : Ctx → Ctx) (h : MachInv s) : MachInv (s.ctxUpd k f) := inv_of h id rfl rfl rfl rfl
theorem inv_cluUpd (s : State) (k : Nat) (f : Clu → Clu) (h : MachInv s) : MachInv (s.cluUpd k f) := inv_of h id rfl rfl rfl rfl
theorem inv_coreUpd (s : State) (k : Nat) (f : PCore → PCore) (h : MachInv s) : MachInv (s.coreUpd k f) := inv_of h id rfl rfl rfl rfl

theorem inv_lockRead (s : State) (id n : Nat) (h : MachInv s) : MachInv (s.lockRead id n).1 := by
  obtain ⟨-, e⟩ | ⟨-, e⟩ := lockRead_only s id n
  · rw [e]; exact inv_of h (fun x => x) rfl rfl rfl rfl
  · rw [e]; exact h

theorem inv_lockWrite (s : State) (id n v : Nat) (h : MachInv s) : MachInv (s.lockWrite id n v) := by
  obtain ⟨-, -, e⟩ | ⟨-, e⟩ := lockWrite_only s id n v
  · rw [e]; exact inv_of h (fun x => x) rfl rfl rfl rfl
  · rw [e]; exact inv_bump _ _ _ _ _ h

theorem inv_cPut (s : State) (k a : Nat) (d : List Byte) (h : MachInv s) : MachInv (s.cPut k a d) := by
  unfold State.cPut
  split
  · exact inv_coreUpd _ _ _ h
  · split
    · exact inv_bump _ _ _ _ _ h
    · exact inv_wrBytes _ _ _ h

/-! ### Taking an exception and the frame of one instruction -/

theorem inv_spill1 (s : State) (k : Nat) (h : MachInv s) : MachInv (s.spill1 k) := inv_ctxUpd _ _ _ (inv_cPut _ _ _ _ h)

theorem inv_fill1 (s : State) (k : Nat) (h : MachInv s) : MachInv (s.fill1 k) := inv_ctxUpd _ _ _ h

theorem inv_spills (s t : State) (k reserve n : Nat) (h : MachInv s) (e : s.spills k reserve n = .ok t) : MachInv t := by
  induction n generalizing s with
  | zero => cases e; exact h
  | succ n ih =>
    unfold State.spills at e
    dsimp only at e
    split at e
    · cases e
    · split at e
      · cases e
      · exact ih _ (inv_spill1 _ _ h) e

theorem inv_fills (s t : State) (k n : Nat) (h : MachInv s) (e : s.fills k n = .ok t) : MachInv t := by
  induction n generalizing s with
  | zero => cases e; exact h
  | succ n ih =>
    unfold State.fills at e
    dsimp only at e
    split at e
    · cases e
    · split at e
      · cases e
      · exact ih _ (inv_fill1 _ _ h) e

theorem inv_haltCore (s : State) (k : Nat) (x : Exc) (pc : Nat) (h : MachInv s) : MachInv (s.haltCore k x pc) := by
  unfold State.haltCore
  have h1 := fun w again => inv_tlog _ 0x50 2 k (x.code * 2 ^ 24 + x.info % 256 * 65536 + pc % 65536) (inv_post _ 1 0x11 k
    (x.code + x.info % 256 * 256) pc (inv_bump _ Fx.ENG_CNT_HALTS 1 k 0 (inv_sg _ .ENG_HALT_ADDR k 0 (BitVec.ofNat 32 x.bad)
    (inv_sg _ .ENG_HALT_PC k 0 (BitVec.ofNat 32 pc) (inv_sg _ .ENG_HALT_CAUSE k 0 w (inv_cluUpd s k (fun c => { c with
      st := 3, failed := c.failed || again, inWindow := false, autoDue := s.rb Fx.ENG_CFG_AUTO_RESTART k && !c.failed && !again,
      ctx := { c.ctx with cause := w, badaddr := x.bad, wait := none } }) h))))))
  dsimp only
  split
  · exact inv_tlog _ _ _ _ _ (h1 _ _)
  · exact h1 _ _

theorem inv_enter (s : State) (k : Nat) (int : Bool) (vector : Nat) (x : Exc) (h : MachInv s) : MachInv (s.enter k int vector x) := by
  unfold State.enter
  dsimp only
  split
  · exact inv_haltCore _ _ _ _ h
  · next e => exact inv_ctxUpd _ _ _ (inv_spills _ _ _ _ _ h e)

theorem inv_raise (s : State) (k : Nat) (x : Exc) (h : MachInv s) : MachInv (s.raise k x) := by
  unfold State.raise
  split
  · exact inv_haltCore _ _ _ _ h
  · exact inv_enter _ _ _ _ _ h

/-- The invariant of what a body answers. -/
def effInv : Eff → Prop
  | .exc s _ => MachInv s
  | .done s => MachInv s
  | .went s => MachInv s
  | .hold s => MachInv s

theorem inv_finish (k : Nat) (x : Eff) (h : effInv x) : MachInv (State.finish k x) := by
  cases x with
  | exc s x => exact inv_raise _ _ _ h
  | done s => exact inv_ctxUpd _ _ _ h
  | went s => exact h
  | hold s => exact h

/-- An instruction keeps the invariant where its body does. -/
theorem inv_core1 (s : State) (k : Nat) (e : CoreEcc) (row : Nat) (body : State → Word → Eff) (h : MachInv s)
    (hb : ∀ t w, MachInv t → effInv (body t w)) : MachInv (s.core1 k e row body) := by
  have hr := inv_eccRetry s (16 + s.physOf k) (s.ctxOf k).pc h
  have h1 : MachInv (if e = .fetchRetry then s.eccRetry (16 + s.physOf k) (s.ctxOf k).pc else s) := by split <;> assumption
  unfold State.core1
  dsimp only
  generalize (if e = .fetchRetry then s.eccRetry (16 + s.physOf k) (s.ctxOf k).pc else s) = s1 at h1 ⊢
  repeat' split
  all_goals first
    | exact h
    | exact inv_raise _ _ _ h
    | exact inv_raise _ _ _ h1
    | exact inv_raise _ _ _ (inv_eccFail _ _ _ h)
    | exact inv_finish _ _ (hb _ _ h1)

end Sys2Proof.Laws
end

