-- ==== Sys2Proof/Laws/Operands.lean ====
section
/-!
SUPPORT. Laws of the Ilutas operand forms (Table 09-3), of the register file (R308, R309), and of the frame of one instruction on the
path that neither traps nor faults (R319).
-/
namespace Sys2Proof.Laws
open Sys2Proof Sys2Proof.Machine Sys2Proof.Safety

/-! ### Fields of the words that the formats build -/

/-- A field of a number below 2^32 is that of the word. -/
theorem bits_ofNat (n hi lo : Nat) (h : n < 2 ^ 32) : bits (BitVec.ofNat 32 n) hi lo = n / 2 ^ lo % 2 ^ (hi + 1 - lo) := by
  simp only [bits, BitVec.toNat_ofNat, Nat.mod_eq_of_lt h]

/-- The fields of a format T word. -/
theorem fields_encT (maj rd ra rb fn : Nat) (h0 : maj < 64) (h1 : rd < 32) (h2 : ra < 32) (h3 : rb < 32) (h4 : fn < 64) :
    fMaj (encT maj rd ra rb fn) = maj ∧ fRd (encT maj rd ra rb fn) = rd ∧ fRa (encT maj rd ra rb fn) = ra ∧
      fRb (encT maj rd ra rb fn) = rb ∧ fFn (encT maj rd ra rb fn) = fn ∧ bits (encT maj rd ra rb fn) 10 6 = 0 := by
  unfold fMaj fRd fRa fRb fFn encT
  refine ⟨?_, ?_, ?_, ?_, ?_, ?_⟩ <;> rw [bits_ofNat _ _ _ (by omega)] <;> norm_num <;> omega

/-- The fields of a format I word. -/
theorem fields_encI (maj rd ra imm : Nat) (h0 : maj < 64) (h1 : rd < 32) (h2 : ra < 32) (h3 : imm < 65536) :
    fMaj (encI maj rd ra imm) = maj ∧ fRd (encI maj rd ra imm) = rd ∧ fRa (encI maj rd ra imm) = ra ∧
      fImm (encI maj rd ra imm) = imm := by
  unfold fMaj fRd fRa fImm encI
  refine ⟨?_, ?_, ?_, ?_⟩ <;> rw [bits_ofNat _ _ _ (by omega)] <;> norm_num <;> omega

/-- The fields of a format F word. -/
theorem fields_encF (maj rd ra lsb wm1 fn : Nat) (h0 : maj < 64) (h1 : rd < 32) (h2 : ra < 32) (h3 : lsb < 32) (h4 : wm1 < 32)
    (h5 : fn < 64) :
    fMaj (encF maj rd ra lsb wm1 fn) = maj ∧ fRd (encF maj rd ra lsb wm1 fn) = rd ∧ fRa (encF maj rd ra lsb wm1 fn) = ra ∧
      fLsb (encF maj rd ra lsb wm1 fn) = lsb ∧ fWm1 (encF maj rd ra lsb wm1 fn) = wm1 ∧ fFn (encF maj rd ra lsb wm1 fn) = fn := by
  unfold fMaj fRd fRa fLsb fWm1 fFn encF
  refine ⟨?_, ?_, ?_, ?_, ?_, ?_⟩ <;> rw [bits_ofNat _ _ _ (by omega)] <;> norm_num <;> omega

/-- The fields of a format X word. -/
theorem fields_encX (maj rd ra rb idx fn : Nat) (h0 : maj < 64) (h1 : rd < 32) (h2 : ra < 32) (h3 : rb < 32) (h4 : idx < 64)
    (h5 : fn < 8) :
    fMaj (encX maj rd ra rb idx fn) = maj ∧ fRd (encX maj rd ra rb idx fn) = rd ∧ fRa (encX maj rd ra rb idx fn) = ra ∧
      fRb (encX maj rd ra rb idx fn) = rb ∧ fIdx (encX maj rd ra rb idx fn) = idx ∧ fXfn (encX maj rd ra rb idx fn) = fn ∧
      bits (encX maj rd ra rb idx fn) 4 3 = 0 := by
  unfold fMaj fRd fRa fRb fIdx fXfn encX
  refine ⟨?_, ?_, ?_, ?_, ?_, ?_, ?_⟩ <;> rw [bits_ofNat _ _ _ (by omega)] <;> norm_num <;> omega

/-- The fields of a format C word. -/
theorem fields_encC (maj rd ra csr fn : Nat) (h0 : maj < 64) (h1 : rd < 32) (h2 : ra < 32) (h3 : csr < 4096) (h4 : fn < 4) :
    fMaj (encC maj rd ra csr fn) = maj ∧ fRd (encC maj rd ra csr fn) = rd ∧ fRa (encC maj rd ra csr fn) = ra ∧
      fCsr (encC maj rd ra csr fn) = csr ∧ fCfn (encC maj rd ra csr fn) = fn ∧ bits (encC maj rd ra csr fn) 3 2 = 0 := by
  unfold fMaj fRd fRa fCsr fCfn encC
  refine ⟨?_, ?_, ?_, ?_, ?_, ?_⟩ <;> rw [bits_ofNat _ _ _ (by omega)] <;> norm_num <;> omega

/-! ### The register file (R308, R309) -/

@[simp] theorem reg_zero (c : Ctx) : c.reg 0 = 0#32 := rfl
@[simp] theorem setReg_zero (c : Ctx) (v : Word) : c.setReg 0 v = c := rfl

theorem winIdx_lt (c : Ctx) (i : Nat) : c.winIdx i < 128 := by
  unfold Ctx.winIdx
  have := Nat.mod_lt (c.st.cwp + i / 8) (show 0 < 16 by decide)
  have := Nat.mod_lt i (show 0 < 8 by decide)
  omega

/-- The 16 windowed registers are different places. -/
theorem winIdx_inj (c : Ctx) (i j : Nat) (hi : i < 16) (hj : j < 16) (h : c.winIdx i = c.winIdx j) : i = j := by
  unfold Ctx.winIdx at h
  omega

/-- A vector read after an update. -/
theorem vget_vupd {α : Type} {n : Nat} (d : α) (v : Vector α n) (i j : Nat) (f : α → α) :
    vget d (vupd v i f) j = if j = i ∧ i < n then f (vget d v i) else vget d v j := by
  unfold vget vupd
  by_cases h : i < n
  · rw [dif_pos h]
    by_cases e : j = i
    · subst e; simp [h]
    · rw [Vector.getElem?_set_ne _ (Ne.symm e)]; simp [e]
  · rw [dif_neg h]; simp [h]

/-- A register read after a write: the value written, and 0 for g0. -/
theorem reg_setReg (c : Ctx) (f g : Nat) (v : Word) (hf : f < 32) (hg : g < 32) :
    (c.setReg f v).reg g = if g = f ∧ f ≠ 0 then v else c.reg g := by
  unfold Ctx.setReg
  by_cases h0 : f = 0
  · simp [h0]
  · rw [if_neg h0]
    by_cases h1 : f < 16
    · rw [if_pos h1]
      unfold Ctx.reg
      by_cases g0 : g = 0
      · subst g0; simp [Ne.symm h0]
      · by_cases g1 : g < 16
        · simp only [g0, g1, if_true, if_false, vget_vupd, h1, and_true, h0, ne_eq, not_false_eq_true]
        · have : g ≠ f := by omega
          simp only [g0, g1, if_false, this, false_and]; rfl
    · rw [if_neg h1]
      unfold Ctx.reg
      by_cases g0 : g = 0
      · subst g0; simp [Ne.symm h0]
      · by_cases g1 : g < 16
        · have : g ≠ f := by omega
          simp only [g0, g1, if_true, if_false, this, false_and]
        · simp only [g0, g1, if_false]
          show vget 0#32 (vupd c.b (c.winIdx (f - 16)) fun _ => v) (c.winIdx (g - 16)) = _
          rw [vget_vupd]
          by_cases e : g = f
          · subst e; simp [winIdx_lt, h0]
          · have : c.winIdx (g - 16) ≠ c.winIdx (f - 16) := fun q => e (by
              have := winIdx_inj c _ _ (by omega) (by omega) q; omega)
            simp [e, this]

/-- A write of a register changes the registers of the context only. -/
theorem setReg_only (c : Ctx) (f : Nat) (v : Word) : c.setReg f v = { c with g := (c.setReg f v).g, b := (c.setReg f v).b } := by
  unfold Ctx.setReg
  split
  · rfl
  · split <;> rfl

@[simp] theorem setReg_pc (c : Ctx) (f : Nat) (v : Word) : (c.setReg f v).pc = c.pc := by rw [setReg_only]
@[simp] theorem setReg_st (c : Ctx) (f : Nat) (v : Word) : (c.setReg f v).st = c.st := by rw [setReg_only]
@[simp] theorem setReg_rep (c : Ctx) (f : Nat) (v : Word) : (c.setReg f v).rep = c.rep := by rw [setReg_only]

/-! ### One instruction (R319) -/

/-- On the path that neither traps nor faults, an instruction is its body, finished. -/
theorem core1_good (s : State) (k : Nat) (e : CoreEcc) (row : Nat) (body : State → Word → Eff) (w : Word)
    (ha : atWord s k w) (he : e ≠ .fetchFail) (hr : insRow w = some row) (hz : zeroBad w = false)
    (hl : loopEndBad w = true → (s.ctxOf k).endsBody = false) :
    s.core1 k e row body = State.finish k (body (fetched s k e) w) := by
  obtain ⟨h1, h2, h3, h4, h5⟩ := ha
  have hlb : (loopEndBad w && (s.ctxOf k).endsBody) = false := by
    cases hx : loopEndBad w
    · rfl
    · simp [hl hx]
  simp [State.core1, h1, h2, h4, h5, he, hr, hz, hlb, fetched, Nat.not_le.mpr h3]

/-- The command of an instruction that is not the one at pc changes nothing. -/
theorem core1_other (s : State) (k : Nat) (e : CoreEcc) (row r : Nat) (body : State → Word → Eff) (w : Word)
    (ha : atWord s k w) (he : e ≠ .fetchFail) (hr : insRow w = some r) (hn : r ≠ row) : s.core1 k e row body = s := by
  obtain ⟨h1, h2, h3, h4, h5⟩ := ha
  simp [State.core1, h1, h2, h4, h5, he, hr, hn, Nat.not_le.mpr h3]

/-- A cluster that does not run executes nothing. -/
theorem core1_idle (s : State) (k : Nat) (e : CoreEcc) (row : Nat) (body : State → Word → Eff) (h : s.coreRuns k = false) :
    s.core1 k e row body = s := by
  simp [State.core1, h]

end Sys2Proof.Laws
end

