-- ==== Sys2Proof/Laws/Switch.lean ====
section
/-!
SUPPORT. What the shared operations of the switch can change: the switch itself, the MACs, registers, what is sent, and the notes of
outcomes in the transmit rings and frame queues; and that they keep the order of the registers and the invariant.
-/
namespace Sys2Proof.Laws
open Sys2Proof Sys2Proof.Machine Sys2Proof.Safety

/-- What an operation of the switch can change. -/
def swFrame (s t : State) : Prop :=
  t = { s with regs := t.regs, out := t.out, cfl := t.cfl, mac := t.mac, hst := { s.hst with txr := t.hst.txr }, fq := t.fq } ∧
    (Rising s.regs → Rising t.regs)

theorem swFrame_refl (s : State) : swFrame s s := ⟨rfl, id⟩

theorem swFrame_trans {s t u : State} (h1 : swFrame s t) (h2 : swFrame t u) : swFrame s u := by
  refine ⟨?_, h2.2 ∘ h1.2⟩
  rw [h2.1, h1.1]

theorem swFrame_ite {s a b : State} {c : Prop} [Decidable c] (ha : swFrame s a) (hb : swFrame s b) : swFrame s (if c then a else b) := by
  split <;> assumption

theorem swFrame_foldl {α : Type} (f : State → α → State) (h : ∀ s a, swFrame s (f s a)) (l : List α) (s : State) :
    swFrame s (l.foldl f s) := by
  induction l generalizing s with
  | nil => exact swFrame_refl s
  | cons a t ih => exact swFrame_trans (h s a) (ih _)

/-- The invariant holds after an operation of the switch. -/
theorem inv_swFrame {s t : State} (f : swFrame s t) (h : MachInv s) : MachInv t := by
  refine inv_of h f.2 ?_ ?_ ?_ ?_ <;> rw [f.1]

theorem swFrame_bump (s : State) (x : FRef) (n i j : Nat) : swFrame s (s.bump x n i j) := ⟨rfl, rising_bump s x n i j⟩
theorem swFrame_emit (s : State) (o : Output) : swFrame s (s.emit o) := ⟨rfl, id⟩
theorem swFrame_outUpd (s : State) (p : Nat) (f : OutPort → OutPort) : swFrame s (s.outUpd p f) := ⟨rfl, id⟩
theorem swFrame_inUpd (s : State) (p : Nat) (f : InPort → InPort) : swFrame s (s.inUpd p f) := ⟨rfl, id⟩
theorem swFrame_gateUpd (s : State) (p : Nat) (f : Gate → Gate) : swFrame s (s.gateUpd p f) := ⟨rfl, id⟩
theorem swFrame_macUpd (s : State) (p : Nat) (f : Mac → Mac) : swFrame s (s.macUpd p f) := ⟨rfl, id⟩
theorem swFrame_frameUpd (s : State) (fid : Nat) (g : Frame → Frame) : swFrame s (s.frameUpd fid g) := ⟨rfl, id⟩
theorem swFrame_cfl (s : State) (c : Cfl) : swFrame s { s with cfl := c } := ⟨rfl, id⟩
theorem swFrame_icnt (s : State) (p k : Nat) : swFrame s (s.icnt p k) := swFrame_bump _ _ _ _ _
theorem swFrame_qcnt (s : State) (p c k : Nat) : swFrame s (s.qcnt p c k) := swFrame_bump _ _ _ _ _

theorem swFrame_mcntAdd (s : State) (p j n : Nat) : swFrame s (s.mcntAdd p j n) := ⟨rfl, id⟩
theorem swFrame_mcnt (s : State) (p j : Nat) : swFrame s (s.mcnt p j) := swFrame_mcntAdd _ _ _ _

/-- R132: a duplicate record. -/
theorem swFrame_dupInsert (s : State) (e : DupEntry) : swFrame s (s.dupInsert e) := by
  unfold State.dupInsert
  dsimp only
  split
  · split
    · exact swFrame_trans (swFrame_cfl s _) (swFrame_bump _ _ _ _ _)
    · exact swFrame_refl s
  · exact swFrame_cfl s _

/-- R110: learning. -/
theorem swFrame_learn (s : State) (p vid src : Nat) : swFrame s (s.learn p vid src) := by
  unfold State.learn
  repeat' split
  all_goals first
    | exact swFrame_refl s
    | exact swFrame_icnt s _ _
    | exact swFrame_cfl s _
    | exact swFrame_trans (swFrame_cfl s _) (swFrame_icnt _ _ _)

/-- R199: a PAUSE frame. -/
theorem swFrame_pause (s : State) (p q : Nat) : swFrame s (s.pause p q) := by
  unfold State.pause
  repeat' split
  all_goals first
    | exact swFrame_refl s
    | exact swFrame_macUpd s _ _
    | exact swFrame_trans (swFrame_emit s _) (swFrame_mcnt _ _ _)

/-- R99: back-pressure. -/
theorem swFrame_bpCheck (s : State) (i : Nat) : swFrame s (s.bpCheck i) :=
  have up := fun (b : Bool) => swFrame_inUpd s i fun x => { x with bp := b }
  swFrame_ite (swFrame_refl s) (swFrame_ite
    (swFrame_ite (swFrame_trans (swFrame_trans (up true) (swFrame_icnt _ _ _)) (swFrame_pause _ _ _))
      (swFrame_trans (up true) (swFrame_icnt _ _ _)))
    (swFrame_ite (swFrame_ite (swFrame_trans (up false) (swFrame_pause _ _ _)) (up false)) (swFrame_refl s)))

/-- R138: a frame is freed. -/
theorem swFrame_release (s : State) (fid : Nat) : swFrame s (s.release fid) := by
  unfold State.release
  repeat' split
  all_goals first
    | exact swFrame_refl s
    | exact swFrame_trans (swFrame_cfl s _) (swFrame_bpCheck _ _)

/-- R137: a reference is dropped. -/
theorem swFrame_unref (s : State) (fid : Nat) : swFrame s (s.unref fid) :=
  swFrame_trans (swFrame_frameUpd s fid _) (swFrame_release _ _)

/-- The outcome of a target is noted where the frame came from. -/
theorem swFrame_note (s : State) (f : Frame) (p : Nat) (r : TxResult) : swFrame s (s.note f p r) := by
  unfold State.note
  split <;> exact ⟨rfl, id⟩

theorem swFrame_pushQueue (s : State) (fid p c : Nat) (e : QEntry) : swFrame s (s.pushQueue fid p c e) :=
  swFrame_trans (swFrame_cfl s _) (swFrame_qcnt _ _ _ _)

theorem swFrame_countLaunch (s : State) (l : Option (Nat × Int)) (status : Nat) : swFrame s (s.countLaunch l status) := by
  unfold State.countLaunch
  repeat' split
  all_goals first
    | exact swFrame_refl s
    | exact swFrame_bump s _ _ _ _

theorem swFrame_wakeLpi (s : State) (p : Nat) : swFrame s (s.wakeLpi p) := by
  unfold State.wakeLpi
  split
  · exact swFrame_macUpd s _ _
  · exact swFrame_refl s

/-- R94: a frame is offered to an output. -/
theorem swFrame_offer (s : State) (fid p : Nat) (cut : Bool) : swFrame s (s.offer fid p cut) := by
  unfold State.offer
  split
  · exact swFrame_refl s
  · dsimp only
    refine swFrame_ite (swFrame_trans (swFrame_qcnt s _ _ _) (swFrame_note _ _ _ _)) (swFrame_ite (swFrame_note s _ _ _)
      (swFrame_ite (swFrame_trans (swFrame_bump s _ _ _ _) (swFrame_note _ _ _ _))
        (swFrame_ite (swFrame_trans (swFrame_qcnt s _ _ _) (swFrame_note _ _ _ _)) ?_)))
    split
    · exact swFrame_trans (swFrame_countLaunch s _ _) (swFrame_note _ _ _ _)
    · exact swFrame_ite (swFrame_trans (swFrame_mcnt s _ _) (swFrame_note _ _ _ _))
        (swFrame_ite (swFrame_trans (swFrame_pushQueue s _ _ _ _) (swFrame_wakeLpi _ _))
          (swFrame_ite (swFrame_trans (swFrame_cfl s _) (swFrame_frameUpd _ _ _))
            (swFrame_trans (swFrame_qcnt s _ _ _) (swFrame_note _ _ _ _))))

/-- R143: the residue entries of a queue are retried. -/
theorem swFrame_retryResidue (s : State) (p c n : Nat) : swFrame s (s.retryResidue p c n) := by
  induction n generalizing s with
  | zero => exact swFrame_refl s
  | succ n ih =>
    unfold State.retryResidue
    split
    · exact swFrame_refl s
    · split
      · exact swFrame_cfl s _
      · split
        · exact swFrame_trans (swFrame_trans (swFrame_trans (swFrame_trans (swFrame_cfl s _) (swFrame_pushQueue _ _ _ _ _))
            (swFrame_frameUpd _ _ _)) (swFrame_wakeLpi _ _)) (ih _)
        · exact swFrame_refl s

/-- R137, R138: a frame leaves a queue. -/
theorem swFrame_dequeue (s : State) (fid p c : Nat) (r : TxResult) : swFrame s (s.dequeue fid p c r) := by
  unfold State.dequeue
  split
  · exact swFrame_refl s
  · exact swFrame_trans (swFrame_trans (swFrame_trans (swFrame_cfl s _) (swFrame_note _ _ _ _)) (swFrame_unref _ _))
      (swFrame_retryResidue _ _ _ _)

theorem swFrame_gateSeek (s : State) (p : Nat) : swFrame s (s.gateSeek p) := by
  unfold State.gateSeek
  dsimp only
  split
  · exact swFrame_refl s
  · exact swFrame_gateUpd s _ _

theorem swFrame_gateSeekAll (s : State) (n : Nat) : swFrame s (s.gateSeekAll n) := by
  refine swFrame_foldl _ (fun s p => ?_) _ _
  split
  · exact swFrame_gateSeek s p
  · exact swFrame_refl s

/-- R171: the heads of a class queue are examined. -/
theorem swFrame_examine (s : State) (p c n : Nat) : swFrame s (s.examine p c n) := by
  induction n generalizing s with
  | zero => exact swFrame_refl s
  | succ n ih =>
    unfold State.examine
    split
    · exact swFrame_refl s
    · split
      · exact swFrame_refl s
      · split
        · exact swFrame_refl s
        · split
          · exact swFrame_refl s
          · dsimp only
            split
            · exact swFrame_trans (swFrame_trans (swFrame_countLaunch s _ _) (swFrame_dequeue _ _ _ _ _)) (ih _)
            · exact swFrame_trans (swFrame_trans (swFrame_qcnt s _ _ _) (swFrame_dequeue _ _ _ _ _)) (ih _)

theorem swFrame_examineAll (s : State) (p : Nat) : swFrame s (s.examineAll p) :=
  swFrame_foldl _ (fun s c => swFrame_examine s p c _) _ _

theorem swFrame_startFrame (s : State) (p c : Nat) : swFrame s (s.startFrame p c) := by
  unfold State.startFrame
  split
  · exact swFrame_refl s
  · split
    · exact swFrame_refl s
    · exact swFrame_trans (swFrame_outUpd s _ _) (swFrame_emit _ _)

/-- R114: an output selects its next frame. -/
theorem swFrame_select (s : State) (p : Nat) : swFrame s (s.select p) := by
  refine swFrame_trans (swFrame_examineAll s p) ?_
  unfold State.select
  dsimp only
  refine swFrame_ite (swFrame_refl _) ?_
  split
  · exact swFrame_startFrame _ _ _
  · split
    · exact swFrame_ite (swFrame_trans (swFrame_outUpd _ _ _) (swFrame_emit _ _)) (swFrame_refl _)
    · exact swFrame_refl _

theorem swFrame_offerAll (s : State) (fid : Nat) (ts : List Nat) : swFrame s (s.offerAll fid ts) :=
  swFrame_trans (swFrame_foldl _ (fun s p => swFrame_offer s fid p false) ts s) (swFrame_release _ _)

/-- R129, R131: sequence numbers of a redundancy pair. -/
theorem swFrame_redSend (s : State) (fid : Nat) (ts : List Nat) : swFrame s (s.redSend fid ts) := by
  unfold State.redSend
  split
  · exact swFrame_refl s
  · refine swFrame_foldl _ (fun s i => ?_) _ _
    dsimp only
    repeat' split
    all_goals first
      | exact swFrame_refl s
      | exact swFrame_bump s _ _ _ _
      | exact swFrame_trans (swFrame_cfl s _) (swFrame_frameUpd _ _ _)
      | exact swFrame_trans (swFrame_trans (swFrame_cfl s _) (swFrame_frameUpd _ _ _)) (swFrame_dupInsert _ _)

/-- R91, R94: a complete frame is stored and offered, or refused. -/
theorem swFrame_storeComplete (s : State) (f : Frame) (ts : List Nat) : swFrame s (s.storeComplete f ts) := by
  unfold State.storeComplete
  dsimp only
  split
  · exact swFrame_trans (swFrame_trans (swFrame_trans (swFrame_trans (swFrame_trans (swFrame_cfl s _) (swFrame_icnt _ _ _))
      (swFrame_bpCheck _ _)) (swFrame_redSend _ _ _)) (swFrame_offerAll _ _ _)) (swFrame_ite (swFrame_refl _) (swFrame_learn _ _ _ _))
  · exact swFrame_trans (swFrame_icnt s _ _) (swFrame_foldl _ (fun s p => swFrame_note s f p _) _ _)

end Sys2Proof.Laws
end

