-- ==== Sys2Proof/Tests/Slice0.lean ====
section
/-!
SUPPORT. Tests: the checks of WellFormed on ill-formed commands, worked values of the spec, and, for each statement of Obligations.lean,
a state and operands that meet its hypotheses (test_meets_<statement>), the clauses of one statement side by side.
-/
namespace Sys2Proof.Tests
open Sys2Proof Sys2Proof.Machine Sys2Proof.Safety
set_option Elab.async false

/-! ### States -/

/-- The device in RUN with every clock. -/
def run : State :=
  { State.reset with
    lock := true, clk := { ClkU.reset with started := 0xFF, lock := 0xFF, hse := true }, boot := { State.reset.boot with st := 3 } }

/-- The LX1608, which has no P0 and P1, no pair unit and no loop engine. -/
def small : State := { State.reset with variant := .lx1608 }

/-! ### The machine as a whole, registers and buses (spec/00) -/

theorem test_meets_StepServesFrontCommand :
    ({ run with pending := [.cycleTick] } : State).pending = .cycleTick :: [] ∧ run.pending = [] := by decide +kernel

/-- The invariant, in a state with something in every part of it. -/
theorem test_meets_InvariantKept :
    MachInv { run with
      regs := [(4, 1#32), (8, 2#32)], pool := [(1, 5#8), (9, 6#8)], tok := ⟨3, [1, 2, 4, 5, 6, 1, 2, 4]⟩,
      mem := { run.mem with suspects := [(0, 3)] } } := by unfold MachInv regsRising; decide +kernel

theorem test_meets_FeatRegisters :
    ((0x804#26).toNat, (0x5F : Nat)) ∈ [(0x804, 0x5F), (0x808, 0x40300C10), (0x80C, 0xFFFF), (0x810, 0xFFFFFF)] ∧
      run.variant = .lx2416 ∧ small.variant = .lx1608 := by decide +kernel

/-- A write that is rejected, with a capture held and with none. -/
theorem test_meets_RejectedWrites :
    regsRising run ∧ run.writeAns (0x20000#26).toNat 2 (0#64).toNat = .rejected .width ∧ run.rb Fx.GLB_REJ_ADDR_VALID = false ∧
      regsRising (run.sg .GLB_REJ_ADDR 0 0 0x80000000#32) ∧
      (run.sg .GLB_REJ_ADDR 0 0 0x80000000#32).rb Fx.GLB_REJ_ADDR_VALID = true ∧
      (run.sg .GLB_REJ_ADDR 0 0 0x80000000#32).writeAns (0x20000#26).toNat 2 (0#64).toNat = .rejected .width := by
  unfold regsRising; decide +kernel

/-- A word of an absent unit; and one word for each cause of R14: TB_GUARD of time base 0, whose value lies in 10 to 1000000. -/
theorem test_meets_RejectOrder :
    (busPlace (0x8C000#26).toNat = .reg ∧ regAt (0x8C000#26).toNat = some (.LOOP_CFG, 0, 0) ∧ absentReg small.variant .LOOP_CFG 0 = true) ∧
      (regHere run (0x40030#26).toNat .TB_GUARD 0 0 ∧ regHere State.reset (0x40030#26).toNat .TB_GUARD 0 0) ∧
      aligned32 (0x40030#26).toNat 2 = false ∧ aligned32 (0x40032#26).toNat 4 = false ∧ aligned32 (0x40030#26).toNat 4 = true ∧
      RegId.TB_GUARD ∉ [RegId.TPH_WIN, .MEM_LOCK, .CAN_RAM_WIN, .BOOT_FUSE_CMD] ∧ (run.lock = true ∧ hasRwl .TB_GUARD = true) ∧
      State.reset.lock = false ∧ rsvBitBad .TB_GUARD 0 0x100000#32 = true ∧
      (rsvBitBad .TB_GUARD 0 9#32 = false ∧ encBadFields .TB_GUARD 9#32 = true) ∧
      live run ∧ busPlace (0x3FFFFFC#26).toNat = .none := by
  unfold regHere live; and_intros <;> decide +kernel

/-- MEM_OFF_ACC, all RC; and TB_GUARD written before RUN at the two ends of its range. -/
theorem test_meets_RegisterAccessClasses :
    (regsRising run ∧ regHere run (0xA005C#26).toNat .MEM_OFF_ACC 0 0 ∧ aligned32 (0xA005C#26).toNat 4 = true ∧
      RegId.MEM_OFF_ACC ≠ .GLB_REJ_CNT ∧ RegId.MEM_OFF_ACC.defn.flds ≠ [] ∧ (∀ f ∈ RegId.MEM_OFF_ACC.defn.flds, f.acc = .rc)) ∧
    regHere State.reset (0x40030#26).toNat .TB_GUARD 0 0 ∧ State.reset.lock = false ∧ State.reset.regCause .TB_GUARD 0 0 10#32 = none ∧
    State.reset.regCause .TB_GUARD 0 0 1000000#32 = none ∧ aligned32 (0x40030#26).toNat 4 = true ∧
    (∀ b : Fin 32, (fieldMask RegId.TB_GUARD.defn.flds).testBit b = false → (State.reset.rg .TB_GUARD 0 0).getLsbD b = false) := by
  unfold regsRising regHere; and_intros <;> decide +kernel

/-- The last table word that is no mask word, the first offset beyond the table, and the gaps around the pending bits. -/
theorem test_meets_QspiAndBar2 :
    run.boot.st ≠ 0 ∧ ((0x3F8#12).toNat < 0x400 ∧ (0x3F8#12).toNat % 4 = 0 ∧ (0x3F8#12).toNat / 4 % 4 ≠ 3) ∧ 0x400 ≤ (0x400#12).toNat ∧
      (0x400 ≤ (0x7FC#12).toNat ∧ (0x7FC#12).toNat < 0x800) ∧ 0x808 ≤ (0x808#12).toNat ∧ run.pcie.pend = 0#64 := by
  and_intros <;> decide +kernel

/-! ### The cycle and the pool (spec/01) -/

/-- Time base 1, which GLB_CYC_CFG names from reset, guarded and the source of the cycle tick. -/
def cyc : State :=
  let s := (({ run with cyc := { run.cyc with ticks := 1 } } : State).tbUpd 1 fun t => { t with oosCmd := false }).wf Fx.TB_CFG_GUARDED 1 1
  (s.wf Fx.GLB_CYC_CFG_SRC 1).wf Fx.GLB_CYC_CFG_DIV 1

/-- Cluster 0 runs and is bound to the cycle; cluster 1 has the event latched already. -/
def cycBound : State :=
  let s := cyc.cluUpd 0 fun c => { c with st := 1 }
  let s := (s.cluUpd 1 fun c => { c with st := 1, ctx := { c.ctx with latched := 1 } }).wf Fx.ENG_CFG_CYC_BIND 1 0
  s.wf Fx.ENG_CFG_CYC_BIND 1 1

theorem test_meets_CycleTickAndEvent :
    cyc.tickOk = true ∧ run.rf Fx.GLB_CYC_CFG_SRC = 0 ∧
      (cycBound.cycleOn = true ∧ cycBound.cyc.coreDone = false ∧ cycBound.cycleBound 2 = false ∧ cycBound.cycleBound 0 = true ∧
        (cycBound.ctxOf 0).latched.testBit 0 = false ∧ cycBound.cycleBound 1 = true ∧ (cycBound.ctxOf 1).latched.testBit 0 = true) ∧
      ({ cyc with cyc := { cyc.cyc with coreDone := true } } : State).cyc.coreDone = true := by
  and_intros <;> decide +kernel

/-- The last word below the lock range, and two places in the order of R32. -/
theorem test_meets_PoolBatches :
    scanon (0#8) 0 run.pool = true ∧ run.mem.reqs = [] ∧ run.bankSt (15 : Fin 16) = 0 ∧
      (15 : Fin 16).val * 131072 + (0x3FDF#14).toNat * 8 + 8 ≤ 0x1FFF00 ∧
      run.mirrorProt ((15 : Fin 16).val * 131072 + (0x3FDF#14).toNat * 8) 8 = false ∧
      placeRank .mirror < placeRank (.host 0) ∧ placeRank .loop < placeRank (.core 0 0) := by
  and_intros <;> decide +kernel

/-! ### The host rings (spec/02) -/

/-- The host path is on: TX ring 2 and RX ring 0 of 16 entries, event ring 0 of 16 entries with MOD_CNT 2. -/
def host : State :=
  { ((((run.sg .HST_CTL 0 0 1#32).sg .HST_TXR_CFG 2 0 9#32).sg .HST_RXR_CFG 0 0 9#32).sg .HST_EVR_CFG 0 0 0x2009#32) with
    pcie := { Pcie.reset with linkUp := true, bme := true } }

/-- A descriptor from its bytes that are not 0. -/
def desc (l : List (Nat × Nat)) : List Byte := (List.range 32).map fun i => BitVec.ofNat 8 (((l.find? (·.1 == i)).map (·.2)).getD 0)

/-- 100 bytes to P2, FIRST and LAST; and with TS_REQ. -/
def txDesc : List Byte := desc [(8, 100), (10, 3), (12, 4)]
def tsDesc : List Byte := desc [(8, 100), (10, 0x0B), (12, 4)]

def polling : State := { host with hst := { host.hst with inFlight := true } }

theorem test_meets_DoorbellPolling :
    (hostPolls host ∧ host.lock = true ∧ host.pwr.state = 0 ∧ host.hst.inFlight = false ∧ host.pollLines ≠ []) ∧
      (let s := host.sg .HST_TXR_CFG 2 0 8#32 |>.sg .HST_RXR_CFG 0 0 8#32 |>.sg .HST_EVR_CFG 0 0 8#32; hostPolls s ∧ s.pollLines = []) ∧
      (hostPolls polling ∧ (List.replicate 80 (0#32)).length = 80 ∧ polling.hst.inFlight = true ∧ polling.hst.pollTry = 0 ∧
        regsRising polling ∧ polling.rb Fx.HST_TXR_CFG_EN (2 : Fin 32) = true ∧ (polling.txOf 2).halted = false ∧
        polling.rb Fx.HST_TXR_CFG_EN (3 : Fin 32) = false) := by
  unfold hostPolls regsRising; and_intros <;> decide +kernel

theorem test_meets_HostReadsStopOrFail :
    (live host ∧ host.hst.quiesced = false ∧ host.hst.quiescing = false) ∧
      ({ host.hst with quiescing := true } : Hst).quiescing = true ∧
      (let s := ({ host with hst := { host.hst with quiesced := true } } : State)
       live s ∧ s.hst.quiesced = true ∧ (∀ n : Fin 32, (s.txOf n).work = [] ∧ (s.txOf n).dirty = false ∧ (s.rxOf n).dirty = false) ∧
         ∀ n : Fin 16, (s.evrOf n).dirty = false) ∧
      (live run ∧ run.pcie.linkUp = false ∧ run.pcie.bme = false) ∧
      (let s := ({ host with pcie := { host.pcie with bme := false } } : State)
       live s ∧ s.rb Fx.HST_CTL_EN = true ∧ s.pcie.linkUp = true ∧ s.pcie.bme = false ∧ s.pcie.pend = 0#64) ∧
      (let s := ({ host with hst := { host.hst with dmaOff := true } } : State)
       live s ∧ s.hst.dmaOff = true) ∧
      (hostPolls polling ∧ polling.hst.inFlight = true ∧ polling.hst.pollTry = 0) ∧
      (let s := ({ polling with hst := { polling.hst with pollTry := 1 } } : State)
       hostPolls s ∧ s.hst.inFlight = true ∧ s.hst.pollTry = 1 ∧ regsRising s) ∧
      (let s := host.txUpd 2 fun r => { r with tail := 1, fetchTry := 1 }
       hostPolls s ∧ s.rb Fx.HST_TXR_CFG_EN (2 : Fin 32) = true ∧ (s.txOf 2).halted = false ∧ s.txPosted 2 ≠ 0 ∧
         (s.txOf 2).fetchTry = 1 ∧ regsRising s) := by
  unfold hostPolls live regsRising; and_intros <;> decide +kernel

/-- TX ring 2 with one descriptor posted at its last entry. -/
def tx1 : State := host.txUpd 2 fun r => { r with cidx := 15, tail := 0 }

theorem test_meets_TransmitPath :
    (hostPolls tx1 ∧ tx1.rb Fx.HST_TXR_CFG_EN (2 : Fin 32) = true ∧ (tx1.txOf 2).halted = false ∧ (tx1.txOf 2).await = false ∧
      (tx1.inOf 14).bp = false ∧ (tx1.txOf 2).work = [] ∧ (tx1.txOf 2).prefetch = [] ∧ (tx1.txOf 2).fetchTry = 0 ∧
      (tx1.txOf 2).cidx < tx1.txN 2 ∧ (tx1.txOf 2).tail = ((tx1.txOf 2).cidx + 1) % tx1.txN 2 ∧ 16 ≤ tx1.txN 2 ∧ oneDesc txDesc) ∧
      (let s := (tx1.wf Fx.CFL_CTL_EN 1).txUpd 2 fun r => { r with work := [TxEntry.mk 15 [txDesc] .reading [] 0] }
       hostPolls s ∧ s.rb Fx.CFL_CTL_EN = true ∧ (s.txOf 2).work = [TxEntry.mk 15 [txDesc] .reading [] 0] ∧ (s.txOf 2).bufTry = 0 ∧
         (List.replicate 100 (0 : Byte)).length = dLen txDesc ∧ dSwitch txDesc = false ∧ dLaunch txDesc = false) ∧
      (let e : TxEntry := .mk 15 [tsDesc] (.inSwitch 0) [(2, .sent false (some 29000025))] 0
       let s := tx1.txUpd 2 fun r => { r with work := [e] }
       hostPolls s ∧ (s.txOf 2).work = e :: [] ∧ e.descs = [tsDesc] ∧ oneDesc tsDesc ∧ e.phase = .inSwitch 0 ∧
         e.results = [(2, .sent false (some 29000025))] ∧ e.first < s.txN 2 ∧ dTsReq tsDesc = true ∧ dEv tsDesc = false ∧
         s.rb Fx.HST_TXR_CFG_EV_ALL (2 : Fin 32) = false) ∧
      (∀ ph ∈ [TxPhase.inSwitch 1, .reading],
        let s := tx1.txUpd 2 fun r => { r with work := [TxEntry.mk 15 [txDesc] ph [] 0] }
        hostPolls s ∧ (s.txOf 2).work = TxEntry.mk 15 [txDesc] ph [] 0 :: [] ∧ oneDesc txDesc) := by
  unfold hostPolls oneDesc; and_intros <;> decide +kernel

/-- A frame of `n` bytes from P3 that waits at SP14, and a descriptor of 256 bytes posted at the last entry of RX ring 0. -/
def rxFrame (n : Nat) : Delivered := ⟨List.replicate n 0, 3, 0, 2, 0x4001, some 777, 3, false⟩
def rx1 (n : Nat) : State :=
  { (host.rxUpd 0 fun r => { r with cidx := 15, tail := 0 }) with cfl := { host.cfl with sink := host.cfl.sink.set 0 [rxFrame n] } }
def rxDesc : List Byte := desc [(9, 1)]

theorem test_meets_ReceiveDelivery :
    ((rx1 256).sinkOf 0 = rxFrame 256 :: [] ∧ (rx1 256).noMaster = false ∧ (rx1 256).hst.dmaOff = false ∧ live (rx1 256)) ∧
      ((rx1 256).sg .HST_CTL 0 0 0#32).rb Fx.HST_CTL_EN = false ∧
      (let s := (rx1 256).wf Fx.HST_RX_STEER_EN 0 (8 * 3 + 2)
       s.sinkOf 0 = rxFrame 256 :: [] ∧ s.rb Fx.HST_RX_STEER_EN (8 * 3 + 2) = false) ∧
      (∀ n ∈ [256, 257], let s := (rx1 n).wf Fx.HST_RX_STEER_EN 1 (8 * 3 + 2)
       s.sinkOf 0 = rxFrame n :: [] ∧ s.noMaster = false ∧ s.hst.dmaOff = false ∧ s.rb Fx.HST_CTL_EN = true ∧ s.rb Fx.HST_RX_STEER_EN (8 * 3 + 2) = true ∧
         s.rf Fx.HST_RX_STEER_RING (8 * 3 + 2) = 0 ∧ s.rb Fx.HST_RXR_CFG_EN 0 = true ∧ (s.rxOf 0).halted = false ∧
         s.hst.quiesced = false ∧ s.hst.quiescing = false ∧ (s.rxOf 0).await = false ∧ (s.rxOf 0).fetchTry = 0 ∧
         (s.rxOf 0).cidx < s.rxN 0 ∧ 16 ≤ s.rxN 0 ∧ (s.rxOf 0).tail = ((s.rxOf 0).cidx + 1) % s.rxN 0 ∧
         rxDescBad rxDesc = false ∧ (rxFrame n).ecc = false ∧ (rxFrame n).stamp = some 777 ∧ s.rb Fx.HST_RXR_CFG_EV_ALL 0 = false ∧
         (s.wf Fx.HST_RXR_CFG_EN 0 0).rb Fx.HST_RXR_CFG_EN 0 = false) ∧
      (rxFrame 256).data.length ≤ dLen rxDesc ∧ dLen rxDesc < (rxFrame 257).data.length := by
  unfold live; and_intros <;> decide +kernel

theorem test_meets_RingRecovery :
    (live host ∧ (host.txOf (2 : Fin 32)).halted = false ∧ hostPolls host ∧ host.hst.quiesced = false) ∧
      (let s := host.txUpd 2 fun r => { r with halted := true, dirty := true }
       live s ∧ (s.txOf (2 : Fin 32)).halted = true ∧ hostPolls s ∧ (s.txOf (2 : Fin 32)).dirty = true) := by
  unfold live hostPolls; and_intros <;> decide +kernel

theorem test_meets_EventRecords :
    (host.sg .HST_EV_EN 0 0 0#32 |>.rg .HST_EV_EN).getLsbD (0 : Fin 8).val = false ∧
      (let s := host.sg .HST_EV_EN 0 0 1#32
       (s.rg .HST_EV_EN).getLsbD (0 : Fin 8).val = true ∧ regsRising s ∧ bits (s.rg .HST_EV_ROUTE) 3 0 = 0 ∧
         s.evrWritable 0 = true ∧ s.evrFull 0 = false ∧ (s.evrOf 0).owed = false ∧
         (s.evrOf 0).unsig + 1 < s.rf Fx.HST_EVR_CFG_MOD_CNT 0) ∧
      (let s := (host.sg .HST_EV_EN 0 0 1#32).evrUpd 0 fun r => { r with pidx := 14, head := 15 }
       (s.rg .HST_EV_EN).getLsbD (0 : Fin 8).val = true ∧ regsRising s ∧ s.evrFull 0 = true) ∧
      (let s := (host.wf Fx.HST_EVR_MOD_US 7 0).evrUpd 0 fun r => { r with oldest := some 0 }
       let s := s.tbUpd 0 fun t => { t with raw := 7000 * 2 ^ 32 }
       (s.evrOf (0 : Fin 16)).oldest = some 0 ∧ s.rf Fx.HST_EVR_MOD_US (0 : Fin 16) ≠ 0 ∧
         0 + s.rf Fx.HST_EVR_MOD_US (0 : Fin 16) * 1000 ≤ s.tbNs 0) := by
  unfold regsRising; and_intros <;> decide +kernel

/-! ### The switch (spec/03, spec/04) -/

/-- The key 00-1A-2B-3C-4D-5E in FID 100 (the worked value of spec/03), its entry, and one of another address of the same bucket. -/
def keyed (s : State) : State := (s.sg .CFL_FDB_KEY_HI 0 0 0x0064001A#32).sg .CFL_FDB_KEY_LO 0 0 0x2B3C4D5E#32
def entry (static : Bool) : FdbEntry := ⟨0x001A2B3C4D5E, 100, 4, static, 3⟩
def other (k : Nat) (static : Bool) (age : Nat) : FdbEntry := ⟨0x001A2B3C4D5E + 0x1000001 * (k + 1), 100, 4, static, age⟩
def withFdb (s : State) (l : List (Nat × FdbEntry)) : State := { s with cfl := { s.cfl with fdb := l } }
def base0 : Nat := 4 * 0x4D4
/-- Before RUN; the address in way 2, in no way with way 3 free, in no way of a full bucket, and in no way of a static one. -/
def fdbIn : State := withFdb (keyed State.reset) [(base0, other 0 true 0), (base0 + 2, entry false)]
def fdbFree3 : State := withFdb (keyed State.reset) [(base0, other 0 true 0), (base0 + 1, other 1 true 0), (base0 + 2, other 2 false 1)]
def fdbFull : State :=
  withFdb (keyed State.reset) [(base0, other 0 true 0), (base0 + 1, other 1 false 3), (base0 + 2, other 2 false 1), (base0 + 3, other 3 false 1)]
def fdbStatic : State :=
  withFdb (keyed State.reset) [(base0, other 0 true 0), (base0 + 1, other 1 true 0), (base0 + 2, other 2 true 0), (base0 + 3, other 3 true 0)]
def fdbBusy (s : State) : State := { s with cfl := { s.cfl with fdbBusy := true } }

theorem test_fdb_bucket : bucketOf 0x001A2B3C4D5E 100 = 0x4D4 ∧ fdbBucket 0x001A2B3C4D5E 100 = 0x4D4 := by decide +kernel

theorem test_meets_ForwardingAndVlanTables :
    (live fdbIn ∧ fdbIn.cfl.fdbBusy = false ∧ fdbIn.lock = false ∧ regsRising fdbIn ∧ keyMac fdbIn = 0x001A2B3C4D5E ∧ keyFid fdbIn = 100 ∧
      wayOf fdbIn 0x001A2B3C4D5E 100 2 = some (entry false) ∧ (entry false).mac = 0x001A2B3C4D5E ∧ (entry false).fid = 100 ∧
      (wayOf fdbIn 0x001A2B3C4D5E 100 0).map (·.mac) ≠ some 0x001A2B3C4D5E ∧ wayOf fdbIn 0x001A2B3C4D5E 100 1 = none) ∧
    (live fdbFree3 ∧ fdbFree3.cfl.fdbBusy = false ∧ fdbFree3.lock = false ∧ wayOf fdbFree3 0x001A2B3C4D5E 100 3 = none ∧
      ∀ v : Fin 4, v < 3 → wayOf fdbFree3 0x001A2B3C4D5E 100 v ≠ none ∧
        (wayOf fdbFree3 0x001A2B3C4D5E 100 v).map (·.mac) ≠ some 0x001A2B3C4D5E) ∧
    (live fdbStatic ∧ ∀ v : Fin 4, (wayOf fdbStatic 0x001A2B3C4D5E 100 v).map (·.static) = some true ∧
      (wayOf fdbStatic 0x001A2B3C4D5E 100 v).map (·.mac) ≠ some 0x001A2B3C4D5E) ∧
    (live fdbFull ∧ (∀ v : Fin 4, wayOf fdbFull 0x001A2B3C4D5E 100 v ≠ none ∧
        (wayOf fdbFull 0x001A2B3C4D5E 100 v).map (·.mac) ≠ some 0x001A2B3C4D5E) ∧
      wayOf fdbFull 0x001A2B3C4D5E 100 2 = some (other 2 false 1) ∧
      wayOf fdbFull 0x001A2B3C4D5E 100 1 = some (other 1 false 3) ∧ wayOf fdbFull 0x001A2B3C4D5E 100 3 = some (other 3 false 1)) ∧
    (sfind base0 fdbIn.cfl.fdb = some (other 0 true 0) ∧ sfind 16383 fdbIn.cfl.fdb = none) ∧
    ((fdbBusy fdbIn).cfl.fdbBusy = true ∧ run.lock = true ∧ live run) ∧
    (run.rf Fx.CFL_FDB_AGE_SEC ≠ 0 ∧ (run.sg .CFL_FDB_AGE 0 0 0#32).rf Fx.CFL_FDB_AGE_SEC = 0) ∧
    (1 ≤ (1 : Fin 4096).val ∧ (4094 : Fin 4096).val ≤ 4094) := by
  unfold live regsRising; and_intros <;> decide +kernel

/-- RUN, the switch on, P2 and P3 in state FORWARD with links, VLAN 1 of every port. -/
def sw : State :=
  let s := (((run.wf Fx.CFL_CTL_EN 1).wf Fx.CFL_CT_CFG_IN_EN 0).wf Fx.MAC_CFG_EN 1 2).wf Fx.MAC_CFG_EN 1 3
  let s := (s.wf Fx.CFL_PORT_CFG_STATE 2 2).wf Fx.CFL_PORT_CFG_STATE 2 3
  let s := (s.wf Fx.CFL_PORT_CFG_UFLOOD 1 3).wf Fx.CFL_PORT_CFG_LEARN 1 2
  let s := ((s.macUpd 2 fun m => { m with link := true, rate := 2 }).macUpd 3 fun m => { m with link := true, rate := 2 })
  { s with cfl := { s.cfl with vlan := [(1, ⟨0x1FFFF, 0x1FFFF, 1, false, true⟩)] } }

/-- 60 bytes to a unicast address, to a link-local address, or in the VLAN of `vid`. -/
def bytesTo (dst : List Byte) : List Byte := dst ++ [2, 0, 0, 0, 0, 1, 8, 0] ++ List.replicate 50 0
def uni : List Byte := bytesTo [2, 0, 0, 0, 0, 9] ++ List.replicate 4 0
def llc : List Byte := bytesTo [1, 0x80, 0xC2, 0, 0, 0] ++ List.replicate 4 0

theorem test_meets_IngressAdmissionSteps :
    (regsRising sw ∧ arrives sw 2 uni ∧ arrives sw 2 llc ∧ 64 ≤ uni.length ∧ sw.rb Fx.CFL_CTL_EN = true ∧ noRed sw) ∧
    (sw.wf Fx.CFL_PORT_CFG_STATE 0 2).rf Fx.CFL_PORT_CFG_STATE 2 = 0 ∧ (sw.wf Fx.CFL_PORT_CFG_STATE 1 2).rf Fx.CFL_PORT_CFG_STATE 2 = 1 ∧
    (1 < sw.rf Fx.CFL_PORT_CFG_STATE 2 ∧ frameVid sw 2 uni = 1 ∧ sw.vlanOf 1 = some ⟨0x1FFFF, 0x1FFFF, 1, false, true⟩ ∧
      sw.rf Fx.CFL_PORT_VLAN_ACCEPT 2 = 0 ∧ (0x1FFFF : Nat).testBit 2 = true) ∧
    (macAt llc 0 / 16 = 0x0180C200000 ∧ macAt uni 0 / 16 ≠ 0x0180C200000) ∧
    ((sw.sg .CFL_TRAP 0 0 0#32).rg .CFL_TRAP).getLsbD (macAt llc 0 % 16) = false ∧
    ((sw.sg .CFL_TRAP 0 0 1#32).rg .CFL_TRAP).getLsbD (macAt llc 0 % 16) = true ∧
    (sfind 0xFFF (sw.wf Fx.CFL_PORT_VLAN_PVID 0xFFF 2).cfl.vlan = none ∧ frameVid (sw.wf Fx.CFL_PORT_VLAN_PVID 0xFFF 2) 2 uni = 0xFFF) ∧
    (3 ≠ 2 ∧ sw.variant.hasPort 3 = true ∧ sw.rf Fx.CFL_PORT_CFG_STATE 3 = 2 ∧ sw.fdbFind (macAt uni 0) 1 = none ∧
      macAt uni 0 / 2 ^ 40 % 2 = 0 ∧ sw.rb Fx.CFL_PORT_CFG_UFLOOD 3 = true) ∧
    (0 < sw.cfl.freeFd ∧ (sw.maxLen 2 (decide (be16 uni 12 = 0x8100)) + 127) / 128 +
      (if frameClass sw 2 uni < sw.rf Fx.CFL_ADM_CFG_PRIO_CLS then sw.rf Fx.CFL_ADM_CFG_RESERVE else 0) +
        (sw.cfl.frames.map (·.commit)).sum ≤ sw.cfl.freeCells) ∧
    ¬ 0 < ({ sw with cfl := { sw.cfl with freeFd := 0 } } : State).cfl.freeFd ∧
    (sw.rf Fx.CFL_CT_CFG_IN_EN).testBit (2 : Fin 14) = false := by
  unfold regsRising arrives noRed; and_intros <;> decide +kernel

/-- The frame is being received on P2, to be sent on P3. -/
def rxing : Frame :=
  { fid := 5, data := [], inp := 2, cls := 0, vid := 1, pcp := 0, tagged := false, admitUs := 0, launch := none, stamp := none, stampTb := 0,
    cells := 0, commit := 12, writing := true, refc := 0, stored := [3], explicit := false, origin := .wire, red := none, redIn := none,
    suspect := false }
def swRx : State :=
  let s := sw.inUpd 2 fun x => { x with rx := some (some 5) }
  { s with cfl := { s.cfl with frames := [rxing], freeFd := s.cfl.freeFd - 1 } }

theorem test_meets_FrameEnd :
    (regsRising swRx ∧ arrives swRx 2 uni ∧ uni.length + 4 ≤ swRx.maxLen 2 (decide (be16 uni 12 = 0x8100)) ∧ noRed swRx ∧
      receiving swRx 2 rxing ∧ swRx.bpUsed (2 : Fin 14) = false ∧ (uni.length + 4 + 127) / 128 ≤ swRx.cfl.freeCells) ∧
    (rxing.stored = [(3 : Fin 17).val] ∧ ¬ ((3 : Fin 17).val = 1 ∧ swRx.p1IsPairLink = true) ∧ swRx.portLink (3 : Fin 17) = true ∧
      (let g : Frame := { rxing with data := uni, cells := 1, commit := 0, writing := false }
       swRx.sentLen g 3 ≤ swRx.maxLen 3 (decide (be16 (swRx.sentBytes g 3) 12 = 0x8100))) ∧
      swRx.rb Fx.CFL_CTL_COMPAT = false ∧ rxing.cls < 8 ∧ 0 < swRx.cfl.freeQe ∧
      swRx.occupancy 3 0 + 1 ≤ swRx.rf Fx.CFL_OQ_CFG_LIMIT 3 0) ∧
    (swRx.vlanOf 1 = some ⟨0x1FFFF, 0x1FFFF, 1, false, true⟩ ∧ swRx.rb Fx.CFL_PORT_CFG_LEARN 2 = true ∧ macAt uni 6 ≠ 0 ∧
      macAt uni 6 / 2 ^ 40 % 2 = 0 ∧ ∀ w : Fin 4, wayOf swRx (macAt uni 6) 1 w = none) := by
  unfold regsRising arrives noRed receiving; and_intros <;> decide +kernel

/-- The frame stored, alone on class 0 of P3. -/
def queuedFrame : Frame := { rxing with data := uni, cells := 1, commit := 0, writing := false, refc := 1 }
def swQ : State :=
  let s := sw.outUpd 3 fun o => o.setQueue 0 [⟨5, true, false⟩]
  { s with cfl := { s.cfl with frames := [queuedFrame], freeFd := s.cfl.freeFd - 1, freeCells := s.cfl.freeCells - 1, freeQe := s.cfl.freeQe - 1 } }
def sending5 : Sending := ⟨5, 0, false, false, false⟩
def swTx : State := swQ.outUpd 3 fun o => { o with cur := some sending5 }
def aged : State := (swQ.wf Fx.CFL_AGE_LIM_US 9 3 0).tbUpd 0 fun t => { t with raw := 10000 * 2 ^ 32 }

theorem test_meets_OutputSelection :
    (swQ.variant.hasPort (3 : Fin 17) = true ∧ (3 : Fin 17).val ≠ 16 ∧ (swQ.outOf (3 : Fin 17)).cur = none ∧
      (swQ.outOf (3 : Fin 17)).queue (0 : Fin 8) = ⟨5, true, false⟩ :: [] ∧ swQ.frameOf 5 = some queuedFrame ∧
      (swQ.outOf (3 : Fin 17)).sending 5 = false ∧ swQ.examHead 3 0 queuedFrame = none ∧ swQ.eligible (3 : Fin 17) (0 : Fin 8) = true ∧
      (∀ k : Fin 8, 0 < k → swQ.eligible (3 : Fin 17) k = false ∧ (swQ.outOf (3 : Fin 17)).queue k = []) ∧
      (swQ.outOf (3 : Fin 17)).preempted = none) ∧
    ((∀ c : Fin 8, sw.eligible (3 : Fin 17) c = false ∧ (sw.outOf (3 : Fin 17)).queue c = []) ∧ (sw.outOf (3 : Fin 17)).preempted = none) ∧
    (let s := swTx.wf Fx.CFL_OQ_CFG_CBS_EN 1 3 2
     s.variant.hasPort (3 : Fin 17) = true ∧ s.rb Fx.CFL_OQ_CFG_CBS_EN (3 : Fin 17) (2 : Fin 8) = true ∧
       s.gateOpen (3 : Fin 17) (2 : Fin 8) = true ∧ (s.outOf (3 : Fin 17)).cur ≠ none) ∧
    (regsRising aged ∧ (aged.outOf (3 : Fin 17)).queue (0 : Fin 8) = [⟨5, true, false⟩] ∧ aged.frameOf 5 = some queuedFrame ∧
      queuedFrame.launch = none ∧ queuedFrame.origin = .wire ∧ queuedFrame.refc = 1 ∧ queuedFrame.writing = false ∧
      aged.bpUsed queuedFrame.inp = false ∧ aged.cfl.residue = [] ∧ aged.rf Fx.CFL_AGE_LIM_US (3 : Fin 17) (0 : Fin 8) ≠ 0 ∧
      aged.rf Fx.CFL_AGE_LIM_US (3 : Fin 17) (0 : Fin 8) < aged.tbNs 0 / 1000 - queuedFrame.admitUs ∧
      swQ.tbNs 0 / 1000 - queuedFrame.admitUs ≤ swQ.rf Fx.CFL_AGE_LIM_US (3 : Fin 17) (0 : Fin 8)) := by
  unfold regsRising; and_intros <;> decide +kernel

theorem test_meets_FrameTransmitEndResult :
    regsRising swTx ∧ (swTx.outOf (3 : Fin 14)).cur = some sending5 ∧ sending5.cls = (0 : Fin 8).val ∧
      swTx.frameOf sending5.fid = some queuedFrame ∧ queuedFrame.origin = .wire ∧ queuedFrame.launch = none ∧
      queuedFrame.writing = false ∧ sending5.cut = false ∧ swTx.bpUsed queuedFrame.inp = false ∧ swTx.cfl.residue = [] ∧
      (swTx.macOf (3 : Fin 14)).pauseDue = [] ∧ queuedFrame.refc = 1 ∧ 1 < ({ queuedFrame with refc := 2 } : Frame).refc := by
  unfold regsRising; and_intros <;> decide +kernel

/-- An operative list of three entries on P3: SetAndRelease, SetAndHold, SetGates, in a cycle of 1000 ns; an output that sends. -/
def gated : State :=
  let s := swTx.gateUpd 3 fun g =>
    { g with operEn := true, operTb := 0, operCycle := 1000, list := [(400, 2, 0xFF#8), (400, 1, 0xFF#8), (200, 0, 0xFE#8)],
             entry := 0, cycleStart := 0, entryStart := 0 }
  { (s.tbUpd 0 fun t => { t with oosCmd := false }) with cfl := { s.cfl with out := s.cfl.out.map fun o => { o with queues := OutPort.reset.queues } } }
def gatePending : State := sw.gateUpd 3 fun g => { g with pending := true, cct := 5 }

theorem test_meets_GatesAndPreemption :
    (live sw ∧ sw.variant.hasPort (3 : Fin 14) = true ∧ (sw.gateOf (3 : Fin 14)).pending = false ∧
      (sw.gateOf (3 : Fin 14)).extended = false ∧ (sw.gateOf (3 : Fin 14)).operEn = false ∧ live gatePending ∧
      (gatePending.gateOf (3 : Fin 14)).pending = true) ∧
    (let s := (sw.wf Fx.CFL_GCL_ADMIN_CYCLE_NS 1000 3).tbUpd (sw.rf Fx.CFL_GCL_ADMIN_CFG_TB 3) fun t => { t with raw := 5 * 2 ^ 32 }
     0 < s.rf Fx.CFL_GCL_ADMIN_CYCLE_NS 3 ∧ s.rf Fx.CFL_GCL_ADMIN_BASE_NS_NS 3 = 0 ∧
       (s.wf Fx.CFL_GCL_ADMIN_BASE_NS_NS 2005 3).rf Fx.CFL_GCL_ADMIN_BASE_NS_NS 3 = 2005 ∧
       s.tbNs (s.rf Fx.CFL_GCL_ADMIN_CFG_TB 3) + 2000 = 2005) ∧
    (let s := gated.gateUpd 3 fun g => { g with pending := true, cct := 5 }
     (∀ c : Fin 8, (s.outOf (3 : Fin 14)).queue c = []) ∧ (s.outOf (3 : Fin 14)).cur ≠ none ∧ (s.gateOf (3 : Fin 14)).pending = true ∧
       s.tbOos (s.rf Fx.CFL_GCL_ADMIN_CFG_TB (3 : Fin 14)) = false ∧ s.tbNs (s.rf Fx.CFL_GCL_ADMIN_CFG_TB (3 : Fin 14)) < 5) ∧
    (∀ k ∈ [0, 2], let s := gated.gateUpd 3 fun g => { g with entry := k, entryStart := k * 400 }
     let g := s.gateOf (3 : Fin 14)
     (∀ c : Fin 8, (s.outOf (3 : Fin 14)).queue c = []) ∧ (s.outOf (3 : Fin 14)).cur ≠ none ∧ g.operEn = true ∧
       s.tbOos g.operTb = false ∧ g.extended = false ∧ g.pending = false ∧ (g.list[g.entry]?).isSome = true ∧
       (k = 0 → g.entry + 1 < g.list.length ∧ g.entryStart + 400 < g.cycleStart + g.operCycle) ∧
       (k = 2 → g.entry + 1 = g.list.length ∧ g.cycleStart + g.operCycle ≤ g.entryStart + 200)) ∧
    (let g := gated.gateOf (3 : Fin 10)
     g.operEn = true ∧ g.entry + 1 < g.list.length ∧ ((g.list[g.entry + 1]?).getD (0, 0, 0)).2.1 = 1 ∧
       ((g.list[g.entry]?).getD (0, 0, 0)).2.1 = 2) ∧
    (∀ n ∈ [0, 3], let s := (sw.wf Fx.CFL_FP_CFG_EN 1 3).outUpd 3 fun o => { o with verify := 2, verifyTx := n }
     s.rb Fx.CFL_FP_CFG_EN (3 : Fin 10) = true ∧ s.rb Fx.CFL_FP_CFG_VERIFY_DIS (3 : Fin 10) = false ∧
       s.variant.hasPort (3 : Fin 10) = true ∧ s.portLink (3 : Fin 10) = true ∧ (s.outOf (3 : Fin 10)).verify < 3 ∧
       (s.outOf (3 : Fin 10)).verifyTx = n) ∧
    (let x : Sending := ⟨5, 0, false, false, true⟩
     let s := (gated.outUpd 3 fun o => { o with cur := some x }).gateUpd 3 fun g => { g with entry := 2, entryStart := 800 }
     regsRising s ∧ (s.outOf (3 : Fin 10)).cur = some x ∧ x.preemptable = true ∧ (s.outOf (3 : Fin 10)).preempted = none ∧
       s.gateOpen (3 : Fin 10) x.cls = false ∧ (s.macOf (3 : Fin 10)).pauseHeld = false ∧ (s.macOf (3 : Fin 10)).pauseDue = [] ∧
       ∀ c : Fin 8, s.eligible (3 : Fin 10) c = false ∧ (s.outOf (3 : Fin 10)).queue c = []) := by
  unfold live regsRising; and_intros <;> decide +kernel

/-- A residue entry for class 2 of P3, whose frame has that one reference. -/
def residue1 : State := { swQ with cfl := { swQ.cfl with residue := [⟨5, 3, 2⟩], out := sw.cfl.out } }
def eddy (holder : Nat) (fifo : List Nat) : State := { run.wf Fx.CFL_EDDY_CFG_EN 1 with tok := ⟨holder, fifo⟩ }
/-- The audit holds the token, with an orphan marked in the sweep before. -/
def sweeping : State :=
  let s := eddy 5 []
  { s with cfl := { s.cfl with eddySweeps := 2, eddyRunning := true, frames := [{ queuedFrame with refc := 0, suspect := true }] } }

theorem test_meets_ResidueAndAudit :
    (regsRising residue1 ∧ residue1.cfl.residue = ⟨5, 3, 2⟩ :: [] ∧ residue1.frameOf 5 = some queuedFrame ∧ queuedFrame.origin = .wire ∧
      queuedFrame.writing = false ∧ residue1.bpUsed queuedFrame.inp = false ∧ queuedFrame.refc = 1) ∧
    (∀ x ∈ [eddy 0 [], eddy 3 [], eddy 3 [1, 2, 3, 4, 6, 1, 2], eddy 3 [1, 2, 3, 4, 6, 1, 2, 4]],
      x.rb Fx.CFL_EDDY_CFG_EN = true ∧ x.lock = true ∧ x.pwr.state = 0 ∧ x.cfl.eddyWaiting = false ∧ x.tok.holder ≠ 5) ∧
    ((eddy 0 []).tok.holder = 0 ∧ (eddy 0 []).tok.fifo = [] ∧ (eddy 3 []).tok.holder ≠ 0 ∧
      (eddy 3 [1, 2, 3, 4, 6, 1, 2]).tok.fifo.length < 8 ∧ 8 ≤ (eddy 3 [1, 2, 3, 4, 6, 1, 2, 4]).tok.fifo.length ∧
      (eddy 5 []).tok.holder = 5) ∧
    (sweeping.tok.holder = 5 ∧ 2 ≤ sweeping.cfl.eddySweeps ∧ (eddy 5 []).cfl.eddySweeps < 2 ∧ sweeping.cfl.eddyRunning = true ∧
      sweeping.cfl.eddyAny = false ∧ sweeping.tok.fifo = [] ∧
      (let f : Frame := { queuedFrame with refc := 0, suspect := true }
       f ∈ sweeping.cfl.frames ∧ f.writing = false ∧ f.refc = 0 ∧ (∀ p : Fin 17, (sweeping.outOf p).sending f.fid = false) ∧
         sweeping.cfl.residue = [] ∧ f.suspect = true ∧ ∀ g ∈ sweeping.cfl.frames, g.fid = f.fid → g = f)) := by
  unfold regsRising; and_intros <;> decide +kernel

/-- Window 1 between P2 and P3 at EtherType 0x0800; its rule 3 is `op` on bytes 20 to 23, matched on bytes 14 to 17, and the pool at 0x100. -/
def window (op : Nat) : State :=
  let s := ((sw.wf Fx.CFL_TW_CFG_EN 1 1).wf Fx.CFL_TW_CFG_PORT_A 2 1).wf Fx.CFL_TW_CFG_PORT_B 3 1
  let s := ((s.wf Fx.CFL_TW_CFG_COPY_EN 0 1).wf Fx.CFL_TW_ETYPE_ETYPE 0x800 1).sg .CFL_TW_RULE2 1 3 0xFFFFFFFF#32
  let s := (((s.wf Fx.CFL_TW_RULE0_EN 1 1 3).wf Fx.CFL_TW_RULE0_OP op 1 3).wf Fx.CFL_TW_RULE0_OFS 20 1 3).wf Fx.CFL_TW_RULE0_LEN 3 1 3
  ((s.wf Fx.CFL_TW_RULE0_MOFS 14 1 3).wf Fx.CFL_TW_RULE3_ADDEND 2 1 3).wf Fx.CFL_TW_RULE3_POOL 0x100 1 3
/-- The frame ends at A: latched at 0x100, with the sequence word 3 at 0x18. -/
def latching : State :=
  let s := ((window 0).wf Fx.CFL_TW_SEQ_EN 1 1).wf Fx.CFL_TW_SEQ_ADDR 3 1
  s.twUpd 1 fun t => { t with frAB := some (uni, uni) }

theorem test_meets_TransitWindows :
    (∀ op : Fin 5, regsRising (window op) ∧ windowUp (window op) 1 ∧ loneRule (window op) 1 0 3 uni ∧
      (window op).rf Fx.CFL_TW_RULE0_OP 1 3 = op ∧
      (window op).rf Fx.CFL_TW_RULE0_OFS 1 3 + ((window op).rf Fx.CFL_TW_RULE0_LEN 1 3 + 1) ≤ uni.length) ∧
    (let s := (window 0).wf Fx.CFL_TW_ETYPE_ETYPE 0 1
     regsRising s ∧ windowUp s 1 ∧ s.rf Fx.CFL_TW_ETYPE_ETYPE 1 = 0 ∧ be16 uni 12 ≠ s.rf Fx.CFL_TW_ETYPE_ETYPE 1) ∧
    (let s := ((window 0).macUpd 3 fun m => { m with link := false }).wf Fx.CFL_TW_CFG_AUTO_LOOP 0 1
     s.rb Fx.CFL_TW_CFG_EN 1 = true ∧ s.portLink 2 = true ∧ s.phyOn 2 = true ∧ s.portLink 3 = false ∧
       s.rb Fx.CFL_TW_CFG_AUTO_LOOP 1 = false) ∧
    (let s := (window 0).macUpd 2 fun m => { m with rate := 1 }
     s.rb Fx.CFL_TW_CFG_EN 1 = true ∧ s.portLink 2 = true ∧ s.phyOn 2 = true ∧ s.twSuspended 1 = true) ∧
    (let s := latching
     regsRising s ∧ scanon (0#8) 0 s.pool = true ∧ windowUp s 1 ∧ (s.twOf 1).frAB = some (uni, uni) ∧ uni.length + 4 ≤ 1522 ∧
       s.rb Fx.CFL_TW_CFG_COPY_EN 1 = false ∧ loneRule s 1 0 3 uni ∧ s.rf Fx.CFL_TW_RULE0_OP 1 3 = 0 ∧
       s.rf Fx.CFL_TW_RULE0_OFS 1 3 + (s.rf Fx.CFL_TW_RULE0_LEN 1 3 + 1) ≤ uni.length ∧ s.mirrorProt 0x100 4 = false ∧ s.mirrorProt 0x18 4 = false ∧
       s.bankSt (poolBank (s.rf Fx.CFL_TW_RULE3_POOL 1 3)) = 0 ∧
       s.rf Fx.CFL_TW_RULE3_POOL 1 3 + (s.rf Fx.CFL_TW_RULE0_LEN 1 3 + 1) ≤ 0x1FFF00 ∧ s.rb Fx.CFL_TW_SEQ_EN 1 = true ∧
       s.bankSt (poolBank (s.rf Fx.CFL_TW_SEQ_ADDR 1 * 8)) = 0 ∧ s.rf Fx.CFL_TW_SEQ_ADDR 1 * 8 + 4 ≤ s.rf Fx.CFL_TW_RULE3_POOL 1 3) ∧
    ((window 0).rb Fx.CFL_TW_SEQ_EN 1 = false ∧ FcsKind.bad ≠ .good) := by
  simp only [regsRising, windowUp, loneRule, forall_eq_or_imp, forall_eq]; and_intros <;> decide +kernel

/-! ### The MACs and the time bases (spec/05, spec/06) -/

/-- P11 in half duplex at 10 Mb/s, sending frame 5 of its class 0; P3 the same on a shared medium after 15 collisions. -/
def shared (p : Nat) (n : Nat) : State :=
  let s := sw.wf Fx.MAC_CFG_EN 1 p
  let s := (s.macUpd p fun m => { m with half := true, rate := 1, link := true, collisions := n }).outUpd p fun o =>
    { o.setQueue 0 [⟨5, true, false⟩] with cur := some sending5 }
  { s with cfl := { s.cfl with frames := [queuedFrame] } }
def backing : State :=
  ((shared 3 2).macUpd 3 fun m => { m with backoff := true, retry := some (5, 0) }).outUpd 3 fun o => { o with cur := none }
def plca (id : Nat) : State :=
  let s := ((shared 11 0).wf Fx.MAC_PLCA_CFG_EN 1 11).wf Fx.MAC_PLCA_CFG_NODE_ID id 11
  (s.wf Fx.MAC_PLCA_CFG_NODE_CNT 8 11).macUpd 11 fun m => { m with plcaActive := true, plcaPos := 7 }
def mdioBusy (p : Nat) : State := sw.macUpd p fun m => { m with mdio := some ⟨false, 1, 2, 0⟩, mdioActive := true }

theorem test_meets_SharedMediaAndManagement :
    (∀ n : Fin 16, let s := shared 3 n
     (s.outOf (3 : Fin 14)).cur = some sending5 ∧ s.shared (3 : Fin 14) = true ∧ s.portLink (3 : Fin 14) = true ∧
       (n < 15 → (s.macOf (3 : Fin 14)).collisions + 1 < 16) ∧ (n = 15 → 16 ≤ (s.macOf (3 : Fin 14)).collisions + 1)) ∧
    ((shared 3 15).frameOf sending5.fid = some queuedFrame ∧ queuedFrame.origin = .wire ∧ queuedFrame.refc = 1 ∧
      queuedFrame.writing = false ∧ (shared 3 15).bpUsed queuedFrame.inp = false ∧ (shared 3 15).cfl.residue = [] ∧ sending5.cls < 8) ∧
    (let m := backing.macOf (3 : Fin 14)
     m.backoff = true ∧ m.retry = some (5, (0 : Fin 8).val) ∧ (backing.outOf (3 : Fin 14)).cur = none ∧
       (backing.outOf (3 : Fin 14)).queue (0 : Fin 8) = ⟨5, true, false⟩ :: [] ∧ backing.frameOf 5 = some queuedFrame ∧
       backing.portLink (3 : Fin 14) = true ∧ backing.phyOn (3 : Fin 14) = true ∧ m.pauseHeld = false ∧ m.txLpi = false ∧
       m.waking = false ∧ m.retraining = false ∧ backing.plcaMay (3 : Fin 14) = true) ∧
    (∀ id : Fin 2, (plca id).portLink 11 = true ∧ (plca id).rb Fx.MAC_PLCA_CFG_EN 11 = true ∧ ((plca id).outOf 11).cur ≠ none ∧
      (plca id).rf Fx.MAC_PLCA_CFG_NODE_ID 11 = id.val ∧ ((plca id).macOf 11).plcaActive = true ∧
      ((plca id).macOf 11).plcaPos + 1 = (plca id).rf Fx.MAC_PLCA_CFG_NODE_CNT 11) ∧
    (live sw ∧ sw.variant.hasPort ((1 : Fin 8).val + 2) = true ∧
      (∀ k : Fin 14, (sw.macOf k).mdio = none ∧ (sw.macOf k).mdioActive = false) ∧
      (live (mdioBusy 9) ∧ ((mdioBusy 9).macOf (9 : Fin 14)).mdioActive = true ∧ ((mdioBusy 9).macOf 3).mdio = none) ∧
      (live (mdioBusy 3) ∧ ((mdioBusy 3).macOf 3).mdio = some ⟨false, 1, 2, 0⟩ ∧ ((mdioBusy 3).macOf 3).mdioActive = true ∧
        ∀ k : Fin 14, k.val ≠ 3 → ((mdioBusy 3).macOf k).mdio = none ∧ ((mdioBusy 3).macOf k).mdioActive = false)) := by
  unfold live; and_intros <;> decide +kernel

def eee : State := sw.wf Fx.MAC_EEE_CFG_EN 1 3
def mac3 (f : Mac → Mac) : State := sw.macUpd 3 f
def busy3 (s : State) : State := s.outUpd 3 fun o => { o with cur := some sending5 }

theorem test_meets_LinkPauseAndIdle :
    (sw.variant.hasPort (3 : Fin 10) = true ∧ live sw ∧ (sw.inOf (3 : Fin 10)).rx = none ∧ regsRising sw) ∧
    (eee.eeeOn 3 = true ∧ (eee.macOf 3).txLpi = false ∧ (eee.macOf 3).waking = false ∧ (eee.macOf 3).retraining = false ∧
      (eee.outOf 3).cur = none ∧ (eee.outOf 3).preempted = none ∧ (eee.macOf 3).pauseDue = [] ∧
      (∀ c : Fin 8, (eee.outOf 3).queue c = []) ∧ (eee.gateOf 3).operEn = false) ∧
    (((mac3 fun m => { m with txLpi := true }).macOf 3).txLpi = true) ∧
    (let s := busy3 (mac3 fun m => { m with waking := true })
     (s.macOf 3).waking = true ∧ (s.macOf 3).pauseDue = [] ∧ (s.outOf 3).cur ≠ none) ∧
    (1 ≤ (1#16).toNat ∧ (1000#16).toNat ≤ 1000) ∧
    (sw.portLink 3 = true ∧ (sw.macOf 3).loop = false ∧ (sw.macOf 3).rxLpi = false ∧ (sw.macOf 3).retraining = false) ∧
    (let s := busy3 (mac3 fun m => { m with pauseHeld := true }); (s.macOf 3).pauseHeld = true ∧ (s.outOf 3).cur ≠ none) ∧
    (let s := (sw.inUpd 3 fun x => { x with bp := true }).wf Fx.MAC_PAUSE_TX_EN 1 3
     (s.inOf 3).bp = true ∧ s.rb Fx.MAC_PAUSE_TX_EN 3 = true ∧ s.portLink 3 = true ∧ (s.outOf 3).cur = none) ∧
    (let s := busy3 (mac3 fun m => { m with retraining := true })
     regsRising s ∧ (s.macOf 3).retraining = true ∧ (s.macOf 3).loop = false ∧ (s.macOf 3).pauseDue = [] ∧ (s.outOf 3).cur ≠ none) ∧
    (let s := mac3 fun m => { m with link := false }
     (s.macOf 3).link = false ∧ (s.macOf 3).retraining = false ∧ (s.macOf 3).loop = false ∧ s.rb Fx.MAC_CFG_EN 3 = true ∧
       s.phyOn 3 = true ∧ s.linkFits (3 : Fin 10) (2 : Fin 7).val false = true) ∧
    (sw.rf Fx.MAC_CFG_MODE 3 = 0 ∧ (sw.macOf 3).link = true ∧ ((mac3 fun m => { m with loop := true }).macOf 3).loop = true) := by
  unfold live regsRising; and_intros <;> decide +kernel

/-- Time base 2 with a guard of 1000 ns; a step of `n` ns in TB_ADJ; served from time base 3. -/
def adj (n : Nat) : State :=
  ((run.wf Fx.TB_CFG_GUARDED 1 2).wf Fx.TB_GUARD_NS 1000 2).wf Fx.TB_ADJ_NS_NS n 2 |>.tbUpd 2 fun t => { t with oosCmd := false }
def serve (raw : Nat) (off : Bool) : State :=
  let s := ((run.wf Fx.TB_CFG_SHADOW_EN 1 2).wf Fx.TB_CFG_SHADOW 3 2).tbUpd 2 fun t => { t with primary := 2 }
  s.tbUpd 3 fun t => { t with raw := raw, oosCmd := off }

theorem test_meets_TimeBaseCommands :
    (live run ∧ (2 : Fin 8) ≠ 0 ∧ regsRising run) ∧
    (∀ n ∈ [1000, 1001], let s := adj n
     (∀ p : Fin 8, s.rb Fx.TB_CFG_SHADOW_EN p = false) ∧ s.rb Fx.TB_CFG_GUARDED (2 : Fin 8) = true ∧ (s.tbOf 2).oosCmd = false ∧
       s.rf Fx.TB_ADJ_NS_NS 2 = n ∧ ((1000 < n) ↔ (s.rf Fx.TB_GUARD_NS 2 : Int) * 2 ^ 32 < ((BitVec.ofNat 32 n).toInt * 2 ^ 32).natAbs)) ∧
    ((adj 999999999).rf Fx.TB_ADJ_NS_NS 2 < 1000000000 ∧ 1000000000 ≤ (adj 1000000000).rf Fx.TB_ADJ_NS_NS 2) ∧
    ((serve 0 true).rb Fx.TB_CFG_SHADOW_EN (2 : Fin 8) = true ∧ (serve 0 true).rf Fx.TB_CFG_SHADOW (2 : Fin 8) = 3 ∧
      ((serve 0 true).tbOf 3).oosCmd = true ∧ ((serve 0 false).tbOf 3).oosCmd = false ∧
      (((serve 0 false).tbTime 2 : Int) - ((serve 0 false).tbOf 3).raw) / 65536 = 0 ∧
      1000000000 * 65536 < ((((serve (2 ^ 63) false).tbTime 2 : Int) - ((serve (2 ^ 63) false).tbOf 3).raw) / 65536).natAbs) ∧
    ((run.tbUpd 2 fun t => { t with oosCmd := true }).tbOf 2).oosCmd = true ∧
    (-2147483 ≤ (BitVec.ofInt 32 (-2147483)).toInt ∧ (2147483#32).toInt ≤ 2147483) := by
  unfold live regsRising; and_intros <;> decide +kernel

theorem test_meets_TimeBaseReadingAndAdvance :
    live run ∧ run.pending = [] ∧ run.clk.lock.testBit 2 = true ∧ run.pwr.state = 0 ∧ run.rb Fx.TB_CFG_SHADOW_EN (7 : Fin 8) = false ∧
      (run.tbOf (7 : Fin 8)).slewRem = 0 ∧ State.reset.pending = [] ∧ State.reset.clk.lock.testBit 2 = false := by
  unfold live; and_intros <;> decide +kernel

/-- Capture unit 1 with EDGE `e` and `n` entries held; pulse output 1 from 1000 ns on with period 100 and width 40 at time `now`. -/
def capture (e n : Nat) : State :=
  (((run.wf Fx.TB_CAP_CFG_EN 1 1).wf Fx.TB_CAP_CFG_EDGE e 1).tbUpd (run.rf Fx.TB_CAP_CFG_TB 1) fun t => { t with oosCmd := false }).capUpd 1
    fun c => { c with fifo := List.replicate n 7 }
def pulse (now : Nat) : State :=
  let s := ((run.wf Fx.TB_PLS_START_NS_NS 1000 1).wf Fx.TB_PLS_PERIOD_NS 100 1).wf Fx.TB_PLS_WIDTH_NS 40 1
  (s.tbUpd (run.rf Fx.TB_PLS_CFG_TB 1) fun t => { t with raw := now * 2 ^ 32, oosCmd := false }).plsUpd 1 fun u =>
    { u with running := true, active := true, nextK := 1 }
/-- A frame with launch time 500 ns on time base 1 at the head of class 0 of P3, which sends. -/
def launching : State :=
  let s := swTx.tbUpd 1 fun t => { t with raw := 400 * 2 ^ 32, oosCmd := false }
  { s with cfl := { s.cfl with frames := [{ queuedFrame with launch := some (1, 500) }] } }

theorem test_meets_CapturePulseAndLaunch :
    (∀ x ∈ [(1, 0), (2, 3), (3, 4)], let s := capture x.1 x.2
     regsRising s ∧ s.rb Fx.TB_CAP_CFG_EN (1 : Fin 4) = true ∧ s.rf Fx.TB_CAP_CFG_EDGE (1 : Fin 4) = x.1 ∧
       s.tbOos (s.rf Fx.TB_CAP_CFG_TB (1 : Fin 4)) = false ∧ (s.capOf (1 : Fin 4)).fifo.length = x.2) ∧
    (live (capture 1 0) ∧ ((capture 1 0).capOf 1).fifo = [] ∧ ((capture 1 1).capOf 1).fifo = 7 :: []) ∧
    (∀ now ∈ [1099, 1100, 1039, 1040], let s := pulse now
     (s.plsOf (1 : Fin 4)).running = true ∧ s.tbOos (s.rf Fx.TB_PLS_CFG_TB (1 : Fin 4)) = false ∧
       s.tbNs (s.rf Fx.TB_PLS_CFG_TB (1 : Fin 4)) = now ∧ 0 < s.rf Fx.TB_PLS_PERIOD_NS (1 : Fin 4) ∧
       s.rf Fx.TB_PLS_START_NS_NS (1 : Fin 4) = 1000 ∧ (s.plsOf (1 : Fin 4)).nextK = 1 ∧ (s.plsOf (1 : Fin 4)).active = true) ∧
    (let s := (pulse 1100).tbUpd (run.rf Fx.TB_PLS_CFG_TB 1) fun t => { t with oosCmd := true }
     (s.plsOf (1 : Fin 4)).running = true ∧ s.tbOos (s.rf Fx.TB_PLS_CFG_TB (1 : Fin 4)) = true) ∧
    (let f : Frame := { queuedFrame with launch := some (1, 500) }
     (launching.outOf (3 : Fin 17)).queue (0 : Fin 8) = ⟨5, true, false⟩ :: [] ∧ launching.frameOf 5 = some f ∧ f.launch = some (1, 500) ∧
       launching.tbOos 1 = false ∧ (launching.outOf (3 : Fin 17)).cur ≠ none ∧ (500 : Int) ≤ launching.tbNs 1 + (100 : Nat) ∧
       (launching.tbNs 1 : Int) + (99 : Nat) < 500) := by
  unfold live regsRising; and_intros <;> decide +kernel

/-! ### The Geyser bus and the redundant pair (spec/07, spec/08) -/

/-- Channel 0 in SYNC with T = 1000000 ns: slot 5 of `owner`, 8 bytes from pool word 0x100 at 1000 ns; the device is node 2. -/
def bus (owner : Nat) : State :=
  let s := ((((run.wf Fx.GYS_CFG_NODE 2).wf Fx.GYS_CYCLE_NS 1000000).wf Fx.GYS_TIMING_GUARD 200).wf Fx.GYS_DLY_INIT_DLY 256).wf Fx.GYS_CH_CFG_EN 1 0
  let s := (((s.wf Fx.GYS_SLOT_T_EN 1 0 5).wf Fx.GYS_SLOT_T_KIND 2 0 5).wf Fx.GYS_SLOT_T_OWNER owner 0 5).wf Fx.GYS_SLOT_T_START 1000 0 5
  let s := (s.wf Fx.GYS_SLOT_D_LEN 8 0 5).wf Fx.GYS_SLOT_D_POOL 0x100 0 5
  { (s.gysChUpd 0 fun x => { x with mode := 1 }) with
    gys := { (s.gysChUpd 0 fun x => { x with mode := 1 }).gys with node := 4, timer := true, cyc := 7, ofs := (1101 * 256) * 2 ^ 24 } }

theorem test_meets_BusSlots :
    (let s := bus 2
     regsRising s ∧ inSync s 0 ∧ slotIs s 0 5 2 (s.rf Fx.GYS_CFG_NODE) ∧ normalCycle s 0 ∧ s.bankSt (poolBank 0x800) = 0 ∧
       s.bankSt (poolBank 0x808) = 0 ∧ sfind 5 (s.gysChOf 0).fetched = none ∧
       sfind 5 ((s.gysChUpd 0 fun x => { x with fetched := [(5, [1#8])] }).gysChOf 0).fetched = some [1#8]) ∧
    ((bus 2).gysChOf (0 : Fin 2)).mode = 1 ∧
    (let b : List Byte := List.replicate 16 1#8
     crc32c (b.take (b.length - 4)) ≠ leNat (b.drop (b.length - 4)) ∧ 16 ≤ b.length) ∧
    (let s := bus 3
     let e : Int := (s.gys.ofs / 2 ^ 24 : Nat) - ((0 : Nat) + calRx s 0) - (1000 : Nat) * 256 - busDelay s 0
     regsRising s ∧ scanon (0#8) 0 s.pool = true ∧ inSync s 0 ∧ slotIs s 0 5 2 (3 : Fin 16).val ∧ (3 : Fin 16).val ≠ s.rf Fx.GYS_CFG_NODE ∧
       normalCycle s 0 ∧ s.rf Fx.GYS_SLOT_D_POOL 0 5 * 8 = 0x800 ∧ s.rf Fx.GYS_SLOT_T_START 0 5 = 1000 ∧
       (List.replicate 8 1#8).length = s.rf Fx.GYS_SLOT_D_LEN 0 5 ∧ s.gys.cyc < 2 ^ 32 ∧ 0x800 + 8 + 8 ≤ 0x1FFF00 ∧
       2 * e.natAbs = s.rf Fx.GYS_TIMING_GUARD * 256 ∧ 2 * (s.rf Fx.GYS_TIMING_GUARD * 256) < s.rf Fx.GYS_CYCLE_NS * 256 ∧
       s.rb Fx.GYS_CH_CFG_EN (0 : Fin 2) = true ∧
       ¬ s.rf Fx.GYS_CYCLE_NS < 1000 + (26 + s.rf Fx.GYS_SLOT_D_LEN 0 5) * 50 + s.rf Fx.GYS_TIMING_GUARD + 200 ∧
       (s.gysChOf 0).acc = [] ∧ poolBank (0x800 + 3) = poolBank 0x800) := by
  unfold regsRising inSync slotIs normalCycle; and_intros <;> decide +kernel

/-- The bus at the end of a cycle, with a reference of `e` in 1/256 ns; and in a node state of the start-up. -/
def busEnd (e : Option (Int × Bool)) : State :=
  let s := (bus 3).gysChUpd 0 fun x => { x with ref := e }
  { s with gys := { s.gys with ofs := 1000000 * 2 ^ 32 } }
def busIn (node : Nat) (timer sent : Bool) : State :=
  { (bus 2) with gys := { (bus 2).gys with node := node, timer := timer, csSent := sent } }
def attempt (k : Nat) : State := { busIn 3 true false with gys := { (busIn 3 true false).gys with attemptCycles := 8, attempts := k } }
/-- A delay cycle in which node `k` asks; t1 of a request to node 3 is held. -/
def delayCycle (k : Nat) : State :=
  let s := ((bus 3).wf Fx.GYS_CH_CFG_DLY_EN 1 0).gysChUpd 0 fun x => { x with accPrev := [5], t1 := some (0, 3), t2 := some 9 }
  { s with gys := { s.gys with cyc := 255 + 256 * k, ofs := 2401 * 256 * 2 ^ 24 } }

theorem test_meets_BusTimeAndStartUp :
    (∀ e ∈ [(100 : Int) * 256, -25600], let s := busEnd (some (e, false))
     s.gys.timer = true ∧ s.gys.node = 4 ∧ regsRising s ∧ s.rf Fx.GYS_CYCLE_NS * 2 ^ 32 ≤ s.gys.ofs ∧ 0 < s.rf Fx.GYS_CYCLE_NS ∧
       (s.gysChOf 0).ref = some (e, false) ∧ 2 * e.natAbs ≤ s.rf Fx.GYS_TIMING_GUARD * 256) ∧
    (let s := busEnd none; (s.gysChOf 0).ref = none ∧ (s.gysChOf 1).ref = none ∧ s.rb Fx.GYS_CFG_LEAD_EN = false) ∧
    (live (busIn 1 false false) ∧ ((busIn 1 false false).gysChOf 0).mode = 1 ∧ regsRising (busIn 2 true true) ∧
      (busIn 3 true false).gys.node = 3 ∧ (busIn 5 true false).gys.node = 5 ∧ (busIn 1 true false).gys.timer = true ∧
      (busIn 1 false false).gys.timer = false ∧ ((busIn 1 false false).wf Fx.GYS_CFG_CS_EN 1).rb Fx.GYS_CFG_CS_EN = true ∧
      ((busIn 1 false false).wf Fx.GYS_CFG_CS_EN 0).rb Fx.GYS_CFG_CS_EN = false ∧
      (busIn 1 false false).rb Fx.GYS_SLOT_T_EN 0 (5 : Fin 64) = true ∧
      (busIn 1 false false).rf Fx.GYS_SLOT_T_OWNER 0 (5 : Fin 64) = (busIn 1 false false).rf Fx.GYS_CFG_NODE ∧
      (busIn 2 false false).gys.node = 2 ∧ (busIn 2 false false).gys.csSent = false ∧ (busIn 2 true true).gys.csSent = true) ∧
    (∀ k : Fin 2, live (attempt k) ∧ (attempt k).gys.node = 3 ∧ (attempt k).gys.attemptCycles = 8 ∧ (attempt k).gys.attempts = k.val ∧
      regsRising (attempt k)) ∧
    (let s := (bus 3).gysChUpd 0 fun x => { x with mode := 6 }; live s ∧ (s.gysChOf 0).mode = 6 ∧ (s.gysChOf 1).mode ≠ 1) ∧
    (let s := delayCycle 2
     inSync s 0 ∧ s.rb Fx.GYS_CH_CFG_DLY_EN (0 : Fin 2) = true ∧ s.gys.cyc % 256 = 255 ∧ s.gys.cyc < 2 ^ 32 ∧ regsRising s ∧
       s.gys.cyc / 256 % 16 = s.rf Fx.GYS_CFG_NODE ∧ (5 : Fin 64).val ∈ (s.gysChOf (0 : Fin 2)).accPrev ∧
       s.rf Fx.GYS_SLOT_T_OWNER (0 : Fin 2) (5 : Fin 64) ≠ s.rf Fx.GYS_CFG_NODE ∧
       (∀ k : Fin 64, k < 5 → k.val ∉ (s.gysChOf (0 : Fin 2)).accPrev) ∧ (s.gysChOf (0 : Fin 2)).t2 = some 9 ∧
       (s.gysChOf (0 : Fin 2)).t1 = some (0, (3 : Fin 16).val)) ∧
    (let s := delayCycle 2
     let w := s.rf Fx.GYS_SLOT_T_START 0 (s.rf Fx.GYS_CH_CFG_DLY_SLOT 0) + 34 * 50 + 2 * s.rf Fx.GYS_TIMING_GUARD + 200
     let t4 : Int := (s.gys.ofs / 2 ^ 24 : Nat) - ((0 : Nat) + calRx s 0)
     (t4 - w * 256 - busDelay s 0).natAbs ≤ s.rf Fx.GYS_TIMING_GUARD * 256 ∧ t4 - (((2401 * 256 - 6592 : Nat) : Int) - 0) = 6592 ∧
       (6592 : Int) ≤ 102400 ∧ 102400 < t4 - 0) := by
  unfold live regsRising inSync; and_intros <;> decide +kernel

/-- The pair unit runs in state `st` beside a unit in state `peer`, on the pairing link over P1. -/
def pair (st peer : Nat) : State :=
  let s := ((run.wf Fx.PAIR_CFG_EN 1).wf Fx.PAIR_CFG_XPORT 2).wf Fx.MAC_CFG_EN 1 1 |>.wf Fx.PAIR_STAGE_BASE 5
  (s.macUpd 1 fun m => { m with link := true }).pairUpd fun p => { p with st := st, pState := peer, pByte := 32 * peer }
def lost (st edges : Nat) (gys : Bool) : State := (pair st 3).pairUpd fun p => { p with edges := edges, gysLost := gys }

theorem test_meets_PairStates :
    (pairRuns (pair 3 2) ∧ (pair 3 2).lock = true ∧ (lost 2 2 false).pair.edges < 3 ∧ (lost 2 2 false).pair.hbLost = false) ∧
    (∀ st ∈ [1, 2], ∀ g ∈ [true, false], pairRuns (lost st 3 g) ∧ (lost st 3 g).pair.hbLost = false ∧ (lost st 3 g).pair.edges = 3 ∧
      (lost st 3 g).pair.gysLost = g ∧ (lost st 3 g).pair.st = st) ∧
    (let s := { (pair 0 0).pairUpd fun p => { p with gysLost := true, hbLost := true } with gys := (bus 2).gys }
     pairRuns s ∧ s.pair.st = 0 ∧ s.pair.held = false ∧ s.integrated = true ∧ s.pair.due = none ∧ s.pair.gysLost = true ∧
       s.pair.hbLost = true) ∧
    (pairRuns (pair 0 0) ∧ (pair 0 0).integrated = false ∧ (pair 0 0).pair.hbLost = false ∧ (pair 0 0).pair.pByte % 2 = 0) ∧
    (let s := (pair 2 3).pairUpd fun p => { p with stale := 9 }
     pairRuns s ∧ s.pair.st = 2 ∧ s.pair.stale = 9 ∧ s.pair.pState = 3 ∧ s.tok.holder = 0 ∧ s.tok.fifo = []) ∧
    (∀ c ∈ [4, 7, 8, 9], let s := (pair 2 3).pairUpd fun p => { p with due := some c }
     pairRuns s ∧ s.pair.due = some c ∧ s.pair.commits = []) ∧
    ((pair 3 2).regDead .PAIR_CMD 0 0 = false ∧ ((pair 3 2).wf Fx.PAIR_OUT_GATE_RIL 0x801).rf Fx.PAIR_OUT_GATE_RIL = 0x801) ∧
    (let s := (pair 0 0).pairUpd fun p => { p with held := true }; pairRuns s ∧ s.pair.st = 0 ∧ s.pair.held = true) := by
  unfold pairRuns regsRising; and_intros <;> decide +kernel

/-- A body of one region record of 8 bytes for region 3, at 0x10000. -/
def oneRecord : List Byte := List.replicate 12 0#8 ++ [1, 0, 0, 0] ++ (leBytes 1 1 ++ leBytes 1 3 ++ leBytes 2 8 ++ [0, 0, 0, 0] ++ List.replicate 8 7#8)

theorem test_meets_PairSnapshotAndHandover :
    (pairRuns (pair 3 2) ∧ (pair 3 2).regDead .PAIR_CMD 0 0 = false ∧ (pair 3 2).pair.st = 3 ∧ (pair 3 2).pair.pByte / 32 = 2 ∧
      (pair 3 2).pair.ho = 0 ∧ pairRuns (pair 2 3) ∧ (pair 2 3).pair.st ≠ 3) ∧
    (∀ h ∈ [(1, 16), (2, 0), (3, 0)], let s := (pair 3 2).pairUpd fun p => { p with ho := h.1, hoTicks := h.2, hoCycle := run.gys.cyc }
     pairRuns s ∧ s.pair.st = 3 ∧ s.pair.ho = h.1 ∧ s.gys.cyc = s.pair.hoCycle ∧ s.pair.hoTicks = h.2) ∧
    (let s := (pair 2 3).pairUpd fun p => { p with holdAt := some 0 }
     pairRuns s ∧ s.pair.st = 2 ∧ s.pair.holdAt = some 0 ∧ 0 ≤ s.pwr.sec) ∧
    (let s := pair 2 3
     s.rf Fx.PAIR_CFG_XPORT = 2 ∧ s.portLink 1 = true ∧ be16 (List.replicate 60 0#8) 12 ≠ 0x88B5 ∧
       s.bankSt (poolBank (s.rf Fx.PAIR_STAGE_BASE * 4096)) = 0 ∧ s.rf Fx.PAIR_STAGE_BASE * 4096 + 36 + 36 ≤ lockBase ∧
       scanon (0#8) 0 s.pool = true ∧ s.pair.rx = none ∧ (List.replicate 36 1#8).length = 36 ∧ 0 + 36 < 73 ∧ 36 + 36 < 73 ∧
       (s.pairUpd fun p => { p with rx := some (7, 73, List.replicate 36 1#8) }).pair.rx = some (7, 73, List.replicate 36 1#8)) ∧
    ((pair 3 2).snapZ ≤ 1408 ∧ (pair 2 3).snapLayout = (pair 3 2).snapLayout) ∧
    (let s := ((pair 2 3).wf Fx.PAIR_MREG_BASE_BASE 0x2000 3).pairUpd fun p => { p with commits := [(513, oneRecord)] }
     pairRuns s ∧ s.pair.commits = (513, oneRecord) :: [] ∧ s.rf Fx.PAIR_MREG_BASE_BASE (3 : Fin 32) * 8 = 0x10000 ∧
       (List.replicate 8 7#8).length < 2 ^ 16 ∧ leNat ((oneRecord.drop 12).take 2) = 1 ∧
       (oneRecord.drop 16).take (8 + (List.replicate 8 7#8).length) =
         leBytes 1 1 ++ leBytes 1 (3 : Fin 32).val ++ leBytes 2 (List.replicate 8 7#8).length ++ [0, 0, 0, 0] ++ List.replicate 8 7#8 ∧
       scanon (0#8) 0 s.pool = true ∧ s.bankSt (poolBank 0x10000) = 0 ∧ 0x10000 + 8 ≤ lockBase) := by
  unfold pairRuns regsRising; and_intros <;> decide +kernel

/-! ### The Ilutas instruction set (spec/09) -/

/-- Cluster 3 RUNNING with the word `w` at its pc 0x100 and ADD g1, g1, g1 after it; ra is g2, with value `a`. -/
def coreWith (w : Word) (a : Word) (f : Ctx → Ctx) : State :=
  { run with
    clu := run.clu.set 3 { Clu.reset 3 with st := 1, ctx := f (({ Ctx.reset with pc := 0x100, vbase := 0x400 } : Ctx).setReg 2 a) }
    core := run.core.set 3 { PCore.reset with imem := wrBytes [] 0x100 (leBytes 4 w.toNat ++ leBytes 4 0x00210800) } }
def coreAt (w : Word) (a : Word := 0#32) : State := coreWith w a id
/-- A loop body open at level 0 whose last instruction is the one at pc. -/
def atLoopEnd (n : Nat) (c : Ctx) : Ctx := { c with l0 := ⟨n, 0x80, 0x100, 0, true⟩ }

/-- Words written out bit by bit from the encodings of spec/09, and the instructions they are. -/
theorem test_words :
    0x14200001#32 = encI 0x05 1 0 1 ∧ insRow 0x14200001#32 = some (64 * 0x05) ∧ zeroBad 0x14200001#32 = false ∧
      0x0C210100#32 = encI 0x03 1 1 0x100 ∧ insRow 0x0C210100#32 = some (64 * 0x03) ∧
      0xAC000009#32 = BitVec.ofNat 32 (0x2B * 2 ^ 26 + 9) ∧ insRow 0xAC000009#32 = some (64 * 0x2B) ∧
      0x4C410002#32 = encT 0x13 2 1 0 2 ∧ insRow 0x4C410002#32 = some (64 * 0x13) ∧
      0x82603FFB#32 = encI 0x20 19 0 0x3FFB ∧ insRow 0x82603FFB#32 = some (64 * 0x20) := by
  decide +kernel

theorem test_meets_RegisterWindow :
    (coreAt 0#32).physOf 3 < 16 ∧ ((coreAt 0#32).ctxOf 3).st.wbot < 16 ∧
      (let s := coreWith 0#32 0#32 fun c => { c with spillPtr := 0x1FFE0 }
       s.physOf (3 : Fin 16) < 16 ∧ s.spillOk (3 : Fin 16) (s.ctxOf (3 : Fin 16)).spillPtr = true ∧ (s.ctxOf 3).spillPtr = 0x1FFE0) := by
  and_intros <;> decide +kernel

theorem test_meets_AluResults :
    (∀ row ∈ aluRows, atWord (coreAt (encT 0 1 2 0 row.fn)) 3 (encT 0 1 2 0 row.fn) ∧ (row.unary = true → (0 : Fin 32) = 0)) ∧
      (∀ row ∈ immRows, let ra : Fin 32 := if row.maj = 5 then 0 else 2
        atWord (coreAt (encI row.maj 1 ra (0xC01F#16).toNat)) 3 (encI row.maj 1 ra (0xC01F#16).toNat) ∧ row.ok ra 0xC01F#16 = true) ∧
      (∀ row ∈ fieldRows, atWord (coreAt (encF 0x11 1 2 31 0 row.fn)) 3 (encF 0x11 1 2 31 0 row.fn)) ∧
      (∀ width : Fin 3, ∀ alg : Fin 6, atWord (coreAt (encT 0x12 1 2 3 (16 * width + alg))) 3 (encT 0x12 1 2 3 (16 * width + alg))) ∧
      fetchGood .clean ∧ fetchGood .fetchRetry ∧ (31 : Fin 32).val + (0 : Fin 32).val ≤ 31 := by
  unfold atWord fetchGood; and_intros <;> decide +kernel

/-- The last word of the data memory, the first and the last word of the pool below the locks. -/
theorem test_meets_LoadResults :
    (∀ row ∈ loadRows, ∀ a ∈ [0x1FFFC, 0x100000, 0x2FFEFC],
      let s := coreAt (encI row.sel 1 2 0) (BitVec.ofNat 32 a)
      atWord s 3 (encI row.sel 1 2 (0#16).toNat) ∧ loadable s 3 (((s.ctxOf 3).reg 2 + (0#16).signExtend 32).toNat) row.size = true) ∧
    (∀ row ∈ loadPRows, let s := coreAt (encI 0x10 1 2 (8192 * row.sel + 4)) 0x100000#32
      atWord s 3 (encI 0x10 1 2 (8192 * row.sel + (4#13).toNat)) ∧ loadable s 3 ((s.ctxOf 3).reg 2).toNat row.size = true) ∧
    (∀ width : Fin 3, ∀ alg : Fin 6, let s := coreAt (encT 0x13 1 2 0 (16 * width + alg)) 0x10000#32
      atWord s 3 (encT 0x13 1 2 0 (16 * width + alg)) ∧ loadable s 3 ((s.ctxOf 3).reg 2).toNat (2 ^ width.val) = true) ∧
    eccGood .clean ∧ eccGood .fetchRetry ∧ (1 : Fin 32) ≠ 2 := by
  unfold atWord eccGood; and_intros <;> decide +kernel

theorem test_meets_StoreAndAtomicResults :
    (∀ row ∈ storeRows, ∀ a ∈ [0x10000, 0x2FFEFC], let s := coreAt (encI row.sel 1 2 0) (BitVec.ofNat 32 a)
      atWord s 3 (encI row.sel 1 2 (0#16).toNat) ∧ storable s 3 (((s.ctxOf 3).reg 2 + (0#16).signExtend 32).toNat) row.size = true) ∧
    (∀ row ∈ storePRows, let s := coreAt (encI 0x10 1 2 (8192 * row.sel + 4)) 0x100000#32
      atWord s 3 (encI 0x10 1 2 (8192 * row.sel + (4#13).toNat)) ∧ storable s 3 ((s.ctxOf 3).reg 2).toNat row.size = true) ∧
    (∀ swap : Bool, let s := coreAt (encT 0x14 1 2 3 (b2n swap)) 0x100000#32
      atWord s 3 (encT 0x14 1 2 3 (b2n swap)) ∧ storable s 3 ((s.ctxOf 3).reg 2).toNat 4 = true ∧ 0x100000 ≤ ((s.ctxOf 3).reg 2).toNat) ∧
    (∀ n ∈ [0, 63], ∀ maj ∈ [0x08, 0x0D], let s := coreAt (encI maj 1 2 0) (BitVec.ofNat 32 (0x2FFF00 + 4 * n))
      ((s.ctxOf 3).reg 2).toNat = 0x100000 + 0x1FFF00 + 4 * n ∧ atWord s 3 (encI maj 1 2 0) ∧ s.lckOf n = 0) := by
  unfold atWord; and_intros <;> decide +kernel

theorem test_meets_StoreFrame :
    run.physOf 3 < 16 ∧ 0x10000 ≤ 0x1FFFC ∧ 0x1FFFC + (List.replicate 4 0#8).length ≤ 0x20000 ∧
      run.mirrorProt (0x110000 - 0x100000) (List.replicate 4 0#8).length = false ∧
      (let s := (((pair 2 3).wf Fx.PAIR_MREG_BASE_EN 1 3).wf Fx.PAIR_MREG_BASE_BASE 0x2000 3).wf Fx.PAIR_MREG_LEN_LEN 16 3
       s.mirrorProt (0x110000 - 0x100000) (List.replicate 4 0#8).length = true) := by
  and_intros <;> decide +kernel

theorem test_meets_InstructionTraps :
    (∀ row ∈ loadRows ++ storeRows, ∀ a ∈ [0x20000, 0xFFFFC, 0x300000], let s := coreAt (encI row.sel 1 2 0) (BitVec.ofNat 32 a)
      atWord s 3 (encI row.sel 1 2 (0#16).toNat) ∧ ((s.ctxOf 3).reg 2 + (0#16).signExtend 32).toNat = a ∧ a % row.size = 0 ∧
        ((0x20000 ≤ a ∧ a < 0x100000) ∨ 0x300000 ≤ a)) ∧
    ((coreAt (encI 0x08 1 2 0) 0x10001#32).ctxOf 3).reg 2 + (0#16).signExtend 32 = 0x10001#32 ∧ (0x10001#32).toNat % 4 ≠ 0 ∧
    ((0xFFFC#32).toNat < 0x10000 ∧ (0xFFFC#32).toNat % 4 = 0) ∧
    (let s := coreAt (encT 0x14 1 2 3 0) 0x10000#32
     atWord s 3 (encT 0x14 1 2 3 0) ∧ ((s.ctxOf 3).reg 2).toNat % 4 = 0 ∧ ((s.ctxOf 3).reg 2).toNat < 0x100000) ∧
    (∀ fn ∈ [0, 1], let s := coreAt (encT 0x14 1 2 3 fn) 0x100002#32
     atWord s 3 (encT 0x14 1 2 3 fn) ∧ ((s.ctxOf 3).reg 2).toNat % 4 ≠ 0) ∧
    (let s := coreAt (encI 0x10 1 2 (8192 * 4 + 2)) 0x100001#32
     atWord s 3 (encI 0x10 1 2 (8192 * 4 + (2#13).toNat)) ∧ ((s.ctxOf 3).reg 2).toNat % 2 ≠ 0) ∧
    (let s := coreAt (encT 0x13 1 2 0 (16 * 1 + 2)) 0x100001#32
     atWord s 3 (encT 0x13 1 2 0 (16 * 1 + 2)) ∧ ((s.ctxOf 3).reg 2).toNat % 2 ^ 1 ≠ 0) ∧
    (atWord (coreAt 0xC0000000#32) 3 0xC0000000#32 ∧ 0x30 ≤ fMaj 0xC0000000#32) ∧
    (let w := encT 0 1 2 3 (64 * 1 + 0x18); atWord (coreAt w) 3 w) ∧ (let w := encT 0 1 2 3 0x18; atWord (coreAt w) 3 w ∧ (3 : Fin 32) ≠ 0) := by
  unfold atWord; and_intros <;> decide +kernel

/-- Engine 5 bound to cluster 3, its TX FIFO with `n` entries and its RX FIFO empty. -/
def boundRill (w : Word) (n : Nat) : State :=
  let s := (coreAt w).rilUpd 5 fun r => { r with tx := List.replicate n (0#32, 0) }
  s.sg .ENG_BIND 3 0 0xFFFFFFFF#32

theorem test_meets_UnitInstructions :
    (let w := encX 0x16 1 0 0 2 0; atWord (coreAt w) 3 w) ∧
    (∀ x : Fin 3, let w := encX 0x16 1 2 0 2 (1 + x); atWord (coreAt w) 3 w ∧ (coreAt w).tbAllowed 3 2 = false ∧ (2 : Fin 8) ≠ 0) ∧
    (∀ x : Fin 3, let w := encX 0x16 1 2 0 2 (1 + x); let s := (coreAt w).sg .ENG_TB_PERM 3 0 4#32; atWord s 3 w ∧ s.tbAllowed 3 2 = true) ∧
    (let w := encX 0x16 1 2 0 2 4; atWord (coreAt w) 3 w) ∧
    (∀ n ∈ [0, 3, 4], let w := encX 0x17 0 2 0 5 0; atWord (boundRill w n) 3 w ∧ 5 < (boundRill w n).variant.engines ∧
      ((boundRill w n).rilOf 5).tx.length = n) ∧
    (∀ fn ∈ [1, 2], let w := encX 0x17 1 0 0 5 fn; atWord (boundRill w 0) 3 w ∧ ((boundRill w 0).rilOf 5).rx = []) := by
  unfold atWord; and_intros <;> decide +kernel

/-- CSR 0x000 (STATUS), a read-only one, one that is not defined, and a system instruction at a loop end. -/
theorem test_meets_CsrAndSystemInstructions :
    (∀ fn : Fin 4, let w := encC 0x19 1 2 (0xFFF#12).toNat fn; atWord (coreAt w) 3 w ∧ (coreAt w).csrRead 3 (0xFFF#12).toNat = none) ∧
    (∀ fn : Fin 4, let w := encC 0x19 1 2 (0#12).toNat fn; atWord (coreAt w) 3 w ∧ ((coreAt w).csrRead 3 (0#12).toNat).isSome = true) ∧
    (∀ fn ∈ [0, 1, 2, 4, 5, 6, 7], let w := encI 0x1A 0 0 fn
      atWord (coreAt w) 3 w ∧ ((coreAt w).ctxOf 3).endsBody = false ∧ ((coreAt w).ctxOf 3).st.exl = false ∧
        atWord (coreWith w 0#32 (atLoopEnd 1)) 3 w ∧ ((coreWith w 0#32 (atLoopEnd 1)).ctxOf 3).endsBody = true) ∧
    (let w := BitVec.ofNat 32 (0x1A * 2 ^ 26 + (0xFFFF#16).toNat * 2 ^ 10 + 3); atWord (coreAt w) 3 w) := by
  unfold atWord; and_intros <;> decide +kernel

theorem test_meets_ControlFlow :
    (∀ cond : Fin 8, let w := encI 0x20 0 0 (8192 * cond + (0x1FFB#13).toNat)
      atWord (coreAt w) 3 w ∧ ((coreAt w).ctxOf 3).endsBody = false ∧ (6 ≤ cond.val → (0 : Fin 32) = 0 ∧ (0 : Fin 32) = 0)) ∧
    (∀ cond : Fin 8, let w := encI 0x21 2 (31#5).toNat (8192 * cond + (2#13).toNat); atWord (coreAt w) 3 w) ∧
    (∀ maj ∈ [0x22, 0x23], let w := BitVec.ofNat 32 (maj * 2 ^ 26 + (0x3FFFFFF#26).toNat); atWord (coreAt w) 3 w) ∧
    (∀ fn ∈ [0, 1], let w := encT 0x24 0 2 0 fn; atWord (coreAt w 0x200#32) 3 w ∧ ((coreAt w 0x200#32).ctxOf 3).st.span < 15) ∧
    (let w := encT 0x24 0 0 0 2
     let s := coreWith w 0#32 fun c => { c with st := { c.st with cwp := 1 } }
     atWord s 3 w ∧ 2 ≤ (s.ctxOf 3).st.span) := by
  unfold atWord; and_intros <;> decide +kernel

theorem test_meets_LoopsAndRepeats :
    (let w := encI 0x28 0 2 (5#12).toNat; atWord (coreAt w) 3 w ∧ ((coreAt w).ctxOf 3).endsBody = false) ∧
    (let w := BitVec.ofNat 32 (0x29 * 2 ^ 26 + (4095#12).toNat * 2 ^ 14 + (4095#12).toNat); atWord (coreAt w) 3 w) ∧
    (let w := encI 0x2A 0 2 0; atWord (coreAt w) 3 w) ∧ (let w := BitVec.ofNat 32 (0x2B * 2 ^ 26 + (9#12).toNat); atWord (coreAt w) 3 w) ∧
    (let c : Ctx := { Ctx.reset with pc := 0x100 }; c.rep = none ∧ c.endsBody = false) ∧
    (({ Ctx.reset with rep := some 2 } : Ctx).rep = some 2) ∧
    (∀ n ∈ [1, 2], let c : Ctx := { Ctx.reset with pc := 0x100, l1 := ⟨n, 0x80, 0x100, 0, true⟩ }
      c.rep = none ∧ c.atEnd c.l1 = true ∧ c.l1.count = n ∧ c.atEnd c.l0 = false) ∧
    (let c : Ctx := { Ctx.reset with pc := 0x100, l1 := ⟨1, 0x80, 0x100, 0, true⟩, l0 := ⟨2, 0x40, 0x100, 0, true⟩ }
     c.atEnd c.l1 = true ∧ c.l1.count = 1 ∧ c.atEnd c.l0 = true ∧ c.l0.count ≠ 1) ∧
    (let c := atLoopEnd 1 { Ctx.reset with pc := 0x100 }; c.rep = none ∧ c.atEnd c.l1 = false ∧ c.atEnd c.l0 = true ∧ c.l0.count = 1) := by
  unfold atWord; and_intros <;> decide +kernel

theorem test_meets_ExceptionEntryAndReturn :
    (((coreAt 0#32).ctxOf 3).st.exl = false ∧ ((coreAt 0#32).ctxOf 3).st.span ≤ 13) ∧
    (let w := encI 0x1A 0 0 5
     let s := coreWith w 0#32 fun c => { c with st := { c.st with exl := true, cwp := 2 } }
     atWord s 3 w ∧ (s.ctxOf 3).endsBody = false ∧ (s.ctxOf 3).st.exl = true ∧
       ((s.ctxOf 3).st.cwp + 16 - (s.ctxOf 3).est.cwp) % 16 + (s.ctxOf 3).est.span ≤ (s.ctxOf 3).st.span) := by
  unfold atWord; and_intros <;> decide +kernel

/-- Line 3 pending and enabled; each wait. -/
def waiting (w : Option CoreWait) : State := coreWith 0#32 0#32 fun c => { c with wait := w, timer := 1 }

theorem test_meets_CoreEvents :
    (let s := coreWith 0#32 0#32 fun c => { c with st := { c.st with ie := true }, imask := 9, latched := 9 }
     (3 : Fin 16).val < s.variant.cores ∧ s.pll pllCore = true ∧ (s.cluOf (3 : Fin 16)).st = 1 ∧ s.intDue (3 : Fin 16) = true ∧
       (s.ctxOf (3 : Fin 16)).wait ≠ some .wait ∧ (s.wanted (3 : Fin 16)).testBit (0 : Fin 12).val = true) ∧
    ((waiting none).ctxOf (3 : Fin 16)).timer = 1 ∧
    (∀ w ∈ [CoreWait.wait, .tb 2 5, .push 5 1#32, .pop 5 1],
      ((waiting (some w)).cluOf (3 : Fin 16)).st = 1 ∧ ((waiting (some w)).ctxOf (3 : Fin 16)).wait = some w) := by
  and_intros <;> decide +kernel

/-! ### Engine run time (spec/10) -/

/-- Mailbox 63 from `snd` to `rcv`. -/
def mbox (s : State) (snd rcv : Nat) : State := ((s.wf Fx.MBX_CFG_EN 1 63).wf Fx.MBX_CFG_SND snd 63).wf Fx.MBX_CFG_RCV rcv 63

theorem test_meets_Mailboxes :
    (∀ fn ∈ [0, 2], let w := encX 0x15 0 2 0 63 fn
      atWord (mbox (coreAt w) 3 4) 3 w ∧ (mbox (coreAt w) 3 4).mbxEn (63 : Fin 64) = true ∧ (mbox (coreAt w) 3 4).mbxSnd (63 : Fin 64) = 3 ∧
        (mbox (coreAt w) 3 4).mbxRcv (63 : Fin 64) ≠ 3 ∧ (mbox (coreAt w) 4 3).mbxRcv (63 : Fin 64) = 3) ∧
    (∀ fn ∈ [1, 3, 4], let w := encX 0x15 1 0 0 63 fn; atWord (mbox (coreAt w) 4 3) 3 w ∧ atWord (coreAt w) 3 w) ∧
    (live run ∧ run.mbxEn (63 : Fin 64) = false) ∧
    (∀ soft : Fin 2, let s := (mbox run 16 4).wf Fx.MBX_CFG_SOFT soft 63
      s.mbxEn (63 : Fin 64) = true ∧ s.mbxSnd (63 : Fin 64) = 16 ∧ s.mbxRcv (63 : Fin 64) ≠ 16 ∧ s.mbxRcv (63 : Fin 64) < 16 ∧
        s.rb Fx.MBX_CFG_SOFT (63 : Fin 64) = decide (soft = 1)) ∧
    ((mbox run 4 16).mbxRcv (63 : Fin 64) = 16 ∧ (mbox run 4 16).mbxSnd (63 : Fin 64) ≠ 16) := by
  unfold atWord live; and_intros <;> decide +kernel

def lockHeld (id : Nat) : State := { run with lck := vupd run.lck 63 fun _ => 2 ^ 31 + id }
/-- Cluster 3 in state `st`, with ticks; core 15 free. -/
def clu3 (st : Nat) : State :=
  let s := cyc.cluUpd 3 fun c => { c with st := st, loaded := true, autoDue := true, inWindow := true, migFrom := 1 }
  (s.cluUpd 15 fun c => { c with st := 0 }).cluUpd 14 fun c => { c with st := 1 }
def migrating (x : MigReq) (st : Nat) : State := { clu3 st with tok := ⟨1, []⟩, mig := [x] }

theorem test_meets_LocksClustersAndMigration :
    (live run ∧ regsRising run ∧ run.lckOf (63 : Fin 64) = 0 ∧ (lockHeld 3).lckOf (63 : Fin 64) ≠ 0 ∧
      (lockHeld 3).lckOf (63 : Fin 64) = 2 ^ 31 + (3 : Fin 16).val ∧ (lockHeld 4).lckOf (63 : Fin 64) ≠ 2 ^ 31 + (3 : Fin 16).val) ∧
    (∀ st ∈ [0, 1, 2, 3, 4], live (clu3 st) ∧ (3 : Fin 16).val < (clu3 st).variant.cores ∧ regsRising (clu3 st) ∧
      ((clu3 st).cluOf (3 : Fin 16)).st = st ∧ ((clu3 st).cluOf (3 : Fin 16)).loaded = true ∧ ((clu3 st).coreOf 3).oos = false ∧
      ((clu3 st).cluOf (3 : Fin 16)).autoDue = true ∧ ((clu3 st).cluOf (3 : Fin 16)).inWindow = true ∧
      ((clu3 st).cluOf (3 : Fin 16)).phys = 3 ∧ ((clu3 st).cluOf (3 : Fin 16)).migPending = false ∧ (clu3 st).tickRun = true ∧
      (clu3 st).tok.holder = 0 ∧ (clu3 st).tok.fifo = []) ∧
    ((run.cluOf (3 : Fin 16)).st = 0 ∧ (run.cluOf (3 : Fin 16)).loaded = false ∧ run.tickRun = false) ∧
    ((12 : Fin 32).val < 16 ∧ ({ clu3 1 with variant := .lx2412 } : State).variant.cores ≤ (12 : Fin 32).val ∧ (16 : Fin 32) ≤ 16) ∧
    (∀ n ∈ [14, 15], let s := migrating ⟨3, n, none, none⟩ 1
      regsRising s ∧ s.tok = ⟨1, []⟩ ∧ s.mig = [⟨3, n, none, none⟩] ∧ s.tickRun = true ∧ n < 16 ∧ s.coreFree n = decide (n = 15)) ∧
    (let s := migrating ⟨3, 15, none, some 15⟩ 4
     regsRising s ∧ s.tok = ⟨1, []⟩ ∧ s.mig = [⟨3, 15, none, some 15⟩] ∧ (s.cluOf (3 : Fin 16)).st = 4 ∧ (s.fqOf (3 : Fin 16)).aside = [] ∧
       (∀ i : Fin 16, i ≠ 15 → (s.cluOf i).phys ≠ 15) ∧ (s.cluOf (15 : Fin 16)).phys = 15 ∧ (15 : Fin 16) ≠ 3 ∧
       (s.cluOf (3 : Fin 16)).phys < 16 ∧ (s.cluOf (3 : Fin 16)).migFrom = 1) ∧
    (live (clu3 1) ∧ (clu3 1).coreFree 15 = true ∧ ((clu3 1).cluOf ((clu3 1).clusterOn 15)).st = 0 ∧
      ((run.coreUpd 15 fun c => { c with oos := true }).coreOf 15).oos = true ∧ (run.coreOf 15).oos = false ∧
      ((run.coreUpd 15 fun c => { c with init := true }).coreOf 15).init = true) := by
  unfold live regsRising; and_intros <;> decide +kernel

/-- A request at 0x10100 for 64 bytes from 0x10200 to P3; it lies in the data memory of core 3. -/
def request : List Byte := frameRequest 0x10200 64 3 2 9 (List.replicate 8 0)
def withRequest (n : Nat) : State :=
  let w := encT 0x18 1 2 0 0
  let s := (coreAt w 0x10100#32).coreUpd 3 fun c => { c with dmem := wrBytes [] 0x100 request }
  s.fqUpd 3 fun q => { q with work := List.replicate n ⟨0, [], .reading, [], 0⟩ }
def asked (ph : TxPhase) : State := (run.wf Fx.CFL_CTL_EN 1).fqUpd 3 fun q => { q with work := [⟨7, [request], ph, [], 0x10100⟩] }
/-- A frame of `n` bytes waits at SP15, steered to cluster 3 with one free buffer of 128 bytes. -/
def atSp15 (n : Nat) (free : List Nat) : State :=
  let s := { run with cfl := { run.cfl with sink := run.cfl.sink.set 1 [rxFrame n] } }
  let s := ((s.wf Fx.ENG_FQ_STEER_EN 1 (8 * 3 + 2)).wf Fx.ENG_FQ_STEER_CLUSTER 3 (8 * 3 + 2)).wf Fx.ENG_FQ_RXGEO_COUNT 1 3
  ((s.wf Fx.ENG_FQ_RXGEO_BUFSZ 2 3).cluUpd 3 fun c => { c with st := 1 }).fqUpd 3 fun q => { q with free := free }

theorem test_meets_FrameQueues :
    (∀ n ∈ [15, 16], let s := withRequest n
      atWord s 3 (encT 0x18 1 2 0 0) ∧ ((s.ctxOf 3).reg 2).toNat = 0x10100 ∧ s.fqRead 3 0x10100 32 = request ∧
        inDataOrPool 0x10100 32 = true ∧ inDataOrPool 0x10200 64 = true ∧ (s.fqOf (3 : Fin 16)).work.length = n ∧
        (s.inOf 15).bp = false ∧ s.variant.hasPort 3 = true ∧ 64 + 4 ≤ s.maxLen 3 true) ∧
    (let w := encT 0x18 1 2 0 0; atWord (coreAt w 0x10101#32) 3 w ∧ (((coreAt w 0x10101#32).ctxOf 3).reg 2).toNat % 8 ≠ 0) ∧
    (let w := encT 0x18 1 0 0 1
     atWord (coreAt w) 3 w ∧ ((coreAt w).fqOf 3).ready = [] ∧ (((coreAt w).fqUpd 3 fun q => { q with ready := [0x10400] }).fqOf 3).ready = 0x10400 :: []) ∧
    (let w := encT 0x18 0 2 0 2; atWord (coreAt w 0x10400#32) 3 w) ∧ (let w := encT 0x18 1 0 0 3; atWord (coreAt w) 3 w) ∧
    (((asked .reading).cluOf (3 : Fin 16)).st ≠ 4 ∧ ((asked .reading).fqOf (3 : Fin 16)).work = [⟨7, [request], .reading, [], 0x10100⟩] ∧
      (asked .reading).rb Fx.CFL_CTL_EN = true) ∧
    (let s := (asked (.done 0x04)).fqUpd 3 fun q => { q with refused := true }
     (s.fqOf (3 : Fin 16)).work = ⟨7, [request], .done 0x04, [], 0x10100⟩ :: [] ∧ (s.cluOf (3 : Fin 16)).st ≠ 4 ∧ 0x10000 ≤ 0x10100 ∧
       0x10100 + 32 ≤ 0x20000 ∧ s.coreOn (3 : Fin 16) = true ∧ s.physOf (3 : Fin 16) < 16 ∧
       scanon (0#8) 0 (s.coreOf (s.physOf (3 : Fin 16))).dmem = true ∧ (s.fqOf (3 : Fin 16)).refused = true) ∧
    (∀ n ∈ [112, 113], let s := atSp15 n [0x1FF80]
      s.sinkOf 1 = rxFrame n :: [] ∧ (rxFrame n).ecc = false ∧ (∀ r : Fin 16, s.rb Fx.ENG_FQ_ETYPE_EN r = false) ∧
        s.rb Fx.ENG_FQ_STEER_EN (8 * 3 + 2) = true ∧ s.rf Fx.ENG_FQ_STEER_CLUSTER (8 * 3 + 2) = 3 ∧ (s.cluOf 3).st = 1 ∧
        (s.fqOf 3).free = 0x1FF80 :: [] ∧ s.rf Fx.ENG_FQ_RXGEO_COUNT 3 ≠ 0 ∧ (rxFrame n).stamp = some 777 ∧
        s.rf Fx.ENG_FQ_RXGEO_BUFSZ 3 * 64 = 128 ∧ (n = 113 → 128 < (rxFrame n).data.length + 16) ∧
        (n = 112 → (rxFrame n).data.length + 16 ≤ 128) ∧ 0x1FF80 + 128 ≤ 0x20000 ∧ s.coreOn 3 = true ∧ s.physOf 3 < 16 ∧
        scanon (0#8) 0 (s.coreOf (s.physOf 3)).dmem = true) ∧
    ((atSp15 112 []).fqOf 3).free = [] ∧
    ((atSp15 112 []).wf Fx.ENG_FQ_STEER_EN 0 (8 * 3 + 2)).rb Fx.ENG_FQ_STEER_EN (8 * 3 + 2) = false := by
  unfold atWord; and_intros <;> decide +kernel

/-! ### The Rill engines (spec/11) -/

/-- Engine 9 RUNNING at its word `w`, all four slots enabled, S1 to S3 outputs, `n` entries in each FIFO. -/
def rill (w : Word) (n : Nat := 0) : State :=
  let s := run.rilUpd 9 fun r =>
    { r with st := 1, sr := 6#32, pc := 31, tx := List.replicate n (9#32, 0), rx := List.replicate n 7#32, waiting := false }
  let s := (List.range 4).foldl (fun s j => (s.wf Fx.RIL_SLOT_EN 1 9 j).wf Fx.RIL_SLOT_OUT (min j 1) 9 j) s
  (s.sg .RIL_PROG 9 31 w).wf Fx.RIL_ECFG_RESAMPLE 1 9
def held (s : State) : State := s.rilUpd 9 fun r => { r with waiting := true }

theorem test_meets_RillInstructions :
    (∀ test ∈ [0, 1, 2, 3, 4, 5, 6], let w := rillIns 0 1 15 (test * 2 ^ 19 + (0 : Fin 4) * 2 ^ 17 + (31 : Fin 32)); rillAt (rill w) 9 w) ∧
    (∀ event : Fin 6, let w := rillIns 1 3 0 (event * 2 ^ 19 + (0 : Fin 4) * 2 ^ 17); rillAt (rill w) 9 w) ∧
    ((List.replicate 32 (true, 5)).length ≤ 32 ∧ List.replicate 32 (true, 5) ≠ [] ∧
      (∀ x ∈ [2 ^ 20 + 0 * 2 ^ 18 + 31, 2 ^ 21 + 1 * 2 ^ 16 + 31, 2 ^ 21 + 2 ^ 20 + 0 * 2 ^ 18 + 1 * 2 ^ 16 + 31],
        rillAt (rill (rillIns 2 0 0 x)) 9 (rillIns 2 0 0 x)) ∧
      (rill 0#32).rb Fx.RIL_ECFG_IN_SHR (9 : Fin 48) = (rill 0#32).rb Fx.RIL_ECFG_OUT_SHR (9 : Fin 48)) ∧
    (∀ reuse : Bool, ∀ n ∈ [0, 1], let w := rillIns 3 0 0 (b2n reuse * 2 ^ 21)
      rillAt (rill w n) 9 w ∧ regsRising (rill w n) ∧ ((rill w n).rilOf 9).tx.length = n) ∧
    (let s := (rill (rillIns 3 0 0 0) 1).sg .RIL_CMP_MASK 9 0 2#32
     ((((s.rilOf 9).sr ^^^ s.rg .RIL_CMP_VAL (9 : Fin 48)) &&& s.rg .RIL_CMP_MASK (9 : Fin 48)) == 0#32) = false ∧
       (9#32 ^^^ s.rg .RIL_CMP_VAL (9 : Fin 48)) &&& s.rg .RIL_CMP_MASK (9 : Fin 48) = 0#32) ∧
    (∀ stamp drop zero : Bool, ∀ n ∈ [3, 4], let w := rillIns 4 0 0 (b2n stamp * 2 ^ 21 + b2n drop * 2 ^ 20 + b2n zero * 2 ^ 19)
      rillAt (rill w n) 9 w ∧ regsRising (rill w n) ∧ ((rill w n).rilOf 9).rx.length = n) ∧
    (∀ x ∈ [3 * 2 ^ 17 + 1, 2 ^ 20 + 3 * 2 ^ 17 + 1, 2 ^ 21 + 65535], rillAt (rill (rillIns 5 0 0 x)) 9 (rillIns 5 0 0 x)) ∧
    (∀ sel : Fin 4, let w := rillIns 6 0 0 (sel * 2 ^ 19); rillAt (rill w) 9 w) ∧
    (let w := rillIns 7 0 0 ((0 : Fin 4) * 2 ^ 17 + b2n true * 2 ^ 16 + (31 : Fin 32))
     rillAt (rill w) 9 w ∧ regsRising (rill w) ∧ (rill w).rf Fx.RIL_ECFG_RESAMPLE (9 : Fin 48) ≠ 0 ∧
       ((rill w).wf Fx.RIL_ECFG_RESAMPLE 0 9).rf Fx.RIL_ECFG_RESAMPLE (9 : Fin 48) = 0) ∧
    rillAt (rill 0xF0000000#32) 9 0xF0000000#32 ∧
    (∀ w ∈ [rillIns 1 0 0 (2 ^ 19 + 3 * 2 ^ 17), rillIns 3 0 0 0, rillIns 4 0 0 0].map BitVec.toNat,
      let s := held (rill (BitVec.ofNat 32 w) 3)
      (s.rilOf 9).st = 1 ∧ (s.rilOf 9).waiting = true ∧ s.rg .RIL_PROG (9 : Fin 48) (s.rilOf 9).pc = BitVec.ofNat 32 w ∧ (s.rilOf 9).rx.length < 4) ∧
    (∀ w ∈ [0x80000000, 0xF0000001, 0x30000001, 0x04000000],
      let s := (rill (BitVec.ofNat 32 w)).wf Fx.RIL_SLOT_OUT 0 9 3
      (9 : Fin 48).val < s.variant.engines ∧ s.pll pllRill = true ∧ (s.rilOf 9).st = 1 ∧ (s.rilOf 9).waiting = false ∧ regsRising s ∧
        (let w := s.rg .RIL_PROG (9 : Fin 48) (s.rilOf 9).pc
         rOp w = 8 ∨ (rOp w = 15 ∧ w ≠ 0xF0000000#32) ∨ (rOp w = 3 ∧ w.getLsbD 0 = true) ∨
           (rOp w ≠ 15 ∧ rCl w ≠ 0 ∧ s.slotOut (9 : Fin 48) 3 = false))) := by
  unfold rillAt regsRising; and_intros <;> decide +kernel

/-- Engine 9 in state `st`, ticks running, with CYC_SYNC `cs` at an AWAIT of the tick. -/
def eng (st cs : Nat) : State :=
  let s := cyc.rilUpd 9 fun r => { r with st := st, waiting := decide (st = 1) }
  { (s.sg .RIL_PROG 9 0 0x10280000#32).wf Fx.RIL_ECFG_CYC_SYNC cs 9 with cyc := { s.cyc with rillDone := false } }
def engGroup (st : Nat) : State := (List.range 4).foldl (fun s j => s.rilUpd (8 + j) fun r => { r with st := st }) run

theorem test_meets_RillControl :
    (∀ st ∈ [0, 1, 2, 3], let s := eng st 0
      live s ∧ (9 : Fin 48).val < s.variant.engines ∧ regsRising s ∧ (s.rilOf (9 : Fin 48)).st = st ∧ s.pllStopped pllRill = false ∧
        ({ s with lock := false } : State).lock = false ∧ s.lock = true ∧
        ({ s with rilSyncLo := 512 } : State).rilSyncLo = 2 ^ (9 : Fin 48).val ∧ s.rilSyncLo = 0) ∧
    (let s := (rill (rillIns 2 0 0 (2 ^ 20 + 31))).rilUpd 9 fun r => { r with st := 2 }
     live s ∧ regsRising s ∧ (s.rilOf (9 : Fin 48)).st = 2 ∧ s.pll pllRill = true ∧
       s.rillWord (9 : Fin 48) = rillIns 2 0 0 (2 ^ 20 + (0 : Fin 4) * 2 ^ 18 + (31 : Fin 32)) ∧ s.slotEn (9 : Fin 48) (0 : Fin 4) = true ∧
       [(true, 5), (false, 6)].length ≤ (31 : Fin 32)) ∧
    (∀ st ∈ [0, 1], let s := run.rilUpd 47 fun r => { r with st := st }
      live s ∧ regsRising s ∧ (47 : Fin 48).val = 32 + (15 : Fin 16).val ∧ (47 : Fin 48).val < s.variant.engines ∧
        (s.rilOf (47 : Fin 48)).st ≠ 3) ∧
    (∀ cs ∈ [0, 1], let s := eng 1 cs
      s.cyc.rillDone = false ∧ s.tickRun = true ∧ regsRising s ∧ (s.rilOf (9 : Fin 48)).st = 1 ∧
        s.rb Fx.RIL_ECFG_CYC_SYNC (9 : Fin 48) = decide (cs = 1) ∧ s.inAwaitCycle (9 : Fin 48) = true) ∧
    (let s := (eng 1 1).sg .RIL_PROG 9 0 0#32; s.inAwaitCycle (9 : Fin 48) = false) ∧
    (∀ st ∈ [0, 3], let s := engGroup st
      live s ∧ 4 * (2 : Fin 12).val < s.variant.engines ∧ (s.rilOf (4 * (2 : Fin 12).val)).st = st ∧
        ∀ j : Fin 4, (s.rilOf (4 * (2 : Fin 12).val)).st = 3 ↔ (s.rilOf (4 * (2 : Fin 12).val + j)).st = 3) := by
  unfold live regsRising; and_intros <;> decide +kernel

/-! ### The CAN FD controllers (spec/12) -/

/-- Controller 2 with `f` done to it; one filter of each kind: a base and an extended one, `act` and `mode`, values `a` and `b`. -/
def can2 (f : Can → Can) (s : State := run) : State := s.canUpd 2 f
def filters (act mode a b n : Nat) : State :=
  let s := can2 fun x => { x with st := 2 }.putWords 0 [BitVec.ofNat 32 (a * 2 ^ 21 + b * 32 + act * 4 + mode)] |>.putWords 64
    [BitVec.ofNat 32 (a * 8 + act), BitVec.ofNat 32 (b * 8 + mode)]
  ((((s.wf Fx.CAN_ACC_NEXT n 2).wf Fx.CAN_ACC_NSTD n 2).wf Fx.CAN_ACC_NM_X 1 2).wf Fx.CAN_ACC_NM_B 1 2).wf Fx.CAN_ACC_RMT_X 1 2
def msg (xtd rtr : Bool) (id : Nat) : CanMsg := ⟨xtd, rtr, false, false, false, BitVec.ofNat 29 (if xtd then id else id * 2 ^ 18), 8#4, List.replicate 8 1#8⟩

/-- Words of a buffer with base identifier `id`, in repeated attempts. -/
def bufWords (id : Nat) : List Word := BitVec.ofNat 32 (id * 2 ^ 18) :: 0x800#32 :: List.replicate 18 0#32
/-- Buffer `b` holds `w` in the message RAM; the controller is in `st`. -/
def buffered (st : Nat) (b : Nat) (w : List Word) (f : Can → Can := id) : State :=
  can2 fun x => f ({ x with st := st }.putWords (128 + 20 * b) w)

theorem test_meets_CanFrames :
    (∀ xtd : Bool, ∀ n ∈ [0, 1], ∀ act ∈ [1, 2, 3, 4], ∀ mode ∈ [0, 1, 2, 3], let s := filters act mode 0x7FF 0x7FF n
      canUp s 2 ∧ ((msg xtd false 0x7FF).fdf = true → (msg xtd false 0x7FF).rtr = false) ∧ (msg xtd false 0x7FF).rtr = false ∧
        s.tbOos (s.rf Fx.CAN_CFG_TS_TB (2 : Fin 4)) = false ∧
        s.rf (if xtd then Fx.CAN_ACC_NEXT else Fx.CAN_ACC_NSTD) (2 : Fin 4) = n ∧
        (if xtd then bits ((s.canOf 2).word 64) 2 0 else bits ((s.canOf 2).word 0) 4 2) = act ∧
        bits (if xtd then (s.canOf 2).word 65 else (s.canOf 2).word 0) 1 0 = mode ∧
        (if xtd then bits ((s.canOf 2).word 64) 31 3 else bits ((s.canOf 2).word 0) 31 21) = 0x7FF ∧
        (if xtd then bits ((s.canOf 2).word 65) 31 3 else bits ((s.canOf 2).word 0) 15 5) = 0x7FF ∧
        (if xtd then (msg xtd false 0x7FF).id.toNat else (msg xtd false 0x7FF).id.toNat / 2 ^ 18) = 0x7FF ∧
        (s.canOf 2).f0.fill < 64 ∧ (s.canOf 2).f1.fill < 64) ∧
    (canUp (filters 1 1 0 0 1) 2 ∧ (msg true true 5).rtr = true ∧ (filters 1 1 0 0 1).rb Fx.CAN_ACC_RMT_X (2 : Fin 4) = true) ∧
    (let s := can2 (fun x => { x with f0 := ⟨63, 64⟩, f1 := ⟨0, 64⟩, hpFull := true }) (filters 1 1 0 0 1)
     canUp s 2 ∧ 64 ≤ (s.canOf 2).f0.fill ∧ 64 ≤ (s.canOf 2).f1.fill ∧ (s.canOf 2).hpFull = true) ∧
    (∀ st ∈ [2, 4, 6], ∀ oneshot : Bool, let w := (bufWords 5).set 1 (if oneshot then 0x20000800#32 else 0x800#32)
      let s := buffered st 31 w
      live s ∧ regsRising s ∧ scanon (0#32) 0 (s.canOf 2).ram = true ∧ (s.canOf 2).words (128 + 20 * (31 : Fin 32)) 20 = w ∧
        (s.canOf 2).pend.find? (fun p => p.b == (31 : Fin 32).val) = none ∧ plainWords s 2 w oneshot ∧ (s.canOf 2).st = st ∧
        (s.canOf 2).ev.fill < 32 ∧ s.rb Fx.CAN_CFG_LOOP (2 : Fin 4) = false) ∧
    (let w := (bufWords 5).set 1 0x80000F00#32
     let s := buffered 2 31 w
     (s.canOf 2).words (128 + 20 * (31 : Fin 32)) 20 = w ∧ canBufBad (s.rb Fx.CAN_CFG_FDOE (2 : Fin 4)) w = true) ∧
    (∀ won : Bool, ∀ a ∈ [none, some ⟨(31 : Fin 32), won⟩],
      let s := buffered 2 31 (bufWords 5) fun x => { x with pend := [plainBuf 31 (bufWords 5)], attempt := a }
      live s ∧ regsRising s ∧ (s.canOf 2).pend.find? (fun p => p.b == (31 : Fin 32).val) = some (plainBuf 31 (bufWords 5)) ∧
        (s.canOf 2).ev.fill < 32 ∧ (s.canOf 2).attempt = a) ∧
    (∀ a ∈ [none, some ⟨(0 : Fin 32), false⟩, some ⟨(0 : Fin 32), true⟩], ∀ l ∈ [[], [plainBuf 0 (bufWords 5)],
        [plainBuf 0 (bufWords 5), plainBuf 31 (bufWords 6)], [plainBuf 31 (bufWords 6), plainBuf 0 (bufWords 5)]],
      let s := buffered 2 0 (bufWords 5) fun x => { x with pend := l, attempt := a, tec := 127, recC := 111 }
      canUp s 2 ∧ (0 : Fin 32) ≠ 31 ∧ plainWords s 2 (bufWords 5) false ∧ plainWords s 2 (bufWords 6) false ∧ (s.canOf 2).attempt = a ∧
        (s.canOf 2).pend = l ∧ (s.canOf 2).ev.fill < 32 ∧ s.tbOos (s.rf Fx.CAN_CFG_TS_TB (2 : Fin 4)) = false ∧ (s.canOf 2).tec < 128 ∧
        (s.canOf 2).recC < 128 ∧ (s.canOf 2).recC + (16 : Fin 17) < 128 ∧ s.rb Fx.CAN_CFG_PXHD (2 : Fin 4) = false) ∧
    (((bufWords 5).getD 0 0).getLsbD 31 = false ∧ ((bufWords 6).getD 0 0).getLsbD 31 = false ∧
      bits ((bufWords 5).getD 0 0) 28 18 < bits ((bufWords 6).getD 0 0) 28 18 ∧ (0 : Fin 32) < 31 ∧
      run.rb Fx.CAN_CFG_TXP (2 : Fin 4) = false ∧ (run.wf Fx.CAN_CFG_TXP 1 2).rb Fx.CAN_CFG_TXP (2 : Fin 4) = true) ∧
    255 < ((buffered 2 0 [] fun x => { x with tec := 248 }).canOf 2).tec + (8 : Fin 17) := by
  unfold canUp plainWords live regsRising; and_intros <;> decide +kernel

/-- The exchange area of controller 2 is at 0x1F0000, above everything but the directory and the locks; its words `l` by offset. -/
def xch (l : List (Nat × Nat)) (f : Can → Can) : State :=
  let s := buffered 2 31 (bufWords 5) f
  let s := (s.wf Fx.CAN_XCH_CFG_EN 1 2).wf Fx.CAN_XCH_BASE_BASE (0x1F0000 / 64) 2
  { s with pool := l.foldl (fun p x => wrBytes p (0x1F0000 + x.1) (leBytes 4 x.2)) [] }

theorem xch_area (l : List (Nat × Nat)) (f : Can → Can) (i : Nat) (h : i < 0x3600) :
    poolBank (0x1F0000 + i) = poolBank 0x1F0000 ∧ (xch l f).inMirror (0x1F0000 + i) = false := by
  refine ⟨by unfold poolBank; omega, ?_⟩
  have h : ∀ r : Fin 32, (xch [] id).rb Fx.PAIR_MREG_BASE_EN r = false := by decide +kernel
  unfold State.inMirror
  simp only [List.any_eq_false, List.mem_range, Bool.and_eq_true, not_and]
  exact fun r hr he => absurd (he.1.symm.trans (h ⟨r, hr⟩)) (by decide)

theorem test_meets_CanServiceAndExchange :
    (∀ st ∈ [0, 1, 2, 4, 5, 6], ∀ a ∈ [none, some ⟨31, false⟩],
      let s := can2 fun x => { x with st := st, attempt := a, tec := 5 }
      live s ∧ regsRising s ∧ s.canClk = true ∧ s.pllStopped pllCan = false ∧ (s.canOf (2 : Fin 4)).st = st ∧
        (s.canOf (2 : Fin 4)).attempt = a ∧ (s.wf Fx.CAN_BOFF_WAIT_MS 0 2).rf Fx.CAN_BOFF_WAIT_MS (2 : Fin 4) = 0 ∧ (s.canOf (2 : Fin 4)).tec < 128 ∧
        (s.canOf (2 : Fin 4)).recC < 128) ∧
    (let s := ((can2 fun x => { x with st := 4, busOffAt := 0 }).wf Fx.CAN_BOFF_WAIT_MS 1 2).tbUpd 0 fun t => { t with raw := 1000000 * 2 ^ 32 }
     0 < s.rf Fx.CAN_BOFF_WAIT_MS (2 : Fin 4) ∧
       (s.canOf (2 : Fin 4)).busOffAt + s.rf Fx.CAN_BOFF_WAIT_MS (2 : Fin 4) * 1000000 ≤ s.tbNs 0) ∧
    (let s := can2 fun x => { x with f0 := ⟨63, 64⟩, f1 := ⟨63, 2⟩, ev := ⟨31, 32⟩ }
     (s.canOf (2 : Fin 4)).f0.get < 64 ∧ (s.canOf (2 : Fin 4)).f0.fill ≤ 64 ∧ 63 < (s.canOf (2 : Fin 4)).f0.fill ∧
       (62 : Fin 64).val = ((s.canOf (2 : Fin 4)).f0.get + 63) % 64 ∧ s.rb Fx.CAN_XCH_CFG_EN (2 : Fin 4) = false ∧
       (s.canOf (2 : Fin 4)).f1.fill ≤ 64 ∧ (∀ k, k < (s.canOf (2 : Fin 4)).f1.fill → (1 : Fin 64).val ≠ ((s.canOf (2 : Fin 4)).f1.get + k) % 64) ∧
       (s.canOf (2 : Fin 4)).ev.get < 32 ∧ (s.canOf (2 : Fin 4)).ev.fill ≤ 32 ∧ 31 < (s.canOf (2 : Fin 4)).ev.fill ∧
       (30 : Fin 32).val = ((s.canOf (2 : Fin 4)).ev.get + 31) % 32) ∧
    (∀ p ∈ [(0, 128), (1, 255), (1, 404), (2, 0), (7, 0)], let s := run.wf Fx.CAN_RAM_PAGE_PAGE p.1 2
      let i := s.rf Fx.CAN_RAM_PAGE_PAGE (2 : Fin 4) * 512 + (Fin.ofNat 512 p.2).val
      s.bankSt (48 + (2 : Fin 4).val) = 0 ∧ i = p.1 * 512 + p.2 ∧ (s.canOf (2 : Fin 4)).pend = []) ∧
    (∃ p ∈ ((can2 fun x => { x with pend := [plainBuf 31 []] }).canOf (2 : Fin 4)).pend, p.b = (1 * 512 + 255 - 128) / 20) ∧
    (let s := xch [(0x28, 0)] id
     s.rb Fx.CAN_XCH_CFG_EN (2 : Fin 4) = true ∧ regsRising s ∧ scanon (0#8) 0 s.pool = true ∧
       scanon (0#32) 0 (s.canOf (2 : Fin 4)).ram = true ∧ s.canBase (2 : Fin 4) = 0x1F0000 ∧ s.bankSt (poolBank 0x1F0000) = 0 ∧
       0x1F0000 + 0x3600 ≤ lockBase ∧ s.lock = true ∧ (s.canOf (2 : Fin 4)).st ≠ 0 ∧
       (s.canOf (2 : Fin 4)).x.txqCons < 2 ^ 32 ∧ leNat (rdBytes s.pool (0x1F0000 + 0x28) 4) = (s.canOf (2 : Fin 4)).x.txqCons) ∧
    (let s := xch [(0x28, 1), (0x40, 2 ^ 30 + 31), (0x3C0 + 80 * 31 + 4, 0x800)] id
     let w := (List.range 20).map fun i => BitVec.ofNat 32 (leNat (rdBytes s.pool (0x1F0000 + (0x3C0 + 80 * (31 : Fin 32) + 4 * i)) 4))
     (s.canOf (2 : Fin 4)).st = 2 ∧ leNat (rdBytes s.pool (0x1F0000 + 0x28) 4) = (s.canOf (2 : Fin 4)).x.txqCons + 1 ∧
       leNat (rdBytes s.pool (0x1F0000 + (0x40 + 4 * ((s.canOf (2 : Fin 4)).x.txqCons % 64))) 4) = 2 ^ 30 + (31 : Fin 32).val ∧
       (s.canOf (2 : Fin 4)).pend = [] ∧ plainWords s 2 w false) ∧
    (let s := xch [] fun x => { x with f0 := ⟨63, 2⟩, ev := ⟨31, 1⟩, x := { x.x with order := [0, 0], hpDue := true, rxProd := 15, evProd := 31 } }
     (s.canOf (2 : Fin 4)).x.order = 0 :: [0] ∧ (s.canOf (2 : Fin 4)).x.rxProd + 1 < 2 ^ 32 ∧
       (s.canOf (2 : Fin 4)).x.rxCons ≤ (s.canOf (2 : Fin 4)).x.rxProd ∧
       (s.canOf (2 : Fin 4)).x.rxProd < (s.canOf (2 : Fin 4)).x.rxCons + s.canRxn (2 : Fin 4) ∧ 0 < (s.canOf (2 : Fin 4)).ev.fill ∧
       (s.canOf (2 : Fin 4)).x.evCons ≤ (s.canOf (2 : Fin 4)).x.evProd ∧
       (s.canOf (2 : Fin 4)).x.evProd < (s.canOf (2 : Fin 4)).x.evCons + 32 ∧ (s.canOf (2 : Fin 4)).x.hpDue = true ∧
       (s.canOf (2 : Fin 4)).x.hpSeq + 1 < 2 ^ 32) := by
  unfold plainWords live regsRising; and_intros <;> decide +kernel

/-! ### The loop engine (spec/13) -/

/-- Slot 63 alone in mode `m`, its words at 0x100 and 0x200, due every `2 ^ divl` cycles at phase 7 of them, in cycle 70; `l` beside. -/
def loop (m divl : Nat) (l : List (RegId × Int)) (f : LSlot → LSlot := id) : State :=
  let s := ((cyc.wf Fx.LOOP_CFG_EN 1).wf Fx.LOOP_IN_ADDR 0x20 63).wf Fx.LOOP_OUT_ADDR 0x40 63
  let s := ((s.wf Fx.LOOP_SCFG_DIVL divl 63).wf Fx.LOOP_SCFG_PHASE (if divl = 0 then 0 else 7) 63).wf Fx.LOOP_MODE_MODE m 63
  let s := (l.foldl (fun s x => s.sg x.1 63 0 (BitVec.ofInt 32 x.2)) s).slotUpd 63 f
  { s with cyc := { s.cyc with tick := 70, loopDone := false }, pool := wrBytes [] 0x100 (leBytes 8 0x0000000500000007) }

theorem test_meets_LoopEngine :
    (live run ∧ run.variant = .lx2416) ∧
    (({ run with lp := { run.lp with running := true } } : State).lp.running = true ∧ cyc.lp.running = false ∧ cyc.cycleOn = true ∧
      cyc.loopEnabled = false ∧ cyc.cyc.loopDone = false ∧ (loop 0 0 []).loopEnabled = true) ∧
    (∀ m ∈ [0, 1, 2, 3], ∀ divl ∈ [0, 3], let s := loop m divl []
      loneSlot s 63 ∧ regsRising s ∧ scanon (0#8) 0 s.pool = true ∧ s.rf Fx.LOOP_IN_ADDR (63 : Fin 64) * 8 = 0x100 ∧
        s.rf Fx.LOOP_OUT_ADDR (63 : Fin 64) * 8 = 0x200 ∧ s.bankSt (poolBank 0x100) = 0 ∧ s.bankSt (poolBank 0x200) = 0 ∧
        0x200 + 8 ≤ lockBase ∧ s.lp.seq < 256 ∧ (divl = 0 → slotDue s 63) ∧ (divl = 3 → ¬ slotDue s 63) ∧
        s.rf Fx.LOOP_MODE_MODE (63 : Fin 64) = m ∧ s.rb Fx.LOOP_SCFG_AGE_EN (63 : Fin 64) = false) := by
  unfold loneSlot slotDue live regsRising; and_intros <;> decide +kernel

/-- The law in AUTO: held at the upper and at the lower clamp, limited in rate, entered from MAN with a preset that fits. -/
theorem test_meets_LoopEngine_law :
    (let s := loop 2 0 [(.LOOP_UMIN, -100), (.LOOP_UMAX, 100), (.LOOP_IMIN, -50), (.LOOP_IMAX, 50), (.LOOP_RMAX, 3)]
     let x : LSlot := { LSlot.reset with u := 100, i := 50, mPrev := 2, hi := true, lo := true, resume := false }
     (s.rg .LOOP_UMIN (63 : Fin 64)).toInt ≤ (s.rg .LOOP_UMAX (63 : Fin 64)).toInt ∧
       (s.rg .LOOP_IMIN (63 : Fin 64)).toInt ≤ (s.rg .LOOP_IMAX (63 : Fin 64)).toInt ∧ 0 < (s.rg .LOOP_RMAX (63 : Fin 64)).toInt ∧
       (s.rg .LOOP_UMIN (63 : Fin 64)).toInt ≤ x.u ∧ x.u ≤ (s.rg .LOOP_UMAX (63 : Fin 64)).toInt ∧ x.mPrev = 2 ∧ x.resume = false ∧ x.hi = true ∧
       x.lo = true ∧ (s.rg .LOOP_IMIN (63 : Fin 64)).toInt ≤ x.i ∧ x.i ≤ (s.rg .LOOP_IMAX (63 : Fin 64)).toInt) ∧
    (let s := loop 2 0 [(.LOOP_UMIN, -100), (.LOOP_UMAX, 100), (.LOOP_IMIN, -50), (.LOOP_IMAX, 50)]
     let x : LSlot := { LSlot.reset with u := 20, mPrev := 1 }
     let r := s.loopLaw (63 : Fin 64) 2 x 7 5
     let p := sat32 (s.loopGain (63 : Fin 64) 2 * 2 / 65536)
     let ff := s.loopFf (63 : Fin 64) r.1.dir 5
     x.mPrev ≠ 2 ∧ (s.rg .LOOP_UMIN (63 : Fin 64)).toInt ≤ x.u ∧ x.u ≤ (s.rg .LOOP_UMAX (63 : Fin 64)).toInt ∧ 0 ≤ (s.rg .LOOP_RMAX (63 : Fin 64)).toInt ∧
       fits32 (x.u - p) ∧ fits32 (x.u - p - r.1.d) ∧ fits32 (x.u - ff) ∧ fits32 (x.u - r.1.d - ff) ∧
       (s.rg .LOOP_IMIN (63 : Fin 64)).toInt ≤ x.u - p - r.1.d - ff ∧ x.u - p - r.1.d - ff ≤ (s.rg .LOOP_IMAX (63 : Fin 64)).toInt) := by
  unfold fits32; and_intros <;> decide +kernel

/-! ### Profile images and start-up (spec/14, spec/17) -/

/-- A section entry of Table 14-3. -/
def sectEntry (ty target off len : Nat) : List Byte := leBytes 4 ty ++ leBytes 4 target ++ leBytes 4 off ++ leBytes 4 len

/-- A container for cluster 3 with code, data, a Rill program for engine 5, a binding, profiles 1 and 2, and a claim. -/
def imageHead : List Byte :=
  leBytes 4 0x4C585049 ++ leBytes 2 1 ++ leBytes 2 7 ++ leBytes 4 4096 ++ leBytes 4 0x123400 ++ [7, 0xFF, 0, 0] ++ leBytes 4 0x4000 ++ leBytes 2 16 ++
    leBytes 2 24 ++ List.replicate 36 0 ++ sectEntry 1 0x100 512 8 ++ sectEntry 2 0x200 520 8 ++ sectEntry 3 0x210 0 8 ++
    sectEntry 4 5 640 128 ++ sectEntry 5 0 528 24 ++ sectEntry 6 0 552 16 ++ sectEntry 7 0 568 8 ++ List.replicate 336 0 ++
    [1, 2, 3, 4, 5, 6, 7, 8, 9, 10, 11, 12, 13, 14, 15, 16] ++ leBytes 4 0x80000 ++ List.replicate 20 0 ++ [1, 35, 0, 0, 0, 0, 0, 0] ++
    [2, 15, 0, 0, 0, 0, 0, 0] ++ leBytes 4 0x4000 ++ leBytes 4 0x100
def zeros512 : List Byte := List.replicate 512 0
def imageBody : List Byte := imageHead ++ (zeros512 ++ (zeros512 ++ (zeros512 ++ (zeros512 ++ (zeros512 ++ (zeros512 ++ List.replicate 376 0))))))
/-- Its hash as a number, which is r and s of the signature. -/
def imageHash : Nat :=
  0x89D8051FF9B556B7A596BBF34CEEDBBB2D5C63290D610BA7F0CC142E58939919
@[irreducible] def image : List Byte := imageBody ++ List.replicate 8 0 ++ leBytes 32 imageHash ++ leBytes 32 imageHash
def imageKey : List Byte :=
  leBytes 32 0xA41D49B8492DF94F7C96CD4CF78488F4AFC41E6CDFCFE8CBFEA51C0D8EEEC314 ++
    leBytes 32 0x29519BC661E014EE9034FDF6EDB05F6C0D1043316793032C5C417220EDF13C75

def imageSt0 : List Word := [0x833B989F, 0xC5A2537D, 0x6EF0CEA4, 0x1654ABC7, 0x93F683EC, 0x2AD31A5A, 0xBA185249, 0xD1851F9F]
def imageSt1 : List Word := [0xACEA175D, 0x622701BC, 0x324EF9E7, 0x321A7375, 0xA2584A7E, 0x14510E2C, 0x16765C27, 0xF8A556CE]
def imageSt2 : List Word := [0xBD4C3E0C, 0xD1F859E0, 0x22CCB5C3, 0xF0B2A750, 0xCC04A79A, 0x0764C71C, 0x8BC567C1, 0x34FC5A94]
def imageSt3 : List Word := [0x88DEF1E5, 0xA94087A4, 0x02C18790, 0x8E94DAFD, 0xB042CD0F, 0x1394A1CC, 0xF86D07E7, 0x7C7E5C0F]
def imageSt4 : List Word := [0x51F094AD, 0xA0C6D84A, 0x5482288C, 0x055EE415, 0x243007B3, 0x75F03C47, 0x34EF6707, 0x2450FEAE]
def imageSt5 : List Word := [0x7462D896, 0xABFD44B3, 0xC1DDED88, 0x6C24CDBC, 0x2B95BC0C, 0x1C42FCC1, 0x92C493E5, 0x5F5630E5]
def imageSt6 : List Word := [0x358B5852, 0x945B4680, 0x2E66FF09, 0x54A18F5D, 0x7F8A6B4E, 0xF8562493, 0x4579A38D, 0x8E6A4D86]

theorem image_sha0 : imageHead.foldl shaByte ([], shaInit) = ([], imageSt0) := by decide +kernel
theorem image_sha1 : zeros512.foldl shaByte ([], imageSt0) = ([], imageSt1) := by decide +kernel
theorem image_sha2 : zeros512.foldl shaByte ([], imageSt1) = ([], imageSt2) := by decide +kernel
theorem image_sha3 : zeros512.foldl shaByte ([], imageSt2) = ([], imageSt3) := by decide +kernel
theorem image_sha4 : zeros512.foldl shaByte ([], imageSt3) = ([], imageSt4) := by decide +kernel
theorem image_sha5 : zeros512.foldl shaByte ([], imageSt4) = ([], imageSt5) := by decide +kernel
theorem image_sha6 : zeros512.foldl shaByte ([], imageSt5) = ([], imageSt6) := by decide +kernel
theorem image_length : imageBody.length = 4024 := by decide +kernel
theorem test_image_hash : sha256 imageBody = (leBytes 32 imageHash).reverse := by
  unfold sha256
  rw [image_length]
  unfold imageBody
  simp only [List.foldl_append, image_sha0, image_sha1, image_sha2, image_sha3, image_sha4, image_sha5, image_sha6]
  decide +kernel
theorem test_image_signature : ecdsaOk imageKey (leBytes 32 imageHash).reverse (leBytes 32 imageHash ++ leBytes 32 imageHash) = true := by
  decide +kernel

/-- A directory with the key of slot 1, one container and one set-up write. -/
@[irreducible] def dirKey : List Byte :=
  leBytes 32 0x98553370ABD50084EE83D161F123059757DC3394CD78709D39369247F6DCA70C ++
    leBytes 32 0xFFF39A52684C8DF72B2AA17B082B646772375048F9D8AD664D35A504E27150D2
@[irreducible] def dirBody : List Byte :=
  leBytes 4 0x4C584244 ++ leBytes 2 1 ++ leBytes 2 1 ++ leBytes 4 512 ++ leBytes 4 0x77 ++ [1, 0, 1, 0] ++ List.replicate 108 0 ++ dirKey ++
    List.replicate 128 0 ++ [3, 0, 0, 0] ++ leBytes 4 0x1000 ++ leBytes 4 4096 ++ leBytes 4 0 ++ leBytes 4 0x1114 ++ leBytes 4 5 ++
    List.replicate 96 0
def dirHash : List Byte :=
  (leBytes 32 0x78CC5630A5E861FAD6278707CE936E1844420D7DCF2E1913369751767CC7CA0B).reverse
def dirSig : List Byte :=
  leBytes 32 0xF6D408F65CABAB45DC94B870A30081EBBEE285C38111B94710F09DF3CA3E7098 ++
    leBytes 32 0x5E3C9888F4FFE513181D09E30C661A0A9240374BD5D5B33DA968E2B14B40AC9F
@[irreducible] def directory : List Byte := dirBody ++ [1, 0, 0, 0, 0, 0, 0, 0] ++ dirSig
def dirKeyHash : List Byte :=
  (leBytes 32 0x04892FD9CE325300E7983542A9B63E3FB870927230A1CFD8F6FB87E9DB59E201).reverse

theorem test_directory_hash : sha256 dirBody = dirHash := by decide +kernel
theorem test_directory_key : sha256 dirKey = dirKeyHash ∧ onCurve dirKey = true := by decide +kernel
theorem test_directory_signature : ecdsaOk dirKey dirHash dirSig = true := by decide +kernel

theorem image_sig : sigOk (Vector.ofFn fun i : Fin 4 => if i = 0 then some imageKey else none) image 4096 = true := by
  have h : image.take 4024 = imageBody := by decide +kernel
  have k : (image.drop 4032).take 64 = leBytes 32 imageHash ++ leBytes 32 imageHash := by decide +kernel
  have n : leAt image 4024 1 = 0 := by decide +kernel
  unfold sigOk
  simp only [n, h, k, test_image_hash, vget, Nat.reduceSub]
  decide +kernel

/-- The container stands at pool offset 0x8000, its request holds the token, and the key store holds its key. -/
def imgState (st : Nat) (d : Option (List Byte)) (a : Nat := 0x8000) : State :=
  let s := (cyc.cluUpd 3 fun c => { c with st := st, failed := true }).rilUpd 2 fun r => { r with st := 1 }
  let s := s.sg .ENG_BIND 3 0 0xC0000#32
  { s with
    tok := ⟨2, []⟩, lck := vupd s.lck 9 fun _ => 2 ^ 31 + 3, pool := wrBytes [] 0x8000 image
    boot := { s.boot with req := some ⟨3, a, d⟩, keys := Vector.ofFn fun i : Fin 4 => if i = 0 then some imageKey else none } }


/-- A container that has been written to the pool reads back. -/
theorem container_read (s : State) (d : List Byte) (a : Nat) (hs : s.pool = wrBytes [] a d) (hb : ∀ b, s.bankSt b = 0)
    (hl : d.length = 4096) (ht : leAt d 8 4 = 4096) (ha : a ≤ 0x1FF000) : containerAt s a = d := by
  have get : ∀ i < 4096, sget 0#8 (a + i) s.pool = d.getD i 0#8 := by
    intro i hi
    rw [hs]
    have := Sys2Proof.Laws.sget_wrBytes [] a (a + i) d (by simp [Sys2Proof.Laws.Rising])
    rw [show (0#8 : Byte) = 0 from rfl, this]
    simp [hl, hi]
  have word : leNat ((List.range 4).map fun i => sget 0#8 (a + 8 + i) s.pool) = 4096 := by
    rw [← ht]
    unfold leAt
    simp only [List.range, List.range.loop, List.map_cons, List.map_nil, Nat.add_assoc, get 8 (by omega),
      get (8 + 1) (by omega), get (8 + 2) (by omega), get (8 + 3) (by omega)]
    congr 1
    apply List.ext_getElem
    · simp [hl]
    · intro n h1 h2
      simp at h1
      obtain rfl | rfl | rfl | rfl : n = 0 ∨ n = 1 ∨ n = 2 ∨ n = 3 := by omega
      all_goals simp [hl]
  unfold containerAt
  simp only [hb, if_true, word]
  apply List.ext_getElem
  · simp [hl]; omega
  · intro n h1 h2
    simp only [List.getElem_map, List.getElem_range]
    rw [get n (by omega), List.getD_eq_getElem _ _ h2]

theorem image_canon (st : Nat) : scanon (0#8) 0 (imgState st (some image)).pool = true :=
  Sys2Proof.Laws.scanon_wrBytes [] 0x8000 image (by decide)

theorem image_banks (st b : Nat) : (imgState st none).bankSt b = 0 := by
  have h : ∀ b : Fin 64, (imgState 0 none).bankSt b = 0 := by decide +kernel
  have e : (imgState st none).bankSt b = (imgState 0 none).bankSt b := by unfold imgState State.bankSt; rfl
  rw [e]
  by_cases hb : b < 64
  · exact h ⟨b, hb⟩
  · unfold State.bankSt
    simp [hb]

theorem image_read (st : Nat) : containerAt (imgState st none) 0x8000 = image :=
  container_read _ _ _ (by unfold imgState; rfl) (image_banks st) (by decide +kernel) (by decide +kernel) (by decide)

theorem image_passes (st : Nat) (h : st < 4) : (imgState st none).loadStatus 3 (0x200000 - 0x8000) image false = 0 := by
  have h1 : headBad 0x4C585049 4096 196608 (0x200000 - 0x8000) image = false := by decide +kernel
  have h2 : leAt image 8 4 = 4096 := by decide +kernel
  have h3 : formatBad image = false := by decide +kernel
  have h4 : ∀ st : Fin 4, noResource (imgState st none).variant 3 image = false ∧ (imgState st none).conflict 3 image = false ∧
    ¬(((imgState st none).cluOf 3).st = 4 ∨ ((imgState st none).cluOf 3).migPending = true) := by decide +kernel
  have h5 := h4 ⟨st, h⟩
  unfold State.loadStatus
  rw [h1, h2, show sigOk (imgState st none).boot.keys image 4096 = true from image_sig, h3, h5.1, h5.2.1, if_neg h5.2.2]
  rfl

theorem test_meets_ProfileImages :
    (∀ k : Fin 2, ∀ fifo ∈ [[], [3, 4], List.replicate 8 1], let s := { run with tok := ⟨k, fifo⟩ }
      live s ∧ regsRising s ∧ s.boot.req = none ∧ (15 : Fin 16).val < s.variant.cores ∧ s.pwr.state = 0 ∧ s.tok.holder = k ∧ s.tok.fifo = fifo) ∧
    ((imgState 1 none).boot.req.isSome = true ∧ small.variant.cores ≤ (15 : Fin 16).val) ∧
    (∀ st d, (imgState st d).boot.req = some ⟨(3 : Fin 16).val, 0x8000, d⟩) ∧
    (∀ st ∈ [0, 1, 2, 3, 4], ∀ d ∈ [none, some image], let s := imgState st d
      regsRising s ∧ s.tok = ⟨2, []⟩ ∧ s.tickRun = true ∧ s.coreOn (3 : Fin 16) = true ∧
        s.physOf (3 : Fin 16) < 16 ∧ (s.cluOf (3 : Fin 16)).st = st ∧ ({ s with lock := false } : State).tickRun = false) ∧
    run.loadStatus 3 (0x200000 - 0x8000) (containerAt run 0x8000) false ≠ 0 ∧
    formed image ∧ firstCheckFails 4095 image ∧ ¬ firstCheckFails 4096 image ∧ (∀ n < 4, vget none run.boot.keys n = none) ∧
    (sectsOf image).any (fun x => x.ty == 4 && x.target == (5 : Fin 48)) = true ∧ bindsEngine (bindWord image 0) (bindWord image 1) 5 = true ∧
    bindsEngine (bindWord image 0) (bindWord image 1) 7 = true := by
  unfold live regsRising formed firstCheckFails
  and_intros
  all_goals first | exact fun _ _ => rfl | decide +kernel

/-! ### Memories, clocks and power (spec/15) -/

def suspectRows (n : Nat) : State := { run with mem := { run.mem with suspects := (List.range n).map fun i => (5, i) } }
/-- MEM_ATOM_ADDR is `a`. -/
def atomAt (a : Nat) : State := run.sg .MEM_ATOM_ADDR 0 0 (BitVec.ofNat 32 a)
def bankIs (m v : Nat) (s : State := run) : State := { s with bank := vupd s.bank m fun _ => v }
def bankAsked (op m : Nat) (s : State) : State := { s with tok := ⟨4, []⟩, mem := { s.mem with bankOp := some (op, m) } }

theorem test_meets_MemoryErrorsAtomicsAndBanks :
    (∀ n ∈ [0, 15, 16], ∀ m ∈ [0, 31, 52, 53, 54, 55], let s := suspectRows n
      memHere s m ∧ regsRising s ∧ live s ∧ logRoom s ∧ (m, rowAt m 0x3FFFF) ∉ s.mem.suspects ∧ s.mem.suspects.length = n) ∧
    (storedIn run 5 7 + 1 < run.rf Fx.MEM_REP_CFG_REP_THR ∧
      (run.wf Fx.MEM_REP_CFG_REP_THR 1).rf Fx.MEM_REP_CFG_REP_THR ≤ storedIn (run.wf Fx.MEM_REP_CFG_REP_THR 1) 5 7 + 1) ∧
    (∀ a ∈ [0, 0x1FFEFC, 0x1FFF00, 0x1FFFFC], live (atomAt a) ∧ regsRising (atomAt a) ∧ (atomAt a).rf Fx.MEM_ATOM_ADDR_ADDR * 4 = a ∧
      (atomAt a).bankSt (poolBank a) = 0) ∧ 0x1FFEFC < lockBase ∧ lockBase ≤ 0x1FFF00 ∧
    ((bankIs 15 3 (atomAt 0x1FFEFC)).bankSt (poolBank 0x1FFEFC) ≠ 0 ∧ (atomAt 0).rb Fx.PAIR_CFG_EN = false ∧
      scanon (0#8) 0 (atomAt 0).pool = true) ∧
    (∀ x ∈ [1, 2, 3, 4], ∀ m ∈ [0, 15, 31, 48, 51], ∀ k ∈ [0, 3], ∀ fifo ∈ [[], [1, 2], List.replicate 8 1],
      let s := bankIs m (if x = 1 then 3 else 0) { run with tok := ⟨k, fifo⟩ }
      live s ∧ regsRising s ∧ memHere s m ∧ hasStates m ∧ s.bankSt m ≠ x - 1 ∧ s.mem.bankOp = none ∧ s.pwr.state = 0 ∧ s.tok.holder = k) ∧
    (¬ memHere run 56 ∧ ¬ hasStates 32 ∧ ¬ hasStates 52 ∧ run.bankSt 15 = 1 - 1 ∧ (bankAsked 3 4 run).mem.bankOp.isSome = true) ∧
    (∀ x ∈ [(3, 0, 0), (3, 15, 0), (2, 31, 0), (4, 48, 0), (1, 5, 3), (1, 16, 1), (3, 51, 1)],
      let s := bankAsked x.1 x.2.1 (bankIs x.2.1 x.2.2)
      s.tok = ⟨4, []⟩ ∧ s.mem.bankOp = some (x.1, x.2.1) ∧ hasStates x.2.1 ∧ memHere s x.2.1 ∧ 1 ≤ x.1 ∧ x.1 ≤ 4 ∧ s.bankSt x.2.1 = x.2.2 ∧
        x.2.2 ≠ x.1 - 1 ∧ scanon (0#8) 0 s.pool = true) ∧
    ((run.coreOf 15).oos = false ∧ run.bankUsed 0 = false ∧ run.bankUsed 15 = true ∧
      (let s := (run.wf Fx.CAN_CFG_EN 1 0).canUpd 0 fun x => { x with st := 2 }; s.rb Fx.CAN_CFG_EN (0 : Fin 4) = true ∧ (s.canOf (0 : Fin 4)).st ≠ 6) ∧
      (let x : Img := ⟨1, 0, 0, 0, [], [(0x4000, 8)], [], 0#32, 0#32, 0#32⟩
       let s := { run with boot := { run.boot with imgs := vupd run.boot.imgs 3 fun _ => some x } }
       vget none s.boot.imgs (3 : Fin 16) = some x ∧ (0x4000, 8) ∈ x.claims ∧ 0x4000 / 131072 = 0 ∧ s.bankUsed 0 = true)) := by
  unfold memHere regsRising live logRoom hasStates; and_intros <;> decide +kernel

/-- The background test holds the token in a run of a row; the spares `l` of its memory are in use. -/
def testing (x : BtRun) (l : List Nat) : State :=
  let s := l.foldl (fun s k => s.wf Fx.MEM_SPARE_VALID 1 x.m k) run
  { s with
    tok := ⟨6, []⟩
    mem := { s.mem with btQ := [none], btRun := some x, suspects := if x.suspect then [(x.m, x.row)] else [], btNext := (x.m, x.row) } }

theorem test_meets_BackgroundTestAndRepair :
    (∀ fifo ∈ [[], List.replicate 8 1], let s := { run.wf Fx.MEM_BT_CFG_EN 1 with tok := ⟨0, fifo⟩ }
      regsRising s ∧ s.lock = true ∧ s.pwr.state = 0 ∧ s.rb Fx.MEM_BT_CFG_EN = true ∧ none ∉ s.mem.btQ ∧ s.tok.holder = 0 ∧ s.tok.fifo = fifo) ∧
    (none ∈ (testing ⟨0, 0, 1, false, 0⟩ []).mem.btQ) ∧
    (∀ l ∈ [[], [(31, 255)]], ∀ r ∈ [none, some (3, 9)],
      let s := { run with tok := ⟨6, []⟩, mem := { run.mem with btQ := [none], suspects := l, btRow := r, btNext := (52, 0) } }
      s.mem.btQ = none :: [] ∧ s.tok.holder = 6 ∧ s.mem.btRun = none ∧ s.testable 31 255 = true ∧ s.testable 52 0 = true) ∧
    (∀ b : Bool, ∀ row ∈ [0, 255], ∀ n ∈ [1, 2], ∀ l ∈ [[], [0, 1, 2, 3, 4, 5, 6], [0, 1, 2, 3, 4, 5, 6, 7]], let x : BtRun := ⟨31, row, n, b, 0⟩
      rowRun (testing x l) x [] ∧ x.run = n ∧ x.suspect = b ∧
        (∀ k : Fin 8, (testing x l).rb Fx.MEM_SPARE_VALID (31 : Fin 64) k = l.contains k.val)) ∧
    (live run ∧ regsRising run ∧ run.pwr.state = 0 ∧ memHere run (15 : Fin 64) ∧ (bankIs 15 3).bankSt (15 : Fin 64) = 3 ∧
      run.bankSt (15 : Fin 64) ≠ 3 ∧ run.mem.btQ = [] ∧ run.tok.holder = 0 ∧ run.tok.fifo = [] ∧ run.testable (15 : Fin 64) (255#8).toNat = true ∧
      run.testable (56 : Fin 64) 0 = false) := by
  unfold rowRun memHere live regsRising; and_intros <;> decide +kernel

/-- The power state. -/
def power (st target : Nat) : State :=
  { run with pwr := { run.pwr with state := st, target := target, clusters := [3], engines := [9], channels := [0], retained := [5] } }

theorem test_meets_ClocksAndPower :
    (∀ n : Fin 8, ∀ second ∈ [0, 255], let s := { run with clk := { run.clk with lock := 0, second := second } }
      regsRising s ∧ live s ∧ s.clk.started.testBit n = true ∧ s.clk.lock.testBit n = false ∧ s.clk.second.testBit n = decide (second = 255) ∧
        run.clk.lock.testBit n = true) ∧
    (({ run with clk := { run.clk with lse := true } } : State).clk.lse = true) ∧
    (live run ∧ regsRising run ∧ run.pwr.state = 0 ∧ run.tok.holder = 0 ∧ run.tok.fifo = [] ∧ run.gys.timer = false ∧ run.pair.st = 4) ∧
    ((pair 1 3).pair.st = 1 ∧ (pair 3 1).pair.st = 3 ∧ (bus 2).gys.timer = true ∧ (power 2 0).pwr.state = 2 ∧ live (power 2 0)) ∧
    (∀ t ∈ [2, 3], regsRising (power 1 t) ∧ (power 1 t).pwr.state = 1 ∧ (power 1 t).pwr.target = t) ∧
    (∀ st ∈ [0, 1, 2, 3, 4], let s := (power st 0).sg .PWR_WAKE_EN 0 0 0x7F#32
      regsRising s ∧ s.pwr.state = st ∧ (st ∈ [2, 3] → actingSources s 16#7 ≠ 0#7) ∧ actingSources s 0#7 = 0#7 ∧
        ((64#7).getLsbD 5 && (s.rg .PWR_WAKE_EN).getLsbD 5 || (64#7).getLsbD 6 && (s.rg .PWR_WAKE_EN).getLsbD 6) = true) ∧
    (∀ st ∈ [0, 1, 2, 3], let s := ((power st 0).sg .PWR_WAKE_EN 0 0 0x7F#32).wf Fx.PWR_ALARM_SEC 1
      regsRising s ∧ s.pwr.state = st ∧ s.rf Fx.PWR_ALARM_SEC ≠ 0 ∧ s.rf Fx.PWR_ALARM_SEC = (s.pwr.sec + 1) % 2 ^ 32 ∧
        (s.rg .PWR_WAKE_EN).getLsbD 5 = true ∧ s.mem.sbErr = 0) ∧
    (let s := { run with mem := { run.mem with sbErr := 5 } }; s.mem.sbErr ≠ 0 ∧ logRoom s ∧ s.mem.sbErr < 2 ^ 32 ∧ s.pwr.state < 2) := by
  unfold live regsRising logRoom; and_intros <;> decide +kernel

/-! ### Faults and the Tephra log (spec/16) -/

/-- The watchdog counts; cluster 3 is enabled in it. -/
def wdg (met : Bool) : State :=
  let s := ((run.wf Fx.TPH_WDG_CFG_HOST 1).sg .TPH_WDG_CLU 0 0 8#32).cluUpd 3 fun c => { c with st := 1 }
  { s with tph := { s.tph with wdgRun := true, warn := true, cluMet := if met then 8#16 else 0#16 } }
def logEntry (cls : Nat) : TphEntry := ⟨1, 2, 0x91, 0, cls, 5⟩
def logging (frozen : Bool) (n cls : Nat) : State :=
  { run with tph := { run.tph with frozen := frozen, queue := List.replicate n (logEntry cls), total := 0xFFFFFFFF }, clk := { run.clk with lse := true } }

theorem test_meets_FatalFaultsWatchdogAndLog :
    (live run ∧ regsRising run ∧ run.clk.hse = true ∧
      (let s := { State.reset with boot := { State.reset.boot with released := true } }
       live s ∧ regsRising s ∧ s.boot.st = 0 ∧ s.boot.released = true ∧ s.clk.hse = false)) ∧
    (∀ met : Bool, let s := wdg met
      live s ∧ regsRising s ∧ s.tph.wdgRun = true ∧ s.rb Fx.TPH_WDG_CFG_HOST = true ∧ wdgOpen s ∧ s.tph.warn = true ∧
        (s.rg .TPH_WDG_CLU).getLsbD 3 = true ∧ s.tph.cluMet.getLsbD 3 = met ∧ (s.cluOf (3 : Fin 16)).st = 1) ∧
    (∀ k : Fin 16, ((wdg true).rg .TPH_WDG_CLU).getLsbD k = true → (wdg true).tph.cluMet.getLsbD k = false →
      ((wdg true).cluOf k).st ≠ 1 ∧ ((wdg true).cluOf k).st ≠ 4) ∧
    (∀ frozen : Bool, ∀ cls ∈ [0, 3], let s := logging frozen 2 cls
      s.tph.queue = logEntry cls :: [logEntry cls] ∧ s.tph.clearing = false ∧ s.tph.frozen = frozen ∧ s.clk.lse = true ∧ live s) ∧
    (16 ≤ (logging false 16 0).tph.queue.length ∧ ({ run.tph with clearing := true } : Tph).clearing = true ∧ regsRising run ∧
      run.tph.queue = [] ∧ run.pwr.vbat = false ∧ logRoom run) := by
  unfold live regsRising wdgOpen logRoom; and_intros <;> decide +kernel

/-! ### Start-up (spec/17) -/

theorem test_meets_ResetsKeysAndFuses :
    (run.clk.hse = true ∧ run.clk.lock.testBit 3 = true ∧ run.clk.fail = 0 ∧ State.reset.clk.hse = false ∧
      (let s := { run.wf Fx.TPH_WDG_CFG_AUTO_RESET 1 with tph := { run.tph with fatal := true } }
       s.tph.fatal = true ∧ s.rb Fx.TPH_WDG_CFG_AUTO_RESET = true) ∧ run.tph.fatal = false ∧ run.boot.st = 3 ∧ run.hst.quiesced = false) ∧
    (State.reset.pwr.state = 0 ∧ State.reset.boot.released = false ∧
      (let s := { State.reset with boot := { State.reset.boot with released := true }, clk := { ClkU.reset with lock := 0xFF, hse := true } }
       s.boot.released = true ∧ s.boot.st = 0 ∧ s.clk.lock % 16 = 15 ∧ s.tph.fatal = false ∧ logRoom s)) ∧
    (run.lock = true ∧ State.reset.lock = false) ∧
    (∀ slot : Fin 4, ∀ prog ∈ [0, 15], ∀ data ∈ [0, 1],
      let s := { State.reset with boot := { State.reset.boot with prog := BitVec.ofNat 4 prog } }.sg .BOOT_FUSE_DATA 7 0 (BitVec.ofNat 32 data)
      s.lock = false ∧ s.boot.fuseBusy = false ∧ s.boot.prog.getLsbD slot = decide (prog = 15) ∧ s.boot.revoked.getLsbD slot = false ∧
        (data = 0 → fuseBytes s = List.replicate 32 0) ∧ (data = 1 → fuseBytes s ≠ List.replicate 32 0) ∧
        (prog = 15 → ∃ n : Fin 4, n ≠ slot ∧ s.boot.prog.getLsbD n = true ∧ s.boot.revoked.getLsbD n = false) ∧
        (prog = 0 → ¬ ∃ n : Fin 4, n ≠ slot ∧ s.boot.prog.getLsbD n = true ∧ s.boot.revoked.getLsbD n = false)) := by
  unfold logRoom; and_intros <;> decide +kernel

/-- The directory names cluster 3 and the container; its key is in slot 1. -/
def booting (ph : Nat) : State :=
  { State.reset with
    clk := { ClkU.reset with lock := 0xFF }
    boot := { State.reset.boot with
      st := 1, phase := ph, busy := true, prog := 2#4, hash := vupd State.reset.boot.hash 1 fun _ => dirKeyHash
      entries := [(3, 0x1000, 4096)], keys := Vector.ofFn fun i : Fin 4 => if i = 0 then some imageKey else none } }

theorem directory_keys :
    admitted (booting 1).boot.hash (booting 1).boot.prog (booting 1).boot.revoked ((directory.drop 64).take 256) =
      Vector.ofFn fun i : Fin 4 => if i = 1 then some dirKey else none := by
  have h : (((directory.drop 64).take 256).drop 64).take 64 = dirKey := by decide +kernel
  have g : decide (sha256 dirKey = vget [] (booting 1).boot.hash 1) = true := by
    rw [test_directory_key.1]; decide +kernel
  have p : ∀ i : Fin 4, (booting 1).boot.prog.getLsbD i = decide (i = 1) ∧ (booting 1).boot.revoked.getLsbD i = false := by decide +kernel
  unfold admitted
  congr 1
  funext i
  by_cases hi : i = 1
  · subst hi
    simp only [show ((1 : Fin 4).val) = 1 from rfl, Nat.mul_one, h, g, test_directory_key.2]
    rfl
  · simp only [p, hi, decide_false, Bool.false_and, if_false, Bool.false_eq_true]

theorem directory_sig : sigOk (Vector.ofFn fun i : Fin 4 => if i = 1 then some dirKey else none) directory 512 = true := by
  have h4 : directory.take 440 = dirBody := by decide +kernel
  have h5 : leAt directory 440 1 = 1 := by decide +kernel
  have h6 : (directory.drop 448).take 64 = dirSig := by decide +kernel
  have h7 : vget none (Vector.ofFn fun i : Fin 4 => if i = 1 then some dirKey else none) 1 = some dirKey := by decide +kernel
  unfold sigOk
  simp only [Nat.reduceSub, h4, h5, h6, h7, test_directory_hash, test_directory_signature, Nat.reduceLT, if_true]

theorem directory_passes : (booting 1).dirStatus directory = 0 := by
  have h1 : headBad 0x4C584244 512 65536 directory.length directory = false := by decide +kernel
  have h2 : leAt directory 8 4 = 512 := by decide +kernel
  have h3 : dirFormatBad directory = false := by decide +kernel
  unfold State.dirStatus
  rw [h1, directory_keys, h2, h3, directory_sig]
  rfl

theorem boot_image_passes : (booting 2).loadStatus 3 image.length image false = 0 := by
  have h0 : image.length = 4096 := by decide +kernel
  have h1 : headBad 0x4C585049 4096 196608 4096 image = false := by decide +kernel
  have h2 : leAt image 8 4 = 4096 := by decide +kernel
  have h3 : formatBad image = false := by decide +kernel
  have h4 : noResource (booting 2).variant 3 image = false ∧ (booting 2).conflict 3 image = false ∧
    ¬(((booting 2).cluOf 3).st = 4 ∨ ((booting 2).cluOf 3).migPending = true) := by decide +kernel
  unfold State.loadStatus
  rw [h0, h1, h2, show sigOk (booting 2).boot.keys image 4096 = true from image_sig, h3, h4.1, h4.2.1, if_neg h4.2.2]
  rfl

def settingUp (l : List (Nat × Word)) (auto : Bool) : State :=
  { booting 3 with boot := { (booting 3).boot with setup := l, auto := auto } }
def idle : State := { State.reset with boot := { State.reset.boot with st := 2 } }

theorem test_meets_FlashBootAndEntryIntoRun :
    ((booting 1).boot.st = 1 ∧ (booting 1).boot.phase = 1 ∧ (booting 1).boot.dirB = false ∧ (booting 1).dirStatus [] ≠ 0) ∧
    (∀ e ∈ [(3, 0x1000, 4096), (3, 0x1000, 8192)], let s := { booting 2 with boot := { (booting 2).boot with entries := [e] } }
      regsRising s ∧ s.boot.st = 1 ∧ s.boot.phase = 2 ∧ s.boot.entries = ((3 : Fin 16).val, e.2.1, e.2.2) :: [] ∧ s.coreOn (3 : Fin 16) = true ∧
        s.physOf (3 : Fin 16) < 16 ∧ s.boot.next < 4096 ∧ (3 : Fin 16).val < s.variant.cores ∧ (leAt image 8 4 ≠ e.2.2 ↔ e.2.2 = 8192)) ∧
    formed image ∧
    (∀ auto : Bool, let s := settingUp [] auto; s.boot.st = 1 ∧ s.boot.phase = 3 ∧ s.boot.setup = [] ∧ s.boot.auto = auto) ∧
    (let s := settingUp [(0x40, 1#32)] true
     s.boot.setup = (0x40, 1#32) :: [] ∧ s.writeAns 0x40 4 (1#32).toNat = .rejected .rsvEnc) ∧
    (hostIdle idle ∧ idle.tok = ⟨0, []⟩ ∧ ¬ hostIdle run ∧ ({ idle with tok := ⟨4, []⟩ } : State).tok.holder ≠ 0) := by
  unfold regsRising formed hostIdle; and_intros <;> decide +kernel

/-! ### Well-formed commands -/

def goodMsg : CanMsg := ⟨false, false, false, false, false, 0x40000#29, 0#4, []⟩

/-- One command that passes and one that fails for each check of Instr.wf. -/
theorem test_wf_register :
    (Instr.registerWrite .pcie 0 4 0).wf = true ∧ (Instr.registerWrite .pcie 0 3 0).wf = false ∧ (Instr.rcCounterRead .pcie 0 8).wf = true ∧
      (Instr.rcCounterRead .pcie 0 0).wf = false ∧ (Instr.bar2Access true 0 2 0).wf = true ∧ (Instr.bar2Access true 0 16 0).wf = false := by
  decide

theorem test_wf_rings :
    (Instr.pollCompletion (List.replicate 80 0#32)).wf = true ∧ (Instr.pollCompletion (List.replicate 79 0#32)).wf = false ∧
      (Instr.descriptorFetchDone 0 [List.replicate 32 0]).wf = true ∧ (Instr.descriptorFetchDone 0 [List.replicate 31 0]).wf = false ∧
      (Instr.rxFrameDelivery [List.replicate 32 0]).wf = true ∧ (Instr.rxFrameDelivery [[]]).wf = false ∧ (Instr.shadowUpdate .tx 16).wf = true ∧
      (Instr.shadowUpdate .ev 16).wf = false ∧ (Instr.ringHaltCmd .pcie .ev 15).wf = true ∧ (Instr.ringHaltCmd .pcie .ev 16).wf = false ∧
      (Instr.ringReset .pcie .ev 31).wf = false ∧ (Instr.ringResume .pcie .ev 31).wf = false := by
  decide +kernel

theorem test_wf_frames :
    (Instr.ingressAdmission 0 (List.replicate 64 0) 0).wf = true ∧ (Instr.ingressAdmission 0 (List.replicate 63 0) 0).wf = false ∧
      (Instr.ingressAdmission 0 (List.replicate 64 0) (2 ^ 48 * 256000000000)).wf = false ∧
      (Instr.frameTransmitEnd 0 .complete false (2 ^ 48 * 256000000000 - 1)).wf = true ∧
      (Instr.frameTransmitEnd 0 .complete false (2 ^ 48 * 256000000000)).wf = false ∧
      (Instr.rillShift 0 (List.replicate 32 (true, 0))).wf = true ∧ (Instr.rillShift 0 (List.replicate 33 (true, 0))).wf = false := by
  decide +kernel

theorem test_wf_can_and_loop :
    (Instr.canFrameReceive 0 true goodMsg 0).wf = true ∧ (Instr.canFrameReceive 0 true { goodMsg with id := 1#29 } 0).wf = false ∧
      (Instr.canFrameReceive 0 true { goodMsg with fdf := true, rtr := true } 0).wf = false ∧
      (Instr.canFrameReceive 0 true { goodMsg with data := List.replicate 9 0 } 0).wf = false ∧
      (Instr.canFrameReceive 0 true goodMsg (2 ^ 48 * 256000000000)).wf = false ∧ (Instr.loopPass [] [] [(3, 8)]).wf = true ∧
      (Instr.loopPass [] [] [(3, 9)]).wf = false ∧ (Instr.enterActive [] [] [(3, 2)]).wf = false := by
  decide +kernel

/-! ### Worked values -/

/-- Spec 09, the CRC example: CRC16A over "123456789" from 0xFFFF. -/
theorem test_crc16a : (List.range 9).foldl (fun c i => crcOf 0xA001 c (0x31 + i)) 0xFFFF = 0x4B37 := by decide +kernel

/-- FIPS 180-4: SHA-256 of "abc". -/
theorem test_sha256 :
    sha256 [0x61, 0x62, 0x63] = (leBytes 32 0xBA7816BF8F01CFEA414140DE5DAE2223B00361A396177A9CB410FF61F20015AD).reverse := by decide +kernel

/-- Spec 15, the repair example: row 17 of PB3 fails twice and is replaced by its first spare. -/
theorem test_spare :
    (match exec (.rowTestDone true) (testing ⟨3, 17, 2, false, 0⟩ []) with
     | .next t => t.rg .MEM_SPARE 3 0
     | _ => 0#32) = 0x80000011#32 := by decide +kernel

/-- No row of the table gives bits. -/
theorem test_no_word : decodeTableWord 32 0 = none := rfl

end Sys2Proof.Tests
end

section
/-!
PROOFS. Registers and buses (spec/00): a rejected write (O5) and the FEAT registers (O4).
-/
namespace Sys2Proof.Proofs
open Sys2Proof Sys2Proof.Machine Sys2Proof.Safety Sys2Proof.Laws

/-! ### A rejected write (R13, R17) -/

/-- A write that meets a cause is rejected with the data that GLB_REJ_DATA would hold of it, and does nothing else. -/
theorem exec_registerWrite_of_rejected {s : State} {m : Master} {off : BitVec 26} {width : Nat} {data : BitVec 64} {c : RejCause}
    (h : s.writeAns off.toNat width data.toNat = .rejected c) :
    exec (.registerWrite m off width data) s = .next (s.reject m c off.toNat (rejData off.toNat width data.toNat)) := by
  simp only [exec, execRegisterWrite, State.busWrite, h]

/-- While a reject is captured, the next one is only counted. -/
theorem reject_of_captured {s : State} (h : s.rb Fx.GLB_REJ_ADDR_VALID = true) (m : Master) (c : RejCause) (off : Nat) (d : Word) :
    s.reject m c off d = s.bump Fx.GLB_REJ_CNT_COUNT := by
  simp only [State.reject, h, if_true]

/-- While none is captured, a reject is counted and captured. -/
theorem reject_of_not_captured {s : State} (h : s.rb Fx.GLB_REJ_ADDR_VALID = false) (m : Master) (c : RejCause) (off : Nat)
    (d : Word) :
    s.reject m c off d =
      ((s.bump Fx.GLB_REJ_CNT_COUNT).sg .GLB_REJ_ADDR 0 0 (rejWord m c off)).sg .GLB_REJ_DATA 0 0 d := by
  simp only [State.reject, rejWord, h, Bool.false_eq_true, if_false]

section
variable {s : State} (hs : regsRising s)
include hs

/-- A reject changes no word but the count and the two of the capture. -/
theorem rg_reject_ne (m : Master) (c : RejCause) (off : Nat) (d : Word) (r : RegId) (i j : Nat)
    (h : r.addr i j ∉ [RegId.addr .GLB_REJ_CNT 0 0, RegId.addr .GLB_REJ_ADDR 0 0, RegId.addr .GLB_REJ_DATA 0 0]) :
    (s.reject m c off d).rg r i j = s.rg r i j := by
  simp only [List.mem_cons, List.not_mem_nil, or_false, not_or] at h
  obtain ⟨hCnt, hAddr, hData⟩ := h
  have hBump : (s.bump Fx.GLB_REJ_CNT_COUNT).rg r i j = s.rg r i j := rg_bump_ne s _ r 1 0 0 i j hs hCnt
  have hRise := rising_bump s Fx.GLB_REJ_CNT_COUNT 1 0 0 hs
  cases hv : s.rb Fx.GLB_REJ_ADDR_VALID with
  | true => rw [reject_of_captured hv, hBump]
  | false =>
    rw [reject_of_not_captured hv, rg_sg_ne _ _ _ _ _ _ _ _ (rising_sg _ _ _ _ _ hRise) hData,
      rg_sg_ne _ _ _ _ _ _ _ _ hRise hAddr, hBump]

/-- A reject with a capture held leaves the capture. -/
theorem capture_reject_of_captured (hv : s.rb Fx.GLB_REJ_ADDR_VALID = true) (m : Master) (c : RejCause) (off : Nat) (d : Word) :
    (s.reject m c off d).rg .GLB_REJ_ADDR = s.rg .GLB_REJ_ADDR ∧ (s.reject m c off d).rg .GLB_REJ_DATA = s.rg .GLB_REJ_DATA := by
  rw [reject_of_captured hv]
  exact ⟨rg_bump_ne s _ _ 1 0 0 0 0 hs (by decide), rg_bump_ne s _ _ 1 0 0 0 0 hs (by decide)⟩

/-- A reject with none held is captured. -/
theorem capture_reject_of_not_captured (hv : s.rb Fx.GLB_REJ_ADDR_VALID = false) (m : Master) (c : RejCause) (off : Nat) (d : Word) :
    (s.reject m c off d).rg .GLB_REJ_ADDR = rejWord m c off ∧ (s.reject m c off d).rg .GLB_REJ_DATA = d := by
  have hCnt := rising_bump s Fx.GLB_REJ_CNT_COUNT 1 0 0 hs
  have hAddr := rising_sg _ .GLB_REJ_ADDR 0 0 (rejWord m c off) hCnt
  rw [reject_of_not_captured hv]
  exact ⟨(rg_sg_ne _ _ _ _ _ _ _ _ hAddr (by decide)).trans (rg_sg_self _ _ _ _ _ hCnt), rg_sg_self _ _ _ _ _ hAddr⟩

/-- Every reject is counted, captured or not: the words of the capture are not the count's. -/
theorem counted_reject (m : Master) (c : RejCause) (off : Nat) (d : Word) :
    counted s (s.reject m c off d) Fx.GLB_REJ_CNT_COUNT := by
  have hCnt : counted s (s.bump Fx.GLB_REJ_CNT_COUNT) Fx.GLB_REJ_CNT_COUNT :=
    rf_bump_self s _ 1 0 0 hs (by decide) (by decide)
  have hRise := rising_bump s Fx.GLB_REJ_CNT_COUNT 1 0 0 hs
  cases hv : s.rb Fx.GLB_REJ_ADDR_VALID with
  | true => rwa [reject_of_captured hv]
  | false =>
    unfold counted State.rf at hCnt ⊢
    rwa [reject_of_not_captured hv, rg_sg_ne _ _ _ _ _ _ _ _ (rising_sg _ _ _ _ _ hRise) (by decide),
      rg_sg_ne _ _ _ _ _ _ _ _ hRise (by decide)]

end

/-- Settles O5: a rejected write is its reject, which counts, captures where nothing is captured, and keeps every other word.
That the data of a misaligned 32-bit write is captured as written, without a shift, is the model's reading of R17 (DEDUCED, log entry 70). -/
theorem rejectedWrites : Obligations.RejectedWrites := by
  intro s m off width data c hs hRej
  exact ⟨_, exec_registerWrite_of_rejected hRej, onlyRegs_reject .., counted_reject hs ..,
    fun hv => capture_reject_of_captured hs hv .., fun hv => capture_reject_of_not_captured hs hv ..,
    rg_reject_ne hs _ _ _ _⟩

/-! ### The FEAT registers (R5, Table 00-1) -/

/-- The FEAT registers. -/
def featRegs : List RegId := [.FEAT_DEV, .FEAT_UNITS, .FEAT_COUNTS, .FEAT_CORE_MAP, .FEAT_PORT_MAP]

theorem mem_featRegs {r : RegId} : r ∈ featRegs ↔
    r = .FEAT_DEV ∨ r = .FEAT_UNITS ∨ r = .FEAT_COUNTS ∨ r = .FEAT_CORE_MAP ∨ r = .FEAT_PORT_MAP := by
  simp only [featRegs, List.mem_cons, List.not_mem_nil, or_false]

/-- Where the map has a FEAT register: in the register blocks, at a word of its own, of an owner that no variant lacks, in the part of
the map that stays live in the fatal state. -/
theorem feat_place : ∀ r ∈ featRegs, busPlace (r.addr 0 0) = .reg ∧ regAt (r.addr 0 0) = some (r, 0, 0) ∧
    r.defn.owner = .always ∧ fatalLive (r.addr 0 0) = true ∧ aligned32 (r.addr 0 0) 4 = true := by decide

/-- R5, R524: a FEAT register is there in every variant and every state. -/
theorem regDead_feat (s : State) {r : RegId} (hr : r ∈ featRegs) : s.regDead r 0 0 = false := by
  obtain ⟨-, -, hOwner, hLive, -⟩ := feat_place r hr
  simp [State.regDead, absentReg, hOwner, hLive]

theorem regVal_FEAT_DEV (s : State) (m : Master) : s.regVal m .FEAT_DEV 0 0 = featDev s.variant := rfl
theorem regVal_FEAT_UNITS (s : State) (m : Master) : s.regVal m .FEAT_UNITS 0 0 = featUnits s.variant := rfl
theorem regVal_FEAT_COUNTS (s : State) (m : Master) : s.regVal m .FEAT_COUNTS 0 0 = featCounts s.variant := rfl
theorem regVal_FEAT_CORE_MAP (s : State) (m : Master) : s.regVal m .FEAT_CORE_MAP 0 0 = 2 ^ s.variant.cores - 1 := rfl
theorem regVal_FEAT_PORT_MAP (s : State) (m : Master) : s.regVal m .FEAT_PORT_MAP 0 0 = featPorts s.variant := rfl

/-- What a FEAT register reads is fixed by the variant. -/
theorem regVal_feat_congr {s t : State} (h : t.variant = s.variant) (m : Master) {r : RegId} (hr : r ∈ featRegs) :
    t.regVal m r 0 0 = s.regVal m r 0 0 := by
  rcases mem_featRegs.mp hr with rfl | rfl | rfl | rfl | rfl
  · rw [regVal_FEAT_DEV, regVal_FEAT_DEV, h]
  · rw [regVal_FEAT_UNITS, regVal_FEAT_UNITS, h]
  · rw [regVal_FEAT_COUNTS, regVal_FEAT_COUNTS, h]
  · rw [regVal_FEAT_CORE_MAP, regVal_FEAT_CORE_MAP, h]
  · rw [regVal_FEAT_PORT_MAP, regVal_FEAT_PORT_MAP, h]

/-- A FEAT register has no action on a read: the clearing of its RC fields, of which it has none, is all. -/
theorem regReadAct_feat (s : State) (m : Master) {r : RegId} (hr : r ∈ featRegs) : s.regReadAct m r 0 0 = s.readClear r 0 0 := by
  rcases mem_featRegs.mp hr with rfl | rfl | rfl | rfl | rfl <;> rfl

/-- A FEAT register has no action on a write beside that on its own word. -/
theorem regAct_feat (s : State) (m : Master) {r : RegId} (hr : r ∈ featRegs) (v : Word) :
    s.regAct m r 0 0 v = s.plainWrite r 0 0 v := by
  rcases mem_featRegs.mp hr with rfl | rfl | rfl | rfl | rfl <;> rfl

/-- A 32-bit read of a FEAT register answers with the register's value. -/
theorem busAnswer_feat_out (s : State) (m : Master) {r : RegId} (hr : r ∈ featRegs) :
    (s.busAnswer m (r.addr 0 0) 4).out = s.out ++ [.readData m (r.addr 0 0) 4 (s.regVal m r 0 0)] := by
  obtain ⟨hPlace, hAt, -, -, hAligned⟩ := feat_place r hr
  simp [State.busAnswer, State.busRead, State.emit, State.readClear, hPlace, hAt, regDead_feat s hr, hAligned, regReadAct_feat s m hr]

/-- A write to a FEAT register, of any width and data, changes held words only: it is rejected, or served without an action. -/
theorem onlyRegs_busWrite_feat (s : State) (m : Master) {r : RegId} (hr : r ∈ featRegs) (width data : Nat) :
    onlyRegs s (s.busWrite m (r.addr 0 0) width data) := by
  obtain ⟨hPlace, hAt, -, -, -⟩ := feat_place r hr
  unfold State.busWrite
  split
  · exact onlyRegs_refl s
  · exact onlyRegs_reject ..
  · simp only [State.busAct, hPlace, hAt, regAct_feat s m hr]
    exact onlyRegs_sg ..

/-- After a write to a FEAT register, a read answers what it answered before. -/
theorem busAnswer_busWrite_feat_out (s : State) (m : Master) {r : RegId} (hr : r ∈ featRegs) (width data : Nat) :
    ((s.busWrite m (r.addr 0 0) width data).busAnswer m (r.addr 0 0) 4).out =
      s.out ++ [.readData m (r.addr 0 0) 4 (s.regVal m r 0 0)] := by
  have hOnly : onlyRegs s (s.busWrite m (r.addr 0 0) width data) := onlyRegs_busWrite_feat s m hr width data
  have hVariant : (s.busWrite m (r.addr 0 0) width data).variant = s.variant := by rw [hOnly]
  have hOut : (s.busWrite m (r.addr 0 0) width data).out = s.out := by rw [hOnly]
  rw [busAnswer_feat_out _ m hr, regVal_feat_congr hVariant m hr, hOut]

/-- The commands on a FEAT register: a read answers its value, and answers it again after any write to the register. -/
theorem exec_feat (s : State) (m : Master) {r : RegId} (hr : r ∈ featRegs) {off : BitVec 26} (hOff : off.toNat = r.addr 0 0) :
    (∃ t, exec (.rcCounterRead m off 4) s = .next t ∧ t.out = s.out ++ [.readData m off.toNat 4 (s.regVal m r 0 0)]) ∧
    ∀ (width : Nat) (data : BitVec 64), ∃ u, exec (.registerWrite m off width data) s = .next u ∧
      ∃ t, exec (.rcCounterRead m off 4) u = .next t ∧ t.out = s.out ++ [.readData m off.toNat 4 (s.regVal m r 0 0)] := by
  simp only [exec, execRcCounterRead, execRegisterWrite, hOff]
  exact ⟨⟨_, rfl, busAnswer_feat_out s m hr⟩, fun width data => ⟨_, rfl, _, rfl, busAnswer_busWrite_feat_out s m hr width data.toNat⟩⟩

/-- Settles O4: the offsets are those of FEAT registers, whose values are the rows of Table 00-1 for the variant; a write to one of them
changes neither the variant nor what was sent. FEAT_DEV, which the statement leaves out, is covered by `exec_feat` with the stepping
of log entry 145. -/
theorem featRegisters : Obligations.FeatRegisters := by
  intro s m off v hRow
  simp only [List.mem_cons, List.not_mem_nil, or_false, Prod.mk.injEq] at hRow
  rcases hRow with ⟨hOff, hv⟩ | ⟨hOff, hv⟩ | ⟨hOff, hv⟩ | ⟨hOff, hv⟩
  · have hVal : v = s.regVal m .FEAT_UNITS 0 0 := by rw [hv, regVal_FEAT_UNITS]; cases s.variant <;> rfl
    exact hVal ▸ exec_feat s m (by decide) hOff
  · have hVal : v = s.regVal m .FEAT_COUNTS 0 0 := by rw [hv, regVal_FEAT_COUNTS]; cases s.variant <;> rfl
    exact hVal ▸ exec_feat s m (by decide) hOff
  · have hVal : v = s.regVal m .FEAT_CORE_MAP 0 0 := by rw [hv, regVal_FEAT_CORE_MAP]; cases s.variant <;> rfl
    exact hVal ▸ exec_feat s m (by decide) hOff
  · have hVal : v = s.regVal m .FEAT_PORT_MAP 0 0 := by rw [hv, regVal_FEAT_PORT_MAP]; cases s.variant <;> rfl
    exact hVal ▸ exec_feat s m (by decide) hOff

end Sys2Proof.Proofs
end

section
/-!
PROOFS. The cycle and the pool (spec/01): the order of a pool batch (O10).
-/
namespace Sys2Proof.Proofs
open Sys2Proof Sys2Proof.Machine Sys2Proof.Safety Sys2Proof.Laws

/-! ### Bytes of a memory and of a number -/

/-- The little-endian bytes of a number, each by its own quotient. -/
theorem leBytes_eq_map (n v : Nat) : leBytes n v = (List.range n).map fun i => BitVec.ofNat 8 (v / 256 ^ i) := by
  induction n generalizing v with
  | zero => rfl
  | succ n ih =>
    simp only [leBytes, ih, List.range_succ_eq_map, List.map_cons, List.map_map, pow_zero, Nat.div_one]
    congr 1
    refine List.map_congr_left fun i _ => ?_
    simp only [Function.comp_apply, Nat.div_div_eq_div_mul, pow_succ']

@[simp] theorem length_leBytes (n v : Nat) : (leBytes n v).length = n := by
  rw [leBytes_eq_map, List.length_map, List.length_range]

/-- The bytes of a number that fits give the number back. -/
theorem leNat_leBytes {n v : Nat} (h : v < 256 ^ n) : leNat (leBytes n v) = v := by
  induction n generalizing v with
  | zero => simp only [pow_zero] at h; simp only [leBytes, leNat]; omega
  | succ n ih =>
    have hq : v / 256 < 256 ^ n := Nat.div_lt_of_lt_mul (by rwa [pow_succ'] at h)
    simp only [leBytes, leNat, ih hq, BitVec.toNat_ofNat]
    omega

/-- The bytes read, each by its own address. -/
theorem rdBytes_eq_map (m : Cells) (a n : Nat) : rdBytes m a n = (List.range n).map fun i => sget 0 (a + i) m := by
  induction n generalizing a with
  | zero => rfl
  | succ n ih =>
    simp only [rdBytes, ih, List.range_succ_eq_map, List.map_cons, List.map_map, Nat.add_zero]
    congr 1
    refine List.map_congr_left fun i _ => ?_
    simp only [Function.comp_apply, Nat.succ_eq_add_one, Nat.add_assoc, Nat.add_comm 1 i]

/-- Bytes written are read back. -/
theorem rdBytes_wrBytes_self {m : Cells} (h : Rising m) (a : Nat) (d : List Byte) : rdBytes (wrBytes m a d) a d.length = d := by
  rw [rdBytes_eq_map]
  refine List.ext_getElem (by simp) fun i hi hd => ?_
  have hIn : a ≤ a + i ∧ a + i < a + d.length := ⟨Nat.le_add_right a i, by omega⟩
  rw [List.getElem_map, List.getElem_range, sget_wrBytes m a (a + i) d h, if_pos hIn, Nat.add_sub_cancel_left,
    List.getD_eq_getElem _ _ hd]

/-- The bytes of a 64-bit word written to a memory are read back. -/
theorem rdBytes_wrBytes_word {m : Cells} (h : scanon (0#8) 0 m = true) (a n : Nat) :
    rdBytes (wrBytes m a (leBytes 8 n)) a 8 = leBytes 8 n := by
  simpa only [length_leBytes] using rdBytes_wrBytes_self (scanon_rising _ _ _ h).1 a (leBytes 8 n)

theorem leNat_leBytes_word (v : BitVec 64) : leNat (leBytes 8 v.toNat) = v.toNat :=
  leNat_leBytes (by simpa using v.isLt)

/-- A write of all lanes replaces the word. -/
theorem laneMerge_all (old : List Byte) (v : BitVec 64) : laneMerge old 0xFF#8 v = leBytes 8 v.toNat := by
  rw [leBytes_eq_map]
  refine List.map_congr_left fun i hi => ?_
  have hLane : (0xFF#8).getLsbD i = true := by
    have hAll : ∀ j : Fin 8, (0xFF#8).getLsbD j = true := by decide
    exact hAll ⟨i, List.mem_range.mp hi⟩
  rw [if_pos hLane]

/-! ### One request of a batch (R32, R33) -/

/-- The pool offset of word `w` of bank `b`. -/
def batchAddr (b : Nat) (w : BitVec 14) : Nat := b * 131072 + w.toNat * 8

/-- Word `w` of bank `b` can be read and written: the pool is in canonical form, the bank is ON, and the word is neither in the lock range
(R369) nor protected as mirrored (R280). -/
structure WordServed (t : State) (b : Fin 16) (w : BitVec 14) : Prop where
  canon : scanon (0#8) 0 t.pool = true
  on : t.bankSt b = 0
  unlocked : batchAddr b w + 8 ≤ lockBase
  unprot : t.mirrorProt (batchAddr b w) 8 = false

/-- A state that differs in its requests, its outputs and its pool serves the word still. -/
theorem WordServed.update {t : State} {b : Fin 16} {w : BitVec 14} (h : WordServed t b w) (m : MemU) (o : List Output) {c : Cells}
    (hc : scanon (0#8) 0 c = true) : WordServed { t with mem := m, out := o, pool := c } b w :=
  ⟨hc, h.on, h.unlocked, h.unprot⟩

theorem poolBank_batchAddr (b : Fin 16) (w : BitVec 14) : poolBank (batchAddr b w) = b := by
  have hw := w.isLt
  have hb := b.isLt
  simp only [poolBank, batchAddr]
  omega

/-- A write of the word by any place is a write of its bytes. -/
theorem WordServed.batchPut {t : State} {b : Fin 16} {w : BitVec 14} (h : WordServed t b w) (p : PoolPlace) {d : List Byte}
    (hd : d.length = 8) : t.batchPut p (batchAddr b w) d = { t with pool := wrBytes t.pool (batchAddr b w) d } := by
  have hLock := h.unlocked
  have hWr : t.poolWr (batchAddr b w) d = { t with pool := wrBytes t.pool (batchAddr b w) d } := by
    rw [State.poolWr, poolBank_batchAddr, if_pos h.on, List.take_of_length_le (by omega)]
  have hProt : t.poolWrProt (batchAddr b w) d = t.poolWr (batchAddr b w) d := by
    rw [State.poolWrProt, hd, h.unprot, if_neg Bool.false_ne_true]
  rw [State.batchPut, hProt, ite_self, hWr]

/-- A read of word `w` by place `p`, without an ECC error. -/
def wordRead (p : PoolPlace) (w : BitVec 14) : PoolReq := ⟨p, w, .read, .clean⟩

/-- A write of all lanes of word `w` by place `p`. -/
def wordWrite (p : PoolPlace) (w : BitVec 14) (v : BitVec 64) : PoolReq := ⟨p, w, .write 0xFF#8 v, .clean⟩

/-- A read answers the word and changes nothing. -/
theorem WordServed.serve_read {t : State} {b : Fin 16} {w : BitVec 14} (h : WordServed t b w) (p : PoolPlace) :
    t.serve b (wordRead p w) = t.emit (.poolData p (batchAddr b w) (leNat (rdBytes t.pool (batchAddr b w) 8))) := by
  simp only [State.serve, wordRead, h.on, ne_eq, not_true, if_false]
  rfl

/-- A write replaces the word and answers nothing. -/
theorem WordServed.serve_write {t : State} {b : Fin 16} {w : BitVec 14} (h : WordServed t b w) (p : PoolPlace) (v : BitVec 64) :
    t.serve b (wordWrite p w v) = { t with pool := wrBytes t.pool (batchAddr b w) (leBytes 8 v.toNat) } := by
  rw [← h.batchPut p (length_leBytes 8 v.toNat), ← laneMerge_all (rdBytes t.pool (batchAddr b w) 8)]
  simp only [State.serve, wordWrite, h.on, ne_eq, not_true, if_false]
  rfl

/-! ### A batch serves the chosen requests in the order of the places (R32, R34) -/

/-- The state in which the batch begins: the arrivals are pending behind the requests that were. -/
def arrived (b : Fin 16) (l : List PoolReq) (s : State) : State :=
  { s with mem := { s.mem with reqs := s.mem.reqs ++ l.map fun q => (b.val, q) } }

/-- The memory unit once a request is taken for service. -/
def taken (b : Nat) (q : PoolReq) (u : MemU) : MemU :=
  { u with reqs := dropReq b q u.reqs, rot := sput 0 (32 * b + placeNum q.place) (placeSharer q.place + 1) u.rot }

/-- Take a request and serve it. -/
def takeServe (b : Nat) (t : State) (q : PoolReq) : State := ({ t with mem := taken b q t.mem }).serve b q

section
variable {t : State} {b : Fin 16} {w : BitVec 14} (h : WordServed t b w) (p : PoolPlace)
include h

theorem WordServed.takeServe_read : takeServe b t (wordRead p w) =
    { t with
      mem := taken b (wordRead p w) t.mem
      out := t.out ++ [.poolData p (batchAddr b w) (leNat (rdBytes t.pool (batchAddr b w) 8))] } :=
  (h.update (taken b (wordRead p w) t.mem) t.out h.canon).serve_read p

theorem WordServed.takeServe_write (v : BitVec 64) : takeServe b t (wordWrite p w v) =
    { t with
      mem := taken b (wordWrite p w v) t.mem
      pool := wrBytes t.pool (batchAddr b w) (leBytes 8 v.toNat) } :=
  (h.update (taken b (wordWrite p w v) t.mem) t.out h.canon).serve_write p v

end

/-- The request chosen at a place is one of that place. -/
theorem place_of_chosen {u : MemU} {b k : Nat} {q : PoolReq} (h : u.chosen b k = some q) : placeNum q.place = k := by
  unfold MemU.chosen at h
  revert h
  refine List.foldlRecOn (motive := fun o => o = some q → placeNum q.place = k) _ _ (fun h => nomatch h)
    fun best hBest x hx => ?_
  have hPlace : some x.2 = some q → placeNum q.place = k := by
    rintro ⟨⟩
    exact (by simpa using (List.mem_filter.mp hx).2 : x.1 = b ∧ placeNum x.2.place = k).2
  cases best with
  | none => exact hPlace
  | some y =>
    dsimp only
    split
    · exact hPlace
    · exact hBest

/-- A batch takes and serves, place by place, the request chosen there. -/
theorem exec_poolBatch (b : Fin 16) (l : List PoolReq) (s : State) : exec (.poolBatch b l) s =
    .next (((List.range 19).filterMap ((arrived b l s).mem.chosen b)).foldl (takeServe b) (arrived b l s)) := by
  rw [List.foldl_filterMap]
  change Host.Outcome.next (List.foldl _ (arrived b l s) _) = _
  congr 2
  funext t k
  change (match (arrived b l s).mem.chosen b k with | none => t | some q => _) = _
  cases h : (arrived b l s).mem.chosen b k with
  | none => rfl
  | some q => simp only [takeServe, taken, place_of_chosen h]

theorem placeRank_eq_placeNum (p : PoolPlace) : placeRank p = placeNum p := by
  cases p <;> rfl

theorem placeNum_lt (p : PoolPlace) : placeNum p < 19 := by
  cases p with
  | core n k => have hn := n.isLt; simp only [placeNum]; omega
  | _ => simp only [placeNum]; omega

/-- Numbers below a bound, of which one names a value. -/
theorem filterMap_range_one {β : Type} {i n : Nat} (hi : i < n) (x : β) :
    (List.range n).filterMap (fun k => if k = i then some x else none) = [x] := by
  induction n with
  | zero => omega
  | succ n ih =>
    rw [List.range_succ, List.filterMap_append]
    rcases Nat.lt_succ_iff_lt_or_eq.mp hi with h | rfl
    · simp [ih h, h.ne']
    · have hBelow : (List.range i).filterMap (fun k => if k = i then some x else none) = [] :=
        List.filterMap_eq_nil_iff.mpr fun k hk => if_neg (List.mem_range.mp hk).ne
      simp [hBelow]

/-- Numbers below a bound, of which two name values: the values come in the order of the numbers. -/
theorem filterMap_range_two {β : Type} {i j n : Nat} (hij : i < j) (hj : j < n) (x y : β) :
    (List.range n).filterMap (fun k => if k = i then some x else if k = j then some y else none) = [x, y] := by
  induction n with
  | zero => omega
  | succ n ih =>
    rw [List.range_succ, List.filterMap_append]
    rcases Nat.lt_succ_iff_lt_or_eq.mp hj with h | rfl
    · simp [ih h, h.ne', (hij.trans h).ne']
    · have hBelow : (List.range j).filterMap (fun k => if k = i then some x else if k = j then some y else none) = [x] :=
        (List.filterMap_congr fun k hk => by rw [if_neg (List.mem_range.mp hk).ne]).trans (filterMap_range_one hij x)
      simp [hBelow, hij.ne']

/-- A lone request is chosen at its place. -/
theorem chosen_lone (u : MemU) (b : Nat) {q : PoolReq} (h : u.reqs = [(b, q)]) (k : Nat) :
    u.chosen b k = if k = placeNum q.place then some q else none := by
  by_cases hk : k = placeNum q.place
  · simp [MemU.chosen, h, hk]
  · simp [MemU.chosen, h, hk, Ne.symm hk]

/-- Of two requests from one sharer the older is chosen: the younger has the same rank. -/
theorem chosen_same_place (u : MemU) (b : Nat) {x y : PoolReq} (hxy : x.place = y.place) (h : u.reqs = [(b, x), (b, y)]) (k : Nat) :
    u.chosen b k = if k = placeNum x.place then some x else none := by
  have hNum : placeNum y.place = placeNum x.place := congrArg placeNum hxy.symm
  have hRank : ¬ u.rank b y.place < u.rank b x.place := by rw [hxy]; exact lt_irrefl _
  by_cases hk : k = placeNum x.place
  · simp [MemU.chosen, h, hk, hNum, hRank]
  · simp [MemU.chosen, h, hNum, hk, Ne.symm hk]

/-- Two requests of different places are each chosen at their own, whichever arrived first. -/
theorem chosen_two_places (u : MemU) (b : Nat) {x y : PoolReq} (hxy : placeNum x.place ≠ placeNum y.place)
    (h : u.reqs = [(b, x), (b, y)] ∨ u.reqs = [(b, y), (b, x)]) (k : Nat) :
    u.chosen b k = if k = placeNum x.place then some x else if k = placeNum y.place then some y else none := by
  by_cases hx : k = placeNum x.place
  · rcases h with h | h <;> simp [MemU.chosen, h, hx, Ne.symm hxy]
  · by_cases hy : k = placeNum y.place
    · rcases h with h | h <;> simp [MemU.chosen, h, hy, hxy, Ne.symm hxy]
    · rcases h with h | h <;> simp [MemU.chosen, h, hx, hy, Ne.symm hx, Ne.symm hy]

section
variable {s : State} {b : Fin 16} (hEmpty : s.mem.reqs = [])
include hEmpty

theorem arrived_reqs (l : List PoolReq) : (arrived b l s).mem.reqs = l.map fun q => (b.val, q) := by
  simp only [arrived, hEmpty, List.nil_append]

theorem arrived_two_reqs {x y : PoolReq} {l : List PoolReq} (hl : l = [x, y] ∨ l = [y, x]) :
    (arrived b l s).mem.reqs = [(b.val, x), (b.val, y)] ∨ (arrived b l s).mem.reqs = [(b.val, y), (b.val, x)] :=
  hl.imp (by rintro rfl; exact arrived_reqs hEmpty _) (by rintro rfl; exact arrived_reqs hEmpty _)

/-- A lone request is served at once. -/
theorem exec_poolBatch_lone (q : PoolReq) : exec (.poolBatch b [q]) s = .next (takeServe b (arrived b [q] s) q) := by
  have hChosen := funext (chosen_lone _ b (arrived_reqs hEmpty [q]))
  rw [exec_poolBatch, hChosen, filterMap_range_one (placeNum_lt q.place)]
  rfl

/-- Of two requests from one sharer the batch serves the older only. -/
theorem exec_poolBatch_same_place {x y : PoolReq} (hxy : x.place = y.place) :
    exec (.poolBatch b [x, y]) s = .next (takeServe b (arrived b [x, y] s) x) := by
  have hChosen := funext (chosen_same_place _ b hxy (arrived_reqs hEmpty [x, y]))
  rw [exec_poolBatch, hChosen, filterMap_range_one (placeNum_lt x.place)]
  rfl

/-- Two requests of different places are both served, in the order of the places. -/
theorem exec_poolBatch_two_places {x y : PoolReq} {l : List PoolReq} (hl : l = [x, y] ∨ l = [y, x])
    (hxy : placeRank x.place < placeRank y.place) :
    exec (.poolBatch b l) s = .next (takeServe b (takeServe b (arrived b l s) x) y) := by
  rw [placeRank_eq_placeNum, placeRank_eq_placeNum] at hxy
  have hChosen := funext (chosen_two_places _ b hxy.ne (arrived_two_reqs hEmpty hl))
  rw [exec_poolBatch, hChosen, filterMap_range_two hxy (placeNum_lt y.place)]
  rfl

end

/-- Taking the oldest request leaves the others pending. -/
theorem taken_head_reqs {u : MemU} {b : Nat} {q : PoolReq} {r : List (Nat × PoolReq)} (h : u.reqs = (b, q) :: r) :
    (taken b q u).reqs = r := by
  simp only [taken, h, dropReq, if_true]

/-- Once both requests of a batch are taken, in whichever order they arrived, none is pending. -/
theorem taken_both_reqs {u : MemU} {b : Nat} {x y : PoolReq} (hxy : x ≠ y)
    (h : u.reqs = [(b, x), (b, y)] ∨ u.reqs = [(b, y), (b, x)]) : (taken b y (taken b x u)).reqs = [] := by
  rcases h with h | h
  · exact taken_head_reqs (taken_head_reqs h)
  · have hYoungerTaken : (taken b x u).reqs = [(b, y)] := by simp [taken, h, dropReq, Ne.symm hxy]
    exact taken_head_reqs hYoungerTaken

/-! ### Batches on one word (R33) -/

section
variable {t : State} {b : Fin 16} {w : BitVec 14} (h : WordServed t b w) (p q : PoolPlace) (v u : BitVec 64)
include h

/-- Of two writes the later-served one stands. -/
theorem WordServed.takeServe_write_write :
    takeServe b (takeServe b t (wordWrite p w v)) (wordWrite q w u) =
      { t with
        mem := taken b (wordWrite q w u) (taken b (wordWrite p w v) t.mem)
        pool := wrBytes (wrBytes t.pool (batchAddr b w) (leBytes 8 v.toNat)) (batchAddr b w) (leBytes 8 u.toNat) } := by
  rw [h.takeServe_write, (h.update _ _ (scanon_wrBytes _ _ _ h.canon)).takeServe_write]

/-- A read served after a write answers the written value. -/
theorem WordServed.takeServe_write_read :
    takeServe b (takeServe b t (wordWrite p w v)) (wordRead q w) =
      { t with
        mem := taken b (wordRead q w) (taken b (wordWrite p w v) t.mem)
        out := t.out ++ [.poolData q (batchAddr b w) v.toNat]
        pool := wrBytes t.pool (batchAddr b w) (leBytes 8 v.toNat) } := by
  rw [h.takeServe_write, (h.update _ _ (scanon_wrBytes _ _ _ h.canon)).takeServe_read, rdBytes_wrBytes_word h.canon,
    leNat_leBytes_word]

/-- A read served before a write answers the old value. -/
theorem WordServed.takeServe_read_write :
    takeServe b (takeServe b t (wordRead p w)) (wordWrite q w u) =
      { t with
        mem := taken b (wordWrite q w u) (taken b (wordRead p w) t.mem)
        out := t.out ++ [.poolData p (batchAddr b w) (leNat (rdBytes t.pool (batchAddr b w) 8))]
        pool := wrBytes t.pool (batchAddr b w) (leBytes 8 u.toNat) } := by
  rw [h.takeServe_read, (h.update _ _ h.canon).takeServe_write]

end

theorem WordServed.arrived {s : State} {b : Fin 16} {w : BitVec 14} (h : WordServed s b w) (l : List PoolReq) :
    WordServed (arrived b l s) b w := h.update _ s.out h.canon

/-- A batch of two requests of different places serves both in the order of R32: nothing stays pending, and nothing but the memory
unit, the outputs and the pool changes. -/
theorem exec_poolBatch_serves_both {s : State} {b : Fin 16} {x y : PoolReq} {l : List PoolReq} {o : List Output} {c : Cells}
    (hEmpty : s.mem.reqs = []) (hl : l = [x, y] ∨ l = [y, x]) (hxy : placeRank x.place < placeRank y.place)
    (hBoth : takeServe b (takeServe b (arrived b l s) x) y =
      { s with mem := taken b y (taken b x (arrived b l s).mem), out := o, pool := c }) :
    ∃ t, (exec (.poolBatch b l) s = .next t ∧ t = { s with mem := t.mem, out := t.out, pool := t.pool } ∧ t.mem.reqs = []) ∧
      t.out = o ∧ t.pool = c := by
  have hNe : x ≠ y := fun e => (e ▸ hxy).false
  exact ⟨_, ⟨(exec_poolBatch_two_places hEmpty hl hxy).trans (congrArg _ hBoth), rfl,
    taken_both_reqs hNe (arrived_two_reqs hEmpty hl)⟩, rfl, rfl⟩

/-- Settles O10: the batch is its chosen requests taken and served in the order of the places (`exec_poolBatch`), so what two requests on
one word do is what serving them one after the other does. That a request not served is held for the next batch is the model's choice
(log entry 164). -/
theorem poolBatches : Obligations.PoolBatches := by
  intro s b w p q v u a old rd wr serves hCanon hEmpty hOn hUnlocked hUnprot
  have h : WordServed s b w := ⟨hCanon, hOn, hUnlocked, hUnprot⟩
  have hWritten : ∀ n, rdBytes (wrBytes s.pool a (leBytes 8 n)) a 8 = leBytes 8 n := rdBytes_wrBytes_word hCanon a
  refine ⟨?lone, fun hpq => ⟨fun l hl => ?writeWrite, fun l hl => ?writeRead, fun l hl => ?readWrite⟩, ?samePlace⟩
  case lone =>
    refine ⟨_, ⟨(exec_poolBatch_lone hEmpty (rd p)).trans (congrArg _ ((h.arrived _).takeServe_read p)), rfl, ?_⟩, rfl, rfl⟩
    exact taken_head_reqs (arrived_reqs hEmpty [rd p])
  case writeWrite =>
    obtain ⟨t, hServes, hOut, hPool⟩ :=
      exec_poolBatch_serves_both hEmpty hl hpq ((h.arrived l).takeServe_write_write p q v u)
    exact ⟨t, hServes, hOut, hPool ▸ rdBytes_wrBytes_word (scanon_wrBytes _ _ _ hCanon) a _⟩
  case writeRead =>
    obtain ⟨t, hServes, hOut, hPool⟩ :=
      exec_poolBatch_serves_both hEmpty hl hpq ((h.arrived l).takeServe_write_read p q v)
    exact ⟨t, hServes, hOut, hPool ▸ hWritten _⟩
  case readWrite =>
    obtain ⟨t, hServes, hOut, hPool⟩ :=
      exec_poolBatch_serves_both hEmpty hl hpq ((h.arrived l).takeServe_read_write p q u)
    exact ⟨t, hServes, hOut, hPool ▸ hWritten _⟩
  case samePlace =>
    refine ⟨_, (exec_poolBatch_same_place (x := rd p) (y := wr p v) hEmpty rfl).trans
      (congrArg _ ((h.arrived _).takeServe_read p)), rfl, rfl, ?_⟩
    exact taken_head_reqs (arrived_reqs hEmpty [rd p, wr p v])

end Sys2Proof.Proofs
end

section
/-!
PROOFS. The host rings (spec/02): delivery of a received frame (O14).
-/
namespace Sys2Proof.Proofs
open Sys2Proof Sys2Proof.Machine Sys2Proof.Safety

/-! ### The frame leaves SP14 -/

/-- While device writes can be made, the oldest frame that waits at SP14 is taken from there and delivered. -/
theorem exec_rxFrameDelivery {s : State} {f : Delivered} {rest : List Delivered} (hSink : s.sinkOf 0 = f :: rest)
    (hMaster : s.noMaster = false) (hDma : s.hst.dmaOff = false) (hLive : live s) (descs : List (List Byte)) :
    exec (.rxFrameDelivery descs) s = .next ((s.sinkPop 0).rxDeliver f descs) := by
  unfold live at hLive
  simp [exec, execRxFrameDelivery, hSink, hMaster, hDma, hLive]

/-! ### Steering (R70) -/

/-- The row of HST_RX_STEER for a frame, and the receive ring that it names. -/
def steerRow (f : Delivered) : Nat := 8 * f.inp + f.cls
def steerRing (s : State) (f : Delivered) : Nat := s.rf Fx.HST_RX_STEER_RING (steerRow f)

/-- The manager is enabled and the row of the frame is: the frame is steered to a ring. -/
def Steered (s : State) (f : Delivered) : Prop :=
  s.rb Fx.HST_CTL_EN = true ∧ s.rb Fx.HST_RX_STEER_EN (steerRow f) = true

/-- A frame that is not steered is discarded and counted, whatever is posted. -/
theorem rxDeliver_of_not_steered {s : State} {f : Delivered}
    (h : s.rb Fx.HST_CTL_EN = false ∨ s.rb Fx.HST_RX_STEER_EN (steerRow f) = false) (descs : List (List Byte)) :
    s.rxDeliver f descs = s.bump Fx.HST_RX_NOSTEER_COUNT := by
  unfold steerRow at h
  rcases h with h | h <;> simp [State.rxDeliver, h]

/-! ### The receive ring (R71) -/

/-- Ring `n` receives: it is enabled and not halted, and the manager neither is quiesced nor quiesces. -/
structure RxOpen (s : State) (n : Nat) : Prop where
  enabled : s.rb Fx.HST_RXR_CFG_EN n = true
  running : (s.rxOf n).halted = false
  notQuiesced : s.hst.quiesced = false
  notQuiescing : s.hst.quiescing = false

/-- The descriptors posted in ring `n`, of those that host memory holds from its consumer index on. -/
def rxPosted (s : State) (n : Nat) (descs : List (List Byte)) : List (List Byte) :=
  if (s.rxOf n).await then [] else descs.take (((s.rxOf n).tail + s.rxN n - (s.rxOf n).cidx) % s.rxN n)

/-- A ring whose tail is one entry past its consumer index has one descriptor posted. -/
theorem rxPosted_one {s : State} {n : Nat} (hAwait : (s.rxOf n).await = false) (hIdx : (s.rxOf n).cidx < s.rxN n)
    (hSize : 1 < s.rxN n) (hTail : (s.rxOf n).tail = ((s.rxOf n).cidx + 1) % s.rxN n) (d : List Byte) :
    rxPosted s n [d] = [d] := by
  have hCount : ((s.rxOf n).tail + s.rxN n - (s.rxOf n).cidx) % s.rxN n = 1 := by
    rw [hTail, Nat.add_sub_assoc hIdx.le, Nat.mod_add_mod,
      show (s.rxOf n).cidx + 1 + (s.rxN n - (s.rxOf n).cidx) = 1 + s.rxN n by omega, Nat.add_mod_right, Nat.mod_eq_of_lt hSize]
  simp [rxPosted, hAwait, hCount]

section
variable {s : State} {f : Delivered} (hSteered : Steered s f)
include hSteered

/-- A frame for a ring that is disabled or halted, or that comes while the manager is quiesced, is discarded and counted. -/
theorem rxDeliver_of_ring_closed
    (h : s.rb Fx.HST_RXR_CFG_EN (steerRing s f) = false ∨ (s.rxOf (steerRing s f)).halted = true ∨ s.hst.quiesced = true)
    (descs : List (List Byte)) : s.rxDeliver f descs = s.bump Fx.HST_RXR_CNT_NODESC 1 (steerRing s f) := by
  obtain ⟨hEn, hRow⟩ := hSteered
  unfold steerRing steerRow at *
  rcases h with h | h | h <;> simp [State.rxDeliver, State.ringEn, State.ringHalted, hEn, hRow, h]

variable (hOpen : RxOpen s (steerRing s f)) (hTry : (s.rxOf (steerRing s f)).fetchTry = 0) (hEcc : f.ecc = false)
include hOpen hTry hEcc

/-- A frame for which the posted descriptors run out is discarded and counted. -/
theorem rxDeliver_of_noDesc {descs : List (List Byte)}
    (hFit : rxFit f.data.length 0 0 0 (rxPosted s (steerRing s f) descs) = .noDesc) :
    s.rxDeliver f descs = s.bump Fx.HST_RXR_CNT_NODESC 1 (steerRing s f) := by
  obtain ⟨hEn, hRow⟩ := hSteered
  obtain ⟨hEnabled, hRunning, hNotQuiesced, hNotQuiescing⟩ := hOpen
  unfold rxPosted at hFit
  unfold steerRing steerRow at *
  simp [State.rxDeliver, State.ringEn, State.ringHalted, *]

/-- A frame that fits in the first `m` posted descriptors is written into them, and the ring moves past them. -/
theorem rxDeliver_of_fits {descs : List (List Byte)} {m : Nat}
    (hFit : rxFit f.data.length 0 0 0 (rxPosted s (steerRing s f) descs) = .fits m) :
    s.rxDeliver f descs = (s.freeNext.freeNext.rxWrite (steerRing s f) f (s.rxCommon f) (s.rxOf (steerRing s f)).cidx 0 true
      ((rxPosted s (steerRing s f) descs).take m)).rxAfter (steerRing s f) m f.data.length := by
  obtain ⟨hEn, hRow⟩ := hSteered
  obtain ⟨hEnabled, hRunning, hNotQuiesced, hNotQuiescing⟩ := hOpen
  unfold rxPosted at hFit ⊢
  unfold steerRing steerRow at *
  simp [State.rxDeliver, State.ringEn, State.ringHalted, *]

end

/-- One valid descriptor takes a frame that is no longer than its buffer. -/
theorem rxFit_one_fits {len : Nat} {d : List Byte} (hValid : rxDescBad d = false) (hLen : len ≤ dLen d) :
    rxFit len 0 0 0 [d] = .fits 1 := by
  simp [rxFit, hValid, hLen]

/-- With one valid descriptor posted, a longer frame runs out of descriptors. -/
theorem rxFit_one_noDesc {len : Nat} {d : List Byte} (hValid : rxDescBad d = false) (hLen : dLen d < len) :
    rxFit len 0 0 0 [d] = .noDesc := by
  simp [rxFit, hValid, hLen.not_ge]

/-! ### What is written (R54, R68, Table 02-5) -/

/-- A write-back sends its two writes and changes nothing else. -/
theorem writeBack_eq (s : State) (base idx from_ : Nat) (body : List Byte) (b31 : Nat) :
    s.writeBack base idx from_ body b31 = { s with out := s.out ++ writeBacks base idx from_ body b31 } := by
  simp [State.writeBack, State.emit, writeBacks]

/-- The bytes common to the descriptors of a stamped frame. -/
theorem rxCommon_of_stamp (s : State) {f : Delivered} {t : Nat} (h : f.stamp = some t) :
    s.rxCommon f = leBytes 2 f.data.length ++ leBytes 1 f.inp ++ leBytes 1 f.core ++ leBytes 2 f.tci ++
      (leBytes 4 (t / 256) ++ leBytes 1 t) := by
  simp only [State.rxCommon, h]

/-- Byte 29 of the only descriptor of a stamped frame: LAST, FIRST, TAGGED, TS_VALID and TS_TB. -/
theorem rxByte29_only {f : Delivered} {t : Nat} (h : f.stamp = some t) :
    rxByte29 f true true = 64 + 32 + b2n (isTagged f.data) * 16 + 8 + f.stampTb % 8 := by
  simp [rxByte29, h, b2n]

/-- A frame that fits in one valid descriptor is written to its buffer whole, and the descriptor is written back as its first and last. -/
theorem rxWrite_one (s : State) (n : Nat) (f : Delivered) (common : List Byte) (idx : Nat) {d : List Byte}
    (hValid : rxDescBad d = false) (hLen : f.data.length ≤ dLen d) :
    s.rxWrite n f common idx 0 true [d] =
      { s with
        out := s.out ++ [.hostWrite (descLe d 0 8) f.data] ++
          writeBacks (s.base64 .HST_RXR_BASE_LO .HST_RXR_BASE_HI n) idx 16
            (leBytes 2 f.data.length ++ common ++ leBytes 1 (rxByte29 f true true) ++ leBytes 1 0) 0x80 } := by
  simp [State.rxWrite, hValid, List.take_of_length_le hLen, writeBack_eq, State.emit]

/-- An update of a receive ring acts on what the ring holds. -/
theorem rxUpd_congr {s : State} {n : Nat} {f g : Ring → Ring} (h : f (s.rxOf n) = g (s.rxOf n)) : s.rxUpd n f = s.rxUpd n g := by
  have hRings : vupd s.hst.rxr n f = vupd s.hst.rxr n g := by
    unfold vupd
    split
    next hn => rw [show f s.hst.rxr[n] = g s.hst.rxr[n] by simpa [State.rxOf, hn] using h]
    next => rfl
  rw [State.rxUpd, State.rxUpd, hRings]

/-- Without EV_ALL, a ring only moves past the descriptors of the frame; its shadow word is owed. -/
theorem rxAfter_of_no_event {s : State} {n : Nat} (h : s.rb Fx.HST_RXR_CFG_EV_ALL n = false) (k len : Nat) :
    s.rxAfter n k len = s.rxUpd n fun r => { r with cidx := (r.cidx + k) % s.rxN n, dirty := true } := by
  simp only [State.rxAfter, h, Bool.false_eq_true, if_false]
  exact rxUpd_congr rfl

/-- A frame for which one valid descriptor is posted, and long enough, is written into it, and the ring moves past it. -/
theorem rxDeliver_one {s : State} {f : Delivered} {d : List Byte} (hSteered : Steered s f) (hOpen : RxOpen s (steerRing s f))
    (hTry : (s.rxOf (steerRing s f)).fetchTry = 0) (hEcc : f.ecc = false) (hPosted : rxPosted s (steerRing s f) [d] = [d])
    (hValid : rxDescBad d = false) (hLen : f.data.length ≤ dLen d) (hEvAll : s.rb Fx.HST_RXR_CFG_EV_ALL (steerRing s f) = false) :
    s.rxDeliver f [d] =
      { s.freeNext.freeNext.rxUpd (steerRing s f) fun r =>
          { r with cidx := (r.cidx + 1) % s.rxN (steerRing s f), dirty := true } with
        out := s.out ++ [.hostWrite (descLe d 0 8) f.data] ++
          writeBacks (s.base64 .HST_RXR_BASE_LO .HST_RXR_BASE_HI (steerRing s f)) (s.rxOf (steerRing s f)).cidx 16
            (leBytes 2 f.data.length ++ s.rxCommon f ++ leBytes 1 (rxByte29 f true true) ++ leBytes 1 0) 0x80 } := by
  have hFit : rxFit f.data.length 0 0 0 (rxPosted s (steerRing s f) [d]) = .fits 1 := by rw [hPosted, rxFit_one_fits hValid hLen]
  rw [rxDeliver_of_fits hSteered hOpen hTry hEcc hFit, hPosted, List.take_succ_cons, List.take_zero,
    rxWrite_one _ _ _ _ _ hValid hLen]
  refine rxAfter_of_no_event ?_ 1 _
  exact hEvAll

/-- Settles O14: the frame is taken from SP14 and delivered (`exec_rxFrameDelivery`): not steered, or steered to a closed ring, it is counted;
otherwise whether the one posted descriptor fits it decides between the count and the write. -/
theorem receiveDelivery : Obligations.ReceiveDelivery := by
  intro s f rest descs hSink hMaster hDma hLive k n p
  have hExec : exec (.rxFrameDelivery descs) s = .next (p.rxDeliver f descs) := exec_rxFrameDelivery hSink hMaster hDma hLive descs
  rw [hExec]
  refine ⟨fun hNot => congrArg _ (rxDeliver_of_not_steered (s := p) hNot descs), fun hEn hRow => ?_⟩
  have hSteered : Steered p f := ⟨hEn, hRow⟩
  refine ⟨fun hClosed => congrArg _ (rxDeliver_of_ring_closed hSteered hClosed descs), ?_⟩
  rintro d t hEnabled hRunning hNotQuiesced hNotQuiescing hAwait hTry hIdx hSize hTail rfl hValid hEcc hStamp hEvAll
  have hOpen : RxOpen p n := ⟨hEnabled, hRunning, hNotQuiesced, hNotQuiescing⟩
  have hPosted : rxPosted p n [d] = [d] := rxPosted_one hAwait hIdx (by omega) hTail d
  refine ⟨fun hLong => congrArg _ ?noDesc, fun hFits => congrArg _ ?written⟩
  case noDesc =>
    exact rxDeliver_of_noDesc hSteered hOpen hTry hEcc (hPosted.symm ▸ rxFit_one_noDesc hValid hLong)
  case written =>
    rw [rxDeliver_one hSteered hOpen hTry hEcc hPosted hValid hFits hEvAll, rxCommon_of_stamp p hStamp, rxByte29_only hStamp]
    simp only [List.append_assoc]
    rfl

end Sys2Proof.Proofs
end

section
/-!
PROOFS. Time bases (spec/06): event capture, pulse outputs and launch times (O29).
-/
namespace Sys2Proof.Proofs
open Sys2Proof Sys2Proof.Machine Sys2Proof.Safety Sys2Proof.Laws

/-! ### Event capture (R237, R227) -/

/-- EDGE of the capture unit selects the edge. -/
def capSelects (s : State) (k : Fin 4) (rising : Bool) : Bool :=
  s.rf Fx.TB_CAP_CFG_EDGE k == 3 || s.rf Fx.TB_CAP_CFG_EDGE k == if rising then 1 else 2

/-- EDGE selects its own direction, or both. -/
theorem capSelects_iff {s : State} {k : Fin 4} {rising : Bool} : capSelects s k rising = true ↔
    s.rf Fx.TB_CAP_CFG_EDGE k = 3 ∨ s.rf Fx.TB_CAP_CFG_EDGE k = if rising then 1 else 2 := by
  simp only [capSelects, Bool.or_eq_true, beq_iff_eq]

/-- EDGE of the other direction does not select the edge. -/
theorem capSelects_of_other {s : State} {k : Fin 4} {rising : Bool} (h : s.rf Fx.TB_CAP_CFG_EDGE k = if rising then 2 else 1) :
    capSelects s k rising = false := by
  rw [capSelects, h]
  cases rising <;> rfl

/-- An edge that is not selected changes nothing. -/
theorem exec_captureEdge_of_not_selected {s : State} {k : Fin 4} {rising : Bool} (h : capSelects s k rising = false) (at_ : Nat) :
    exec (.captureEdge k rising at_) s = .next s := by
  have hGuard : (!s.rb Fx.TB_CAP_CFG_EN k || !capSelects s k rising) = true := by rw [h, Bool.not_false, Bool.or_true]
  exact if_pos hGuard

section
variable {s : State} {k : Fin 4} {rising : Bool} (hEn : s.rb Fx.TB_CAP_CFG_EN k = true) (hSel : capSelects s k rising = true)
include hEn hSel

/-- A selected edge at an enabled unit is lost with its time base out of service or a full FIFO, and stored otherwise. -/
theorem exec_captureEdge_of_selected (at_ : Nat) : exec (.captureEdge k rising at_) s =
    if s.tbOos (s.rf Fx.TB_CAP_CFG_TB k) || decide (4 ≤ (s.capOf k).fifo.length) then .next (s.bump Fx.TB_CAP_STS_LOST 1 k)
    else .next (s.capUpd k fun c => { c with fifo := c.fifo ++ [at_] }) := by
  have hGuard : ¬ (!s.rb Fx.TB_CAP_CFG_EN k || !capSelects s k rising) = true := by rw [hEn, hSel]; decide
  exact if_neg hGuard

/-- A selected edge with its time base in service and room in the FIFO is stored last. -/
theorem exec_captureEdge_stored (hIn : s.tbOos (s.rf Fx.TB_CAP_CFG_TB k) = false) (hRoom : (s.capOf k).fifo.length < 4) (at_ : Nat) :
    exec (.captureEdge k rising at_) s = .next (s.capUpd k fun c => { c with fifo := c.fifo ++ [at_] }) := by
  simp [exec_captureEdge_of_selected hEn hSel, hIn, hRoom.not_ge]

/-- A selected edge with its time base out of service or a full FIFO is only counted. -/
theorem exec_captureEdge_lost (h : s.tbOos (s.rf Fx.TB_CAP_CFG_TB k) = true ∨ 4 ≤ (s.capOf k).fifo.length) (at_ : Nat) :
    exec (.captureEdge k rising at_) s = .next (s.bump Fx.TB_CAP_STS_LOST 1 k) := by
  simp [exec_captureEdge_of_selected hEn hSel, h]

end

/-! ### Reading a captured time (R238) -/

/-- Every variant has the capture units: outside the fatal state their registers are there. -/
theorem regDead_TB_CAP_NS {s : State} (h : live s) (k : Fin 4) : s.regDead .TB_CAP_NS k 0 = false := by
  have hOwner : RegId.TB_CAP_NS.defn.owner = .always := rfl
  unfold live at h
  simp [State.regDead, absentReg, hOwner, h]

/-- A read of TB_CAP_NS answers the word that the unit's read gives. -/
theorem exec_tbCapRead {s : State} (h : live s) (m : Master) (k : Fin 4) :
    exec (.tbCapRead m k) s = .next ((s.capRead k).1.emit (.readData m (0x40084 + 0x20 * k.val) 4 (s.capRead k).2)) := by
  change execTbCapRead m k s = _
  simp only [execTbCapRead, regDead_TB_CAP_NS h, Bool.false_eq_true, if_false]
  rfl

/-- The read of a unit that holds nothing. -/
theorem capRead_of_empty {s : State} {k : Nat} (h : (s.capOf k).fifo = []) : s.capRead k = (s, 0xFFFFFFFF) := by
  simp only [State.capRead, h]

/-- The read of the oldest entry removes it and latches its seconds and fraction. -/
theorem capRead_of_cons {s : State} {k u : Nat} {rest : List Nat} (h : (s.capOf k).fifo = u :: rest) :
    s.capRead k = (s.capUpd k fun _ => ⟨rest, u / 2 ^ 16 / 1000000000 % 2 ^ 48, u % 2 ^ 16⟩, u / 2 ^ 16 % 1000000000) := by
  simp only [State.capRead, h, nsPerSec, Nat.reducePow]

/-! ### Pulse trains (R239, R217) -/

/-- The instant of active edge `j` of a train. -/
def plsInstant (s : State) (k j : Nat) : Nat := s.plsStart k + j * s.plsPeriod k

theorem plsPeriod_pos (s : State) (k : Nat) : 0 < s.plsPeriod k := Nat.lt_of_lt_of_le Nat.one_pos (Nat.le_max_left _ _)

/-- A PERIOD other than 0 is the period. -/
theorem plsPeriod_of_pos {s : State} {k : Nat} (h : 0 < s.rf Fx.TB_PLS_PERIOD_NS k) : s.plsPeriod k = s.rf Fx.TB_PLS_PERIOD_NS k :=
  Nat.max_eq_right h

/-- Once an active edge is due, the next one after the present time lies ahead by at most a period, and is a later edge of the train:
whatever a step passed over, no edge is made for it. -/
theorem plsAhead_of_due {s : State} {k n : Nat} (h : plsInstant s k n ≤ s.tbNs (s.plsTb k)) :
    s.tbNs (s.plsTb k) < plsInstant s k (s.plsAhead k) ∧
      plsInstant s k (s.plsAhead k) ≤ s.tbNs (s.plsTb k) + s.plsPeriod k ∧ n < s.plsAhead k := by
  unfold plsInstant at *
  have hPos : 0 < s.plsPeriod k := plsPeriod_pos s k
  have hAhead : s.plsAhead k = (s.tbNs (s.plsTb k) - s.plsStart k) / s.plsPeriod k + 1 := if_neg (by omega)
  have hFloor : (s.tbNs (s.plsTb k) - s.plsStart k) / s.plsPeriod k * s.plsPeriod k ≤ s.tbNs (s.plsTb k) - s.plsStart k :=
    Nat.div_mul_le_self _ _
  have hCeil : s.tbNs (s.plsTb k) - s.plsStart k < s.plsAhead k * s.plsPeriod k := by
    rw [hAhead, Nat.mul_comm]
    exact Nat.lt_mul_div_succ _ hPos
  have hLater : n ≤ (s.tbNs (s.plsTb k) - s.plsStart k) / s.plsPeriod k := (Nat.le_div_iff_mul_le hPos).mpr (by omega)
  refine ⟨by omega, ?_, by omega⟩
  rw [hAhead, Nat.succ_mul]
  omega

/-- A train whose time base is out of service makes no edge. -/
theorem exec_pulseEdge_of_oos {s : State} {k : Fin 4} (h : s.tbOos (s.plsTb k) = true) (a : Bool) :
    exec (.pulseEdge k a) s = .next s := by
  change execPulseEdge k a s = _
  simp [execPulseEdge, h]

section
variable {s : State} {k : Fin 4} (hRun : (s.plsOf k).running = true) (hIn : s.tbOos (s.plsTb k) = false)
include hRun hIn

/-- Before the instant of the next active edge, it is not made. -/
theorem exec_pulseEdge_active_early (h : s.tbNs (s.plsTb k) < plsInstant s k (s.plsOf k).nextK) :
    exec (.pulseEdge k true) s = .next s := by
  change execPulseEdge k true s = _
  unfold plsInstant at h
  simp [execPulseEdge, hRun, hIn, h]

/-- When its instant is reached, the active edge is made, and the train goes on with the first edge that lies ahead. -/
theorem exec_pulseEdge_active_due (h : plsInstant s k (s.plsOf k).nextK ≤ s.tbNs (s.plsTb k)) :
    exec (.pulseEdge k true) s = .next (s.plsUpd k fun u => { u with active := true, nextK := s.plsAhead k }) := by
  change execPulseEdge k true s = _
  unfold plsInstant at h
  simp [execPulseEdge, hRun, hIn, h]

/-- WIDTH after the last active edge, an active output goes inactive. -/
theorem exec_pulseEdge_inactive_due (hActive : (s.plsOf k).active = true)
    (h : plsInstant s k ((s.plsOf k).nextK - 1) + s.rf Fx.TB_PLS_WIDTH_NS k ≤ s.tbNs (s.plsTb k)) :
    exec (.pulseEdge k false) s = .next (s.plsUpd k fun u => { u with active := false }) := by
  change execPulseEdge k false s = _
  unfold plsInstant at h
  simp [execPulseEdge, hRun, hIn, hActive, h]

end

/-! ### Launch times (R114, R233) -/

/-- An update of an element acts on what the vector holds there. -/
theorem vupd_congr {α : Type} {n : Nat} {v : Vector α n} {i : Nat} {f g : α → α} (d : α) (h : f (v[i]?.getD d) = g (v[i]?.getD d)) :
    vupd v i f = vupd v i g := by
  unfold vupd
  split
  next hi => rw [show f v[i] = g v[i] by simpa [hi] using h]
  next => rfl

/-- An update of an output acts on what the output holds. -/
theorem outUpd_congr {s : State} {p : Nat} {f g : OutPort → OutPort} (h : f (s.outOf p) = g (s.outOf p)) :
    s.outUpd p f = s.outUpd p g := by
  rw [State.outUpd, State.outUpd, vupd_congr OutPort.reset h]

theorem outOf_outUpd (s : State) (k n : Nat) (f : OutPort → OutPort) (h : n < 17) :
    (s.outUpd k f).outOf n = if k = n then f (s.outOf n) else s.outOf n := by
  simp only [State.outOf, State.outUpd, vupd_get]
  split
  next hkn => simp [h]
  next => rfl

/-- At an output that sends, the head of a queue becomes eligible under condition 4 of R114, and nothing is selected. -/
theorem launchRipe_of_sending {s : State} {p : Fin 17} {c : Nat} {e : QEntry} {rest : List QEntry}
    (hQueue : (s.outOf p).queue c = e :: rest) (hCur : (s.outOf p).cur ≠ none) :
    s.launchRipe p c = s.outUpd p fun o => o.setQueue c ({ e with ripe := true } :: rest) := by
  have hSends : ((s.outUpd p fun o => o.setQueue c ({ e with ripe := true } :: rest)).outOf p).cur.isNone = false := by
    rw [outOf_outUpd _ _ _ _ p.isLt, if_pos rfl]
    exact Option.isNone_eq_false_iff.mpr (Option.isSome_iff_ne_none.mpr hCur)
  rw [State.launchRipe, outUpd_congr (g := fun o => o.setQueue c ({ e with ripe := true } :: rest)) (by simp only [hQueue])]
  simp only [hSends, Bool.false_and, Bool.false_eq_true, if_false]

/-- The command on the frame at the head of a queue examines that frame's launch time. -/
theorem exec_launchTimeReached_output {s : State} {p : Fin 17} {c : Fin 8} {e : QEntry} {rest : List QEntry} {f : Frame}
    (hQueue : (s.outOf p).queue c = e :: rest) (hFrame : s.frameOf e.fid = some f) (lead : Nat) :
    exec (.launchTimeReached (.output p c) lead) s = .next (if s.atLaunch f.launch lead then s.launchRipe p c else s) := by
  change execLaunchTimeReached (.output p c) lead s = _
  simp only [execLaunchTimeReached, hQueue, hFrame, List.head?_cons]
  split <;> rfl

/-- A launch time on a time base in service is reached, less the lead. -/
theorem atLaunch_iff {s : State} {tb : Nat} (h : s.tbOos tb = false) (l : Int) (lead : Nat) :
    s.atLaunch (some (tb, l)) lead = true ↔ l ≤ s.tbNs tb + lead := by
  simp [State.atLaunch, h]

/-- Settles O29, one part for each of its commands. The lead of a launch is an operand (log entry 208). -/
theorem capturePulseAndLaunch : Obligations.CapturePulseAndLaunch := by
  refine ⟨?capture, ?read, ?pulse, ?launch⟩
  case capture =>
    intro s k rising at_ hRise hEn edge off cap
    refine ⟨fun hOther => exec_captureEdge_of_not_selected (capSelects_of_other hOther) at_, fun hEdge => ?_⟩
    have hSel : capSelects s k rising = true := capSelects_iff.mpr hEdge
    refine ⟨fun hIn hRoom => ?_, fun hLost => ?_⟩
    · exact exec_captureEdge_stored hEn hSel hIn hRoom at_
    · exact ⟨_, exec_captureEdge_lost hEn hSel hLost at_, onlyRegs_bump .., rf_bump_self s _ 1 k 0 hRise (by decide) (by decide)⟩
  case read =>
    intro s m k hLive address
    rw [exec_tbCapRead hLive]
    exact ⟨fun hEmpty => by rw [capRead_of_empty hEmpty], fun u rest hFifo => by rw [capRead_of_cons hFifo]⟩
  case pulse =>
    intro s k hRun tb now start period next
    refine ⟨exec_pulseEdge_of_oos, fun hIn hPeriod => ?_⟩
    have hInstant : ∀ j, start + j * period = plsInstant s k j := fun j => by rw [plsInstant, plsPeriod_of_pos hPeriod]; rfl
    rw [hInstant next, hInstant (next - 1)]
    refine ⟨exec_pulseEdge_active_early hRun hIn, fun hDue => ?_, exec_pulseEdge_inactive_due hRun hIn⟩
    obtain ⟨hAhead, hPeriodAhead, hLater⟩ := plsAhead_of_due hDue
    rw [plsPeriod_of_pos hPeriod] at hPeriodAhead
    rw [← hInstant] at hAhead hPeriodAhead
    exact ⟨_, exec_pulseEdge_active_due hRun hIn hDue, hAhead, hPeriodAhead, hLater⟩
  case launch =>
    intro s p c e rest f tb lead l hQueue hFrame hLaunch hIn hCur
    rw [exec_launchTimeReached_output hQueue hFrame, hLaunch]
    refine ⟨fun hReached => ?_, fun hEarly => ?_⟩
    · rw [if_pos ((atLaunch_iff hIn l lead).mpr hReached), launchRipe_of_sending hQueue hCur]
    · rw [if_neg fun h => hEarly.not_ge ((atLaunch_iff hIn l lead).mp h)]

end Sys2Proof.Proofs
end

section
/-!
PROOFS. The Ilutas instruction set (spec/09): which instructions trap, and with which cause (O39).
-/
namespace Sys2Proof.Proofs
open Sys2Proof Sys2Proof.Machine Sys2Proof.Safety Sys2Proof.Laws

/-! ### The fetch (R318) -/

/-- A counted and logged second read leaves the clusters. -/
@[simp] theorem eccRetry_clu (s : State) (m off : Nat) : (s.eccRetry m off).clu = s.clu := by
  unfold State.eccRetry
  obtain ⟨_, -, h⟩ | h := tlog_only (s.bump Fx.MEM_UNCORR_CNT_RETRY_OK) 0x71 1 m (wordOff m off) <;> rw [h] <;> rfl

@[simp] theorem fetched_ctxOf (s : State) (k n : Nat) (e : CoreEcc) : (fetched s k e).ctxOf n = s.ctxOf n := by
  unfold fetched State.ctxOf State.cluOf
  split
  · rw [eccRetry_clu]
  · rfl

/-! ### How an instruction traps (R318, R319) -/

section
variable {s : State} {k : Nat} {w : Word} (hAt : atWord s k w)
include hAt

/-- R318: a fetch that fails twice traps, whatever the word. -/
theorem core1_fetchFail (row : Nat) (body : State → Word → Eff) :
    s.core1 k .fetchFail row body = (s.eccFail (16 + s.physOf k) (s.ctxOf k).pc).raise k ⟨7, 0, (s.ctxOf k).pc⟩ := by
  obtain ⟨hRuns, hAligned, hInside, hOn, -⟩ := hAt
  simp [State.core1, hRuns, hAligned, hOn, Nat.not_le.mpr hInside]

variable {e : CoreEcc} (hFetch : fetchGood e)
include hFetch

/-- R319: a word that no table defines traps, whatever command names it. -/
theorem core1_undefined (hRow : insRow w = none) (row : Nat) (body : State → Word → Eff) :
    s.core1 k e row body = (fetched s k e).raise k ⟨1, 0, 0⟩ := by
  obtain ⟨hRuns, hAligned, hInside, hOn, hWord⟩ := hAt
  have hGood : e ≠ .fetchFail := hFetch
  simp [State.core1, hRuns, hAligned, hOn, hWord, hGood, hRow, fetched, Nat.not_le.mpr hInside]

/-- R319: a zero field that is not zero traps. -/
theorem core1_zeroBad {row : Nat} (hRow : insRow w = some row) (hZero : zeroBad w = true) (body : State → Word → Eff) :
    s.core1 k e row body = (fetched s k e).raise k ⟨1, 1, 0⟩ := by
  obtain ⟨hRuns, hAligned, hInside, hOn, hWord⟩ := hAt
  have hGood : e ≠ .fetchFail := hFetch
  simp [State.core1, hRuns, hAligned, hOn, hWord, hGood, hRow, hZero, fetched, Nat.not_le.mpr hInside]

end

/-- The word is an instruction of this row, with its zero fields zero, and may end a loop body. -/
def Issues (w : Word) (row : Nat) : Prop := insRow w = some row ∧ zeroBad w = false ∧ loopEndBad w = false

/-- An instruction whose body traps takes that exception. -/
theorem core1_of_exc {s t : State} {k row : Nat} {w : Word} {e : CoreEcc} {body : State → Word → Eff} {x : Exc}
    (hAt : atWord s k w) (hFetch : fetchGood e) (hIssues : Issues w row) (hBody : body (fetched s k e) w = .exc t x) :
    s.core1 k e row body = t.raise k x := by
  obtain ⟨hRow, hZero, hEnd⟩ := hIssues
  rw [core1_good s k e row body w hAt hFetch hRow hZero fun h => absurd (hEnd.symm.trans h) (by decide), hBody]
  rfl

/-! ### Which words are defined (R319, Tables 09-4 and 09-5) -/

/-- KIND of MEMP is the top of its immediate. -/
theorem kind_eq_fImm (w : Word) : bits w 15 13 = fImm w / 8192 := by
  unfold fImm bits
  omega

/-- R319: the major opcodes from 0x30 on are undefined. -/
theorem insRow_of_major_undefined {w : Word} (h : 0x30 ≤ fMaj w) : insRow w = none := by
  have hLt : fMaj w < 64 := Nat.mod_lt _ (by decide)
  unfold insRow
  generalize fMaj w = m at h hLt
  interval_cases m <;> rfl

/-- Loads and stores with an immediate: majors 0x08 to 0x0F. -/
theorem issues_encI {maj rd ra imm : Nat} (hLo : 0x08 ≤ maj) (hHi : maj < 0x10) (hRd : rd < 32) (hRa : ra < 32) (hImm : imm < 65536) :
    Issues (encI maj rd ra imm) (64 * maj) := by
  obtain ⟨hMaj, -, -, -⟩ := fields_encI maj rd ra imm (by omega) hRd hRa hImm
  unfold Issues insRow zeroBad loopEndBad
  rw [hMaj]
  interval_cases maj <;> exact ⟨rfl, rfl, rfl⟩

/-- MEMP: a load whose rd is its ra is undefined, a store is not. -/
theorem issues_memp {kind rd ra i : Nat} (hKind : kind < 6) (hRd : rd < 32) (hRa : ra < 32) (hi : i < 8192)
    (hNe : kind ≤ 2 → rd ≠ ra) : Issues (encI 0x10 rd ra (8192 * kind + i)) (64 * 0x10 + kind) := by
  obtain ⟨hMaj, hFRd, hFRa, hFImm⟩ := fields_encI 0x10 rd ra (8192 * kind + i) (by omega) hRd hRa (by omega)
  have hFKind : bits (encI 0x10 rd ra (8192 * kind + i)) 15 13 = kind := by rw [kind_eq_fImm, hFImm]; omega
  have hDefined : ¬ (kind ≤ 2 ∧ rd = ra) := fun h => hNe h.1 h.2
  refine ⟨?_, ?_, ?_⟩
  · simp only [insRow, hMaj, hFRd, hFRa, hFKind, Bool.and_eq_true, decide_eq_true_eq, beq_iff_eq, if_neg hDefined,
      if_pos (Nat.le_of_lt_succ hKind)]
  · simp only [zeroBad, hMaj]
  · simp [loopEndBad, hMaj]

/-- The atomics: FN 0 and 1. -/
theorem issues_atomic {fn rd ra rb : Nat} (hFn : fn ≤ 1) (hRd : rd < 32) (hRa : ra < 32) (hRb : rb < 32) :
    Issues (encT 0x14 rd ra rb fn) (64 * 0x14 + fn) := by
  obtain ⟨hMaj, -, -, -, hFFn, hZ⟩ := fields_encT 0x14 rd ra rb fn (by omega) hRd hRa hRb (by omega)
  refine ⟨?_, ?_, ?_⟩
  · simp only [insRow, hMaj, hFFn, if_pos hFn]
  · simp [zeroBad, hMaj, hZ]
  · simp [loopEndBad, hMaj]

/-- CRCM: a defined width and algorithm, and rd other than ra. -/
theorem issues_crcm {width alg rd ra : Nat} (hWidth : width < 3) (hAlg : alg < 6) (hRd : rd < 32) (hRa : ra < 32) (hNe : rd ≠ ra) :
    Issues (encT 0x13 rd ra 0 (16 * width + alg)) 0x4C0 := by
  obtain ⟨hMaj, hFRd, hFRa, hFRb, hFFn, hZ⟩ :=
    fields_encT 0x13 rd ra 0 (16 * width + alg) (by omega) hRd hRa (by omega) (by omega)
  have hDefined : (16 * width + alg) / 16 ≤ 2 ∧ (16 * width + alg) % 16 ≤ 5 := by omega
  refine ⟨?_, ?_, ?_⟩
  · simp only [insRow, hMaj, hFRd, hFRa, hFFn, Bool.and_eq_true, decide_eq_true_eq, bne_iff_ne, if_pos (And.intro hDefined hNe)]
  · simp [zeroBad, hMaj, hFRb, hZ]
  · simp [loopEndBad, hMaj]

/-- A format T word with bits 10:6 filled is the format F word with WM1 there. -/
theorem encT_eq_encF (maj rd ra rb z fn : Nat) : encT maj rd ra rb (64 * z + fn) = encF maj rd ra rb z fn := by
  unfold encT encF
  exact congrArg (BitVec.ofNat 32) (by omega)

/-! ### The commands of the memory instructions -/

theorem exec_loadRow {row : MemRow} (h : row ∈ loadRows) (k : Fin 16) (e : CoreEcc) (s : State) :
    exec (row.ins k e) s = .next (s.core1 k e (64 * row.sel) (loadBody k e row.size row.signed)) := by
  simp only [loadRows, List.mem_cons, List.not_mem_nil, or_false] at h
  obtain rfl | rfl | rfl | rfl | rfl := h <;> rfl

theorem exec_storeRow {row : MemRow} (h : row ∈ storeRows) (k : Fin 16) (e : CoreEcc) (s : State) :
    exec (row.ins k e) s = .next (s.core1 k e (64 * row.sel) (storeBody k row.size)) := by
  simp only [storeRows, List.mem_cons, List.not_mem_nil, or_false] at h
  obtain rfl | rfl | rfl := h <;> rfl

theorem exec_loadPRow {row : MemRow} (h : row ∈ loadPRows) (k : Fin 16) (e : CoreEcc) (s : State) :
    exec (row.ins k e) s = .next (s.core1 k e (64 * 0x10 + row.sel) (loadPBody k e row.size)) := by
  simp only [loadPRows, List.mem_cons, List.not_mem_nil, or_false] at h
  obtain rfl | rfl | rfl := h <;> rfl

theorem exec_storePRow {row : MemRow} (h : row ∈ storePRows) (k : Fin 16) (e : CoreEcc) (s : State) :
    exec (row.ins k e) s = .next (s.core1 k e (64 * 0x10 + row.sel) (storePBody k row.size)) := by
  simp only [storePRows, List.mem_cons, List.not_mem_nil, or_false] at h
  obtain rfl | rfl | rfl := h <;> rfl

theorem exec_aadd (k : Fin 16) (e : CoreEcc) (s : State) :
    exec (.aadd k e) s = .next (s.core1 k e (64 * 0x14 + 0) (atomBody k e fun v b => v + b)) := rfl

theorem exec_aswp (k : Fin 16) (e : CoreEcc) (s : State) :
    exec (.aswp k e) s = .next (s.core1 k e (64 * 0x14 + 1) (atomBody k e fun _ b => b)) := rfl

theorem exec_crcm (k : Fin 16) (e : CoreEcc) (s : State) : exec (.crcm k e) s = .next (s.core1 k e 0x4C0 (crcmBody k e)) := rfl

/-! ### Every command of a core is one instruction -/

/-- The command executes the instruction at the pc, as the given row. -/
def ExecutesAs (ins : Fin 16 → CoreEcc → Instr) (row : Nat) : Prop :=
  ∀ k e s, ∃ body, exec (ins k e) s = .next (s.core1 k e row body)

theorem executesAs_aluRow : ∀ row ∈ aluRows, ExecutesAs row.ins row.fn := by
  simp only [aluRows, List.mem_append, List.mem_cons, List.not_mem_nil, or_false, or_imp, forall_and, forall_eq]
  and_intros <;> exact fun _ _ _ => ⟨_, rfl⟩

theorem executesAs_immRow : ∀ row ∈ immRows, ExecutesAs row.ins (64 * row.maj) := by
  simp only [immRows, List.mem_cons, List.not_mem_nil, or_false, forall_eq_or_imp, forall_eq]
  and_intros <;> exact fun _ _ _ => ⟨_, rfl⟩

theorem executesAs_fieldRow : ∀ row ∈ fieldRows, ExecutesAs row.ins (64 * 0x11 + row.fn) := by
  simp only [fieldRows, List.mem_cons, List.not_mem_nil, or_false, forall_eq_or_imp, forall_eq]
  and_intros <;> exact fun _ _ _ => ⟨_, rfl⟩

/-- Every command of an Ilutas instruction executes as some row. -/
theorem executesAs_of_mem {ins : Fin 16 → CoreEcc → Instr} (h : ins ∈ coreInstrs) : ∃ row, ExecutesAs ins row := by
  revert ins
  simp only [coreInstrs, List.forall_mem_append, List.forall_mem_map]
  and_intros
  · exact fun row h => ⟨_, executesAs_aluRow row h⟩
  · exact fun row h => ⟨_, executesAs_immRow row h⟩
  · exact fun row h => ⟨_, executesAs_fieldRow row h⟩
  · exact fun row h => ⟨_, fun k e s => ⟨_, exec_loadRow h k e s⟩⟩
  · exact fun row h => ⟨_, fun k e s => ⟨_, exec_storeRow h k e s⟩⟩
  · exact fun row h => ⟨_, fun k e s => ⟨_, exec_loadPRow h k e s⟩⟩
  · exact fun row h => ⟨_, fun k e s => ⟨_, exec_storePRow h k e s⟩⟩
  all_goals
    simp only [List.mem_cons, List.not_mem_nil, or_false, forall_eq_or_imp, forall_eq]
    and_intros <;> exact ⟨_, fun _ _ _ => ⟨_, rfl⟩⟩

/-! ### What an access answers where it traps (R314, R315, R318) -/

section
variable {s : State} {k a size : Nat}

/-- R315, before the map (DEDUCED, log entry 116). -/
theorem cLoad_misaligned (h : a % size ≠ 0) (e : CoreEcc) (plain : Bool) : s.cLoad k e plain a size = .bad s ⟨3, 0, a⟩ := by
  rw [State.cLoad, if_pos h]

/-- R315, before the map (DEDUCED, log entry 116). -/
theorem cStore_misaligned (h : a % size ≠ 0) (v : Nat) : s.cStore k a size v = .bad s ⟨3, 0, a⟩ := by
  rw [State.cStore, if_pos h]

variable (hAligned : a % size = 0)
include hAligned

/-- R314: a load outside the map. -/
theorem cLoad_outside (h : (0x20000 ≤ a ∧ a < 0x100000) ∨ 0x300000 ≤ a) (e : CoreEcc) (plain : Bool) :
    s.cLoad k e plain a size = .bad s ⟨2, 1, a⟩ := by
  rw [State.cLoad, if_neg (not_not.mpr hAligned)]
  dsimp only
  rw [if_neg (by omega), if_neg (by omega)]

/-- R314: a store outside the map. -/
theorem cStore_outside (h : (0x20000 ≤ a ∧ a < 0x100000) ∨ 0x300000 ≤ a) (v : Nat) : s.cStore k a size v = .bad s ⟨2, 1, a⟩ := by
  rw [State.cStore, if_neg (not_not.mpr hAligned), if_neg (by omega), if_neg (by omega), if_neg (by omega)]

/-- R314: a store to the instruction memory. -/
theorem cStore_imem (h : a < 0x10000) (v : Nat) : s.cStore k a size v = .bad s ⟨2, 2, a⟩ := by
  rw [State.cStore, if_neg (not_not.mpr hAligned), if_pos h]

end

/-- R318: a load whose second read fails, with BADADDR the address of the word (DEDUCED, log entry 212). -/
theorem cLoad_dataFail {s : State} {k a size : Nat} (h : loadable s k a size = true) (plain : Bool) :
    s.cLoad k .dataFail plain a size = .bad (s.eccFail (s.memAt k a).1 (s.memAt k a).2) ⟨7, 0, a - a % 4⟩ := by
  simp only [loadable, Bool.and_eq_true, Bool.or_eq_true, decide_eq_true_eq, beq_iff_eq] at h
  obtain ⟨hAligned, ⟨hCore, hOn⟩ | ⟨⟨hLo, hHi⟩, hOn⟩⟩ := h
  · rw [State.cLoad, if_neg (not_not.mpr hAligned)]
    dsimp only
    rw [if_pos hCore, if_pos hOn]
  · have hPool : a < 0x300000 := by unfold lockBase at hHi; omega
    rw [State.cLoad, if_neg (not_not.mpr hAligned)]
    dsimp only
    rw [if_neg (by omega), if_pos ⟨hLo, hPool⟩, if_neg (by omega), if_pos hOn]

/-! ### The bodies hand on the exception of their access -/

section
variable {s t : State} {k : Nat} {e : CoreEcc} {size : Nat} {w : Word} {x : Exc}

theorem loadBody_of_bad {signed : Bool} (h : s.cLoad k e true (addrPlus (s.ra k w).toNat (simm w)) size = .bad t x) :
    loadBody k e size signed s w = .exc t x := by rw [loadBody, h]

theorem storeBody_of_bad (h : ∀ v, s.cStore k (addrPlus (s.ra k w).toNat (simm w)) size v = .bad t x) :
    storeBody k size s w = .exc t x := by rw [storeBody, h]

theorem loadPBody_of_bad (h : s.cLoad k e true (s.ra k w).toNat size = .bad t x) : loadPBody k e size s w = .exc t x := by
  rw [loadPBody, h]

theorem storePBody_of_bad (h : ∀ v, s.cStore k (s.ra k w).toNat size v = .bad t x) : storePBody k size s w = .exc t x := by
  rw [storePBody, h]

theorem crcmBody_of_bad (h : s.cLoad k e false (s.ra k w).toNat (sumWidth w) = .bad t x) : crcmBody k e s w = .exc t x := by
  rw [crcmBody, h]

end

theorem atomBody_misaligned {s : State} {k : Nat} {w : Word} (h : (s.ra k w).toNat % 4 ≠ 0) (e : CoreEcc) (f : Nat → Nat → Nat) :
    atomBody k e f s w = .exc s ⟨3, 0, (s.ra k w).toNat⟩ := by
  rw [atomBody, if_pos h]

/-- An atomic outside the pool. -/
theorem atomBody_outside {s : State} {k : Nat} {w : Word} (hAligned : (s.ra k w).toNat % 4 = 0)
    (h : (s.ra k w).toNat < 0x100000 ∨ 0x300000 ≤ (s.ra k w).toNat) (e : CoreEcc) (f : Nat → Nat → Nat) :
    atomBody k e f s w = .exc s ⟨2, 4, (s.ra k w).toNat⟩ := by
  rw [atomBody, if_neg (not_not.mpr hAligned), if_pos h]

/-! ### The address of an access -/

/-- The 16-bit immediate, sign-extended as a number. -/
theorem sext_toNat (i : BitVec 16) : sext 16 i.toNat = i.toInt := by
  rw [sext, BitVec.toInt_eq_toNat_cond]
  have := i.isLt
  simp only [Int.ofNat_eq_natCast]
  split <;> split <;> omega

/-- A base register moved by the immediate is their sum as words. -/
theorem addrPlus_sext (a : Word) (i : BitVec 16) : addrPlus a.toNat (sext 16 i.toNat) = (a + i.signExtend 32).toNat := by
  rw [sext_toNat, addrPlus, BitVec.signExtend, BitVec.toNat_add, BitVec.toNat_ofInt]
  simp only [Int.ofNat_eq_natCast]
  omega

/-- The base register of a word, after the fetch. -/
theorem ra_fetched {w : Word} {ra : Nat} (h : fRa w = ra) (s : State) (k : Nat) (e : CoreEcc) :
    (fetched s k e).ra k w = (s.ctxOf k).reg ra := by
  rw [State.ra, fetched_ctxOf, h]

/-! ### The memory instructions trap as their access does -/

/-- Loads and stores with an immediate have the major opcodes 0x08 to 0x0F. -/
theorem sel_memRow : ∀ row ∈ loadRows ++ storeRows, 0x08 ≤ row.sel ∧ row.sel < 0x10 := by decide

section
variable {row : MemRow} {k : Fin 16} {e : CoreEcc} {s t : State} {rd ra : Fin 32} {i : BitVec 16} {x : Exc}

theorem issues_memRow (hRow : row ∈ loadRows ++ storeRows) : Issues (encI row.sel rd ra i.toNat) (64 * row.sel) :=
  issues_encI (sel_memRow row hRow).1 (sel_memRow row hRow).2 rd.isLt ra.isLt i.isLt

/-- The address that a load or store with an immediate accesses. -/
theorem address_memRow (hRow : row ∈ loadRows ++ storeRows) :
    addrPlus ((fetched s k e).ra k (encI row.sel rd ra i.toNat)).toNat (simm (encI row.sel rd ra i.toNat)) =
      ((s.ctxOf k).reg ra + i.signExtend 32).toNat := by
  obtain ⟨-, -, hRa, hImm⟩ :=
    fields_encI row.sel rd ra i.toNat (by have := sel_memRow row hRow; omega) rd.isLt ra.isLt i.isLt
  rw [ra_fetched hRa, simm, hImm, addrPlus_sext]

variable (hFetch : fetchGood e) (hAt : atWord s k (encI row.sel rd ra i.toNat))
include hFetch hAt

theorem exec_loadRow_of_bad (hRow : row ∈ loadRows)
    (h : (fetched s k e).cLoad k e true ((s.ctxOf k).reg ra + i.signExtend 32).toNat row.size = .bad t x) :
    exec (row.ins k e) s = .next (t.raise k x) := by
  have hMem : row ∈ loadRows ++ storeRows := List.mem_append_left _ hRow
  rw [← address_memRow hMem] at h
  rw [exec_loadRow hRow, core1_of_exc hAt hFetch (issues_memRow hMem) (loadBody_of_bad h)]

theorem exec_storeRow_of_bad (hRow : row ∈ storeRows)
    (h : ∀ v, (fetched s k e).cStore k ((s.ctxOf k).reg ra + i.signExtend 32).toNat row.size v = .bad t x) :
    exec (row.ins k e) s = .next (t.raise k x) := by
  have hMem : row ∈ loadRows ++ storeRows := List.mem_append_right _ hRow
  rw [← address_memRow hMem] at h
  rw [exec_storeRow hRow, core1_of_exc hAt hFetch (issues_memRow hMem) (storeBody_of_bad h)]

end

section
variable {row : MemRow} {k : Fin 16} {e : CoreEcc} {s : State} {rd ra : Fin 32}

/-- The selectors of MEMP are KINDs 0 to 5. -/
theorem sel_memPRow : ∀ row ∈ loadPRows ++ storePRows, row.sel < 6 := by decide

/-- MEMP traps at a misaligned address. -/
theorem exec_memPRow_misaligned {i : BitVec 13} (hFetch : fetchGood e) (hRow : row ∈ loadPRows ++ storePRows) (hNe : rd ≠ ra)
    (hAt : atWord s k (encI 0x10 rd ra (8192 * row.sel + i.toNat))) (h : ((s.ctxOf k).reg ra).toNat % row.size ≠ 0) :
    exec (row.ins k e) s = .next ((fetched s k e).raise k ⟨3, 0, ((s.ctxOf k).reg ra).toNat⟩) := by
  have hSel := sel_memPRow row hRow
  have hi : i.toNat < 8192 := i.isLt
  obtain ⟨-, -, hRa, -⟩ := fields_encI 0x10 rd ra (8192 * row.sel + i.toNat) (by omega) rd.isLt ra.isLt (by omega)
  have hIssues := issues_memp hSel rd.isLt ra.isLt hi fun _ => Fin.val_ne_of_ne hNe
  rw [← ra_fetched hRa s k e] at h ⊢
  rcases List.mem_append.mp hRow with hLoad | hStore
  · rw [exec_loadPRow hLoad, core1_of_exc hAt hFetch hIssues (loadPBody_of_bad (cLoad_misaligned h ..))]
  · rw [exec_storePRow hStore, core1_of_exc hAt hFetch hIssues (storePBody_of_bad (cStore_misaligned h))]

section
variable {rb : Fin 32} {fn : Nat} (hFetch : fetchGood e) (hFn : fn ≤ 1) (hAt : atWord s k (encT 0x14 rd ra rb fn))
include hFetch hFn hAt

/-- An atomic traps as its body does. -/
theorem core1_atomic_of_exc {f : Nat → Nat → Nat} {x : Exc}
    (h : atomBody k e f (fetched s k e) (encT 0x14 rd ra rb fn) = .exc (fetched s k e) x) :
    s.core1 k e (64 * 0x14 + fn) (atomBody k e f) = (fetched s k e).raise k x :=
  core1_of_exc hAt hFetch (issues_atomic hFn rd.isLt ra.isLt rb.isLt) h

theorem core1_atomic_misaligned (f : Nat → Nat → Nat) (h : ((s.ctxOf k).reg ra).toNat % 4 ≠ 0) :
    s.core1 k e (64 * 0x14 + fn) (atomBody k e f) = (fetched s k e).raise k ⟨3, 0, ((s.ctxOf k).reg ra).toNat⟩ := by
  obtain ⟨-, -, hRa, -⟩ := fields_encT 0x14 rd ra rb fn (by decide) rd.isLt ra.isLt rb.isLt (by omega)
  rw [← ra_fetched hRa s k e] at h ⊢
  exact core1_atomic_of_exc hFetch hFn hAt (atomBody_misaligned h ..)

theorem core1_atomic_outside (f : Nat → Nat → Nat) (hAligned : ((s.ctxOf k).reg ra).toNat % 4 = 0)
    (h : ((s.ctxOf k).reg ra).toNat < 0x100000 ∨ 0x300000 ≤ ((s.ctxOf k).reg ra).toNat) :
    s.core1 k e (64 * 0x14 + fn) (atomBody k e f) = (fetched s k e).raise k ⟨2, 4, ((s.ctxOf k).reg ra).toNat⟩ := by
  obtain ⟨-, -, hRa, -⟩ := fields_encT 0x14 rd ra rb fn (by decide) rd.isLt ra.isLt rb.isLt (by omega)
  rw [← ra_fetched hRa s k e] at hAligned h ⊢
  exact core1_atomic_of_exc hFetch hFn hAt (atomBody_outside hAligned h ..)

end

/-- CRCM traps at an address that its width does not divide. -/
theorem exec_crcm_misaligned {width : Fin 3} {alg : Fin 6} (hFetch : fetchGood e) (hNe : rd ≠ ra)
    (hAt : atWord s k (encT 0x13 rd ra 0 (16 * width + alg))) (h : ((s.ctxOf k).reg ra).toNat % 2 ^ width.val ≠ 0) :
    exec (.crcm k e) s = .next ((fetched s k e).raise k ⟨3, 0, ((s.ctxOf k).reg ra).toNat⟩) := by
  obtain ⟨-, -, hRa, -, hFn, -⟩ := fields_encT 0x13 rd ra 0 (16 * width + alg) (by omega) rd.isLt ra.isLt (by omega) (by omega)
  have hWidth : sumWidth (encT 0x13 rd ra 0 (16 * width + alg)) = 2 ^ width.val := by
    rw [sumWidth, hFn]
    congr 1
    omega
  have hIssues := issues_crcm width.isLt alg.isLt rd.isLt ra.isLt (Fin.val_ne_of_ne hNe)
  rw [← ra_fetched hRa s k e, ← hWidth] at h
  rw [exec_crcm, core1_of_exc hAt hFetch hIssues (crcmBody_of_bad (cLoad_misaligned h ..)), ra_fetched hRa]

end

/-- An undefined word takes its exception, whatever command names it. -/
theorem exec_undefined {ins : Fin 16 → CoreEcc → Instr} {k : Fin 16} {e : CoreEcc} {s : State} {w : Word} (hIns : ins ∈ coreInstrs)
    (hFetch : fetchGood e) (hAt : atWord s k w) (hRow : insRow w = none) :
    exec (ins k e) s = .next ((fetched s k e).raise k ⟨1, 0, 0⟩) := by
  obtain ⟨row, hExec⟩ := executesAs_of_mem hIns
  obtain ⟨body, hExec⟩ := hExec k e s
  rw [hExec, core1_undefined hAt hFetch hRow]

/-- A fetch that fails twice takes its exception, whatever command names the word. -/
theorem exec_fetchFail {ins : Fin 16 → CoreEcc → Instr} {k : Fin 16} {s : State} {w : Word} (hIns : ins ∈ coreInstrs)
    (hAt : atWord s k w) :
    exec (ins k .fetchFail) s = .next ((s.eccFail (16 + s.physOf k) (s.ctxOf k).pc).raise k ⟨7, 0, (s.ctxOf k).pc⟩) := by
  obtain ⟨row, hExec⟩ := executesAs_of_mem hIns
  obtain ⟨body, hExec⟩ := hExec k .fetchFail s
  rw [hExec, core1_fetchFail hAt]

/-- Table 09-4 defines each FN of its rows, and those that take no rb are FN 0x18 to 0x1C. -/
theorem fn_aluRow : ∀ row ∈ aluRows, row.fn < 64 ∧ (row.fn ≤ 0x16 ∨ 0x18 ≤ row.fn ∧ row.fn ≤ 0x1C ∨ 0x20 ≤ row.fn ∧ row.fn ≤ 0x22) ∧
    (row.unary = true → 0x18 ≤ row.fn ∧ row.fn ≤ 0x1C) := by decide

/-- R319: an instruction of Table 09-4 traps with a zero field filled: bits 10:6, or rb where it takes none. -/
theorem exec_aluRow_zeroBad {row : AluRow} {k : Fin 16} {e : CoreEcc} {s : State} {rd ra rb z : Fin 32} (hRow : row ∈ aluRows)
    (hFetch : fetchGood e) (hBad : z ≠ 0 ∨ (row.unary = true ∧ rb ≠ 0)) (hAt : atWord s k (encT 0 rd ra rb (64 * z + row.fn))) :
    exec (row.ins k e) s = .next ((fetched s k e).raise k ⟨1, 1, 0⟩) := by
  obtain ⟨hFn, hDefined, hUnary⟩ := fn_aluRow row hRow
  rw [encT_eq_encF] at hAt
  obtain ⟨hMaj, -, -, hRb, hZ, hFFn⟩ := fields_encF 0 rd ra rb z row.fn (by decide) rd.isLt ra.isLt rb.isLt z.isLt hFn
  have hIns : insRow (encF 0 rd ra rb z row.fn) = some row.fn := by
    simp only [insRow, hMaj, hFFn, Bool.or_eq_true, Bool.and_eq_true, decide_eq_true_eq, or_assoc, if_pos hDefined, Nat.mul_zero,
      Nat.zero_add]
  have hZero : zeroBad (encF 0 rd ra rb z row.fn) = true := by
    have hBad : z.val ≠ 0 ∨ (0x18 ≤ row.fn ∧ row.fn ≤ 0x1C) ∧ rb.val ≠ 0 :=
      hBad.imp Fin.val_ne_of_ne fun ⟨hU, hR⟩ => ⟨hUnary hU, Fin.val_ne_of_ne hR⟩
    unfold fWm1 at hZ
    unfold fLsb at hRb
    simpa only [zeroBad, fRb, hMaj, hFFn, hZ, hRb, Bool.or_eq_true, Bool.and_eq_true, decide_eq_true_eq, bne_iff_ne] using hBad
  obtain ⟨body, hExec⟩ := executesAs_aluRow row hRow k e s
  rw [hExec, core1_zeroBad hAt hFetch hIns hZero]

/-- Settles O39: each trap is that of the fetch, of the decoder or of the access, and `core1` raises it with the pc at the instruction.
That the alignment is judged before the map is the model's reading of R314 and R315 (DEDUCED, log entry 116), and so is the address
of the word, not the byte, in BADADDR and in the error record after a failed second read (DEDUCED, log entry 212). -/
theorem instructionTraps : Obligations.InstructionTraps := by
  unfold Obligations.InstructionTraps
  refine ⟨?loadStore, ?aadd, ?otherMisaligned, ?undefined, ?fetchFail, ?zeroField⟩
  case loadStore =>
    intro row k e s rd ra i hRow hFetch hAt a
    refine ⟨fun hMis => ?_, fun hAligned hOut => ?_, fun hAligned hStore hImem => ?_, fun hLoad hFail hLoadable => ?_⟩
    · rcases List.mem_append.mp hRow with hLoad | hStore
      · exact exec_loadRow_of_bad hFetch hAt hLoad (cLoad_misaligned hMis ..)
      · exact exec_storeRow_of_bad hFetch hAt hStore (cStore_misaligned hMis)
    · rcases List.mem_append.mp hRow with hLoad | hStore
      · exact exec_loadRow_of_bad hFetch hAt hLoad (cLoad_outside hAligned hOut ..)
      · exact exec_storeRow_of_bad hFetch hAt hStore (cStore_outside hAligned hOut)
    · exact exec_storeRow_of_bad hFetch hAt hStore (cStore_imem hAligned hImem)
    · subst hFail
      exact exec_loadRow_of_bad hFetch hAt hLoad (cLoad_dataFail hLoadable true)
  case aadd =>
    intro k e s rd ra rb hFetch hAt a
    rw [exec_aadd]
    exact ⟨fun hAligned hOut => congrArg _ (core1_atomic_outside hFetch (Nat.zero_le 1) hAt _ hAligned hOut),
      fun hMis => congrArg _ (core1_atomic_misaligned hFetch (Nat.zero_le 1) hAt _ hMis)⟩
  case otherMisaligned =>
    intro k e s rd ra rb hFetch a misaligned
    refine ⟨fun hAt hMis => ?aswp, fun row i hRow hNe hAt hMis => ?memp, fun width alg hNe hAt hMis => ?crcm⟩
    case aswp => exact (exec_aswp k e s).trans (congrArg _ (core1_atomic_misaligned hFetch (Nat.le_refl 1) hAt _ hMis))
    case memp => exact exec_memPRow_misaligned hFetch hRow hNe hAt hMis
    case crcm => exact exec_crcm_misaligned hFetch hNe hAt hMis
  case undefined =>
    intro ins k e s w hIns hFetch hAt hMaj
    exact exec_undefined hIns hFetch hAt (insRow_of_major_undefined hMaj)
  case fetchFail =>
    intro ins k s w hIns hAt
    exact exec_fetchFail hIns hAt
  case zeroField =>
    intro row k e s rd ra rb z hRow hFetch hBad hAt
    exact exec_aluRow_zeroBad hRow hFetch hBad hAt

end Sys2Proof.Proofs
end

section
/-!
PROOFS. The Rill engines (spec/11): one rule for each operation on an engine, and what an operation leaves of the other engines and of
the registers. The instructions (O49) and the control of the engines (O50) rest on them.
-/
namespace Sys2Proof.Proofs
open Sys2Proof Sys2Proof.Machine Sys2Proof.Safety Sys2Proof.Laws

/-! ### A state with one engine replaced -/

/-- The state with `x` for engine `e`. -/
def withRil (s : State) (e : Nat) (x : Ril) : State := s.rilUpd e fun _ => x

/-- Every update of an engine replaces it by what the update makes of it. -/
theorem rilUpd_eq_withRil (s : State) (e : Nat) (f : Ril → Ril) : s.rilUpd e f = withRil s e (f (s.rilOf e)) := by
  unfold withRil State.rilUpd
  rw [vupd_congr (f := f) (g := fun _ => f (s.rilOf e)) Ril.reset rfl]

@[simp] theorem rilOf_withRil_self (s : State) {e : Nat} (h : e < 48) (x : Ril) : (withRil s e x).rilOf e = x := by
  simp [withRil, rilOf_rilUpd _ _ _ _ h]

@[simp] theorem rilOf_withRil_ne (s : State) {e i : Nat} (h : i ≠ e) (x : Ril) : (withRil s e x).rilOf i = s.rilOf i := by
  simp [withRil, State.rilOf, State.rilUpd, vget_vupd, h]

theorem vupd_vupd {α : Type} {n : Nat} (v : Vector α n) (i : Nat) (f g : α → α) : vupd (vupd v i f) i g = vupd v i (g ∘ f) := by
  unfold vupd
  split <;> simp

@[simp] theorem withRil_withRil (s : State) (e : Nat) (x y : Ril) : withRil (withRil s e x) e y = withRil s e y := by
  simp only [withRil, State.rilUpd, vupd_vupd]
  rfl

@[simp] theorem withRil_rilOf (s : State) (e : Nat) : withRil s e (s.rilOf e) = s := by
  refine (rilUpd_eq_withRil s e id).symm.trans ?_
  unfold State.rilUpd vupd
  split <;> simp

@[simp] theorem rg_withRil (s : State) (e : Nat) (x : Ril) (q : RegId) (i j : Nat) : (withRil s e x).rg q i j = s.rg q i j := rfl
@[simp] theorem rf_withRil (s : State) (e : Nat) (x : Ril) (y : FRef) (i j : Nat) : (withRil s e x).rf y i j = s.rf y i j := rfl
@[simp] theorem rb_withRil (s : State) (e : Nat) (x : Ril) (y : FRef) (i j : Nat) : (withRil s e x).rb y i j = s.rb y i j := rfl
@[simp] theorem rillCmp_withRil (s : State) (e : Nat) (x : Ril) (i : Nat) (v : Word) : (withRil s e x).rillCmp i v = s.rillCmp i v := rfl
@[simp] theorem ranTo_withRil (s : State) (e : Nat) (x : Ril) (i : Fin 48) (n pc : Nat) (y : Ril) :
    ranTo (withRil s e x) i n pc y = ranTo s i n pc y := rfl

/-! ### The operations of an instruction (R385, R386) -/

/-- An engine that goes on has run through the ticks of its instruction and its STRETCH. -/
theorem rillGo_eq (s : State) (e : Fin 48) (w : Word) (n pc : Nat) :
    s.rillGo e w n pc = withRil s e (ranTo s e (n + rStretch w) pc (s.rilOf e)) := by
  simp [State.rillGo, State.rillTicks, rilUpd_eq_withRil, ranTo]

theorem rillNext_eq (s : State) (e : Fin 48) (w : Word) (n : Nat) :
    s.rillNext e w n = withRil s e (ranTo s e (n + rStretch w) ((s.rilOf e).pc + 1) (s.rilOf e)) := rillGo_eq ..

theorem rillHold_eq (s : State) (e : Nat) : s.rillHold e = withRil s e { s.rilOf e with waiting := true } := rilUpd_eq_withRil ..

theorem rillPhase_eq (s : State) (e : Nat) : s.rillPhase e = withRil s e { s.rilOf e with acc := 0 } := rilUpd_eq_withRil ..

/-- The control line takes its action at the first tick of the instruction. -/
theorem rillCl_eq {s : State} {e : Nat} {w : Word} {cl : Fin 16} (h : rCl w = cl.val % 4) :
    s.rillCl e w = withRil s e (clDone cl (s.rilOf e)) := by
  have hCl : cl.val % 4 < 4 := Nat.mod_lt _ (by decide)
  have hSame : s = withRil s e { s.rilOf e with slots := vupd (s.rilOf e).slots 3 fun x => { x with level := x.level } } := by
    have hId : (vupd (s.rilOf e).slots 3 fun x => x) = (s.rilOf e).slots := by simp [vupd]
    rw [hId]
    exact (withRil_rilOf s e).symm
  unfold State.rillCl clDone
  rw [h]
  generalize cl.val % 4 = c at hCl
  match c, hCl with
  | 0, _ => exact hSame
  | 1, _ => exact rilUpd_eq_withRil ..
  | 2, _ => exact rilUpd_eq_withRil ..
  | 3, _ => exact rilUpd_eq_withRil ..

/-- A RUNNING engine at a defined word, whose slots are set up for it, begins the instruction of its word. -/
theorem rill1_of_rillAt {s : State} {e : Fin 48} {w : Word} (hAt : rillAt s e w) (hDef : rillUndef w = false)
    (body : State → Word → State) : s.rill1 e (rOp w) body = body (s.rillCl e w) w := by
  obtain ⟨hEng, hPll, hSt, hWait, hWord, hAllowed⟩ := hAt
  simp [State.rill1, State.rillWord, hEng, hPll, hSt, hWait, hWord, hDef, hAllowed]

/-- R390: a word that is undefined, or uses a slot against its set-up, stops the engine whatever command names it. -/
theorem rill1_of_bad {s : State} {e : Fin 48} (hEng : e.val < s.variant.engines) (hPll : s.pll pllRill = true)
    (hSt : (s.rilOf e).st = 1) (hWait : (s.rilOf e).waiting = false)
    (hBad : (rillUndef (s.rillWord e) || s.rillForbid e (s.rillWord e)) = true) (op : Nat) (body : State → Word → State) :
    s.rill1 e op body = s.rillFault e := by
  simp [State.rill1, hEng, hPll, hSt, hWait, hBad]

/-! ### The fields of an instruction word (Table 11-1) -/

/-- A bit of a word is the field of that bit alone. -/
theorem getLsbD_eq_bits (w : Word) (i : Nat) : w.getLsbD i = (bits w i i == 1) := by
  rw [BitVec.getLsbD, Nat.testBit_eq_decide_div_mod_eq, bits, Nat.add_sub_cancel_left]
  rfl

/-- A one-bit field reads as the bit of its word. -/
theorem rb_eq_getLsbD (s : State) {x : FRef} (h : x.hi = x.lo) (i j : Nat) : s.rb x i j = (s.rg x.id i j).getLsbD x.lo := by
  rw [State.rb, State.rf, getLsbD_eq_bits, h]

section
variable {op cl st : Fin 16} {x : Nat}

theorem toNat_rillIns (hx : x < 2 ^ 22) :
    (rillIns op cl st x).toNat = (op.val * 64 + cl.val % 4 * 16 + st.val) * 2 ^ 22 + x := by
  have hCl : cl.val % 4 < 4 := Nat.mod_lt _ (by decide)
  rw [rillIns, BitVec.toNat_ofNat, Nat.mod_eq_of_lt (by omega)]
  omega

@[simp] theorem rOp_rillIns (hx : x < 2 ^ 22) : rOp (rillIns op cl st x) = op.val := by
  simp only [rOp, bits, toNat_rillIns hx]
  omega

@[simp] theorem rCl_rillIns (hx : x < 2 ^ 22) : rCl (rillIns op cl st x) = cl.val % 4 := by
  simp only [rCl, bits, toNat_rillIns hx]
  omega

@[simp] theorem rStretch_rillIns (hx : x < 2 ^ 22) : rStretch (rillIns op cl st x) = st.val := by
  simp only [rStretch, bits, toNat_rillIns hx]
  omega

end

/-! ### Words that an engine sets (Table 11-3) -/

/-- A value other than the default, written at another key, leaves what a key holds, in every list. -/
theorem sget_sput_ne_of_held {β : Type} [DecidableEq β] {d v : β} (hv : v ≠ d) (c : β) {j k : Nat} (hj : j ≠ k)
    (l : List (Nat × β)) : sget c j (sput d k v l) = sget c j l := by
  induction l with
  | nil =>
    simp only [sput, if_neg hv, sget, if_neg hj.symm, ite_self]
  | cons y t ih =>
    obtain ⟨a, w⟩ := y
    rw [sput]
    by_cases hlt : k < a
    · rw [if_pos hlt, if_neg hv, sget, if_neg hj.symm, ite_eq_right_iff]
      intro hjk
      rw [sget, if_pos (hjk.trans hlt)]
    · rw [if_neg hlt]
      by_cases ha : a = k
      · rw [if_pos ha, if_neg hv, ha, sget, sget, if_neg hj.symm, if_neg hj.symm]
      · rw [if_neg ha, sget, sget, ih]

theorem putBits_ne_zero {w : Word} {hi lo v : Nat} (hl : lo ≤ hi) (hh : hi < 32) (hv : v % 2 ^ (hi + 1 - lo) ≠ 0) :
    putBits w hi lo v ≠ 0#32 := by
  intro h
  have hRead : bits (putBits w hi lo v) hi lo = v % 2 ^ (hi + 1 - lo) := bits_putBits w hi lo v hl hh
  rw [h] at hRead
  simp [bits] at hRead
  omega

/-- A field that becomes other than 0, in a register that is 0 at reset, leaves every other word, in every list of registers. -/
theorem rg_wf_ne_of_set {s : State} {x : FRef} {v i j : Nat} (hReset : x.id.resetValue i = 0#32) (hl : x.lo ≤ x.hi) (hh : x.hi < 32)
    (hv : v % 2 ^ (x.hi + 1 - x.lo) ≠ 0) {q : RegId} {k l : Nat} (hn : q.addr k l ≠ x.id.addr i j) :
    (s.wf x v i j).rg q k l = s.rg q k l :=
  sget_sput_ne_of_held (hReset ▸ putBits_ne_zero hl hh hv) _ hn _

/-- A flag of RIL_STS that is set leaves every other word. -/
theorem rg_setFlag_ne {s : State} {x : FRef} {e : Nat} (hId : x.id = .RIL_STS) (hBit : x.hi = x.lo) (hh : x.hi < 32) {q : RegId} {k l : Nat}
    (hn : q.addr k l ≠ RegId.addr .RIL_STS e 0) : (s.wf x 1 e).rg q k l = s.rg q k l := by
  refine rg_wf_ne_of_set (by rw [hId]; rfl) hBit.ge hh ?_ (by rwa [hId])
  rw [hBit, Nat.add_sub_cancel_left]
  decide

/-- A flag that is set reads 1. -/
theorem rb_setFlag {s : State} {x : FRef} (hs : Rising s.regs) (hBit : x.hi = x.lo) (hh : x.hi < 32) (e : Nat) :
    (s.wf x 1 e).rb x e = true := by
  rw [State.rb, rf_wf_self _ _ _ _ _ hs hBit.ge hh, hBit, Nat.add_sub_cancel_left]
  rfl

/-- A count of RIL_CNT leaves every other word. -/
theorem rg_count_ne {s : State} {x : FRef} {e : Nat} (hId : x.id = .RIL_CNT) (hl : x.lo ≤ x.hi) (hh : x.hi < 32) {q : RegId} {k l : Nat}
    (hn : q.addr k l ≠ RegId.addr .RIL_CNT e 0) : (s.bump x 1 e).rg q k l = s.rg q k l := by
  have hPow : 2 ^ 1 ≤ 2 ^ (x.hi + 1 - x.lo) := Nat.pow_le_pow_right (by decide) (by omega)
  refine rg_wf_ne_of_set (by rw [hId]; rfl) hl hh ?_ (by rwa [hId])
  rw [Nat.mod_eq_of_lt (by omega)]
  omega

/-- A counter that is bumped is counted. -/
theorem counted_bump {s : State} (hs : Rising s.regs) {x : FRef} (hl : x.lo ≤ x.hi) (hh : x.hi < 32) (e : Nat) :
    counted s (s.bump x 1 e) x e := rf_bump_self s x 1 e 0 hs hl hh

theorem addr_RIL_STS (e : Nat) : RegId.addr .RIL_STS e 0 = 0x71014 + 0x40 * e := rfl
theorem addr_RIL_CNT (e : Nat) : RegId.addr .RIL_CNT e 0 = 0x71028 + 0x40 * e := rfl
theorem addr_RIL_ECFG (e : Nat) : RegId.addr .RIL_ECFG e 0 = 0x71000 + 0x40 * e := rfl
theorem addr_RIL_DIV (e : Nat) : RegId.addr .RIL_DIV e 0 = 0x71004 + 0x40 * e := rfl
theorem addr_RIL_PROG (e i : Nat) : RegId.addr .RIL_PROG e i = 0x74000 + 0x80 * e + 4 * i := rfl

/-! ### Updates of the slots (R398) -/

/-- The slots that `p` names, each updated by its `f`. -/
def slotsWhere (l : List Nat) (p : Nat → Bool) (f : Nat → Slot → Slot) (v : Vector Slot 4) : Vector Slot 4 :=
  l.foldl (fun v j => if p j then vupd v j (f j) else v) v

theorem vget_slotsWhere {n : Nat} (hn : n ≤ 4) (p : Nat → Bool) (f : Nat → Slot → Slot) (v : Vector Slot 4) (j : Nat) :
    vget Slot.reset (slotsWhere (List.range n) p f v) j =
      if j < n ∧ p j = true then f j (vget Slot.reset v j) else vget Slot.reset v j := by
  induction n with
  | zero => simp [slotsWhere]
  | succ n ih =>
    have hStep : slotsWhere (List.range (n + 1)) p f v =
        if p n then vupd (slotsWhere (List.range n) p f v) n (f n) else slotsWhere (List.range n) p f v := by
      simp [slotsWhere, List.range_succ]
    rw [hStep]
    by_cases hj : j = n
    · subst hj
      cases hp : p j <;> simp [vget_vupd, ih (by omega), hp]
      omega
    · have hIff : j < n + 1 ↔ j < n := by omega
      cases hp : p n <;> simp [vget_vupd, ih (by omega), hj, hIff]

/-- Updates of the slots one by one are one update of the engine, where they ask for set-up words only. -/
theorem foldl_slotUpd {p : State → Nat → Bool} {f : State → Nat → Slot → Slot} {e : Nat}
    (hp : ∀ t g, p (t.rilUpd e g) = p t) (hf : ∀ t g, f (t.rilUpd e g) = f t) (l : List Nat) (s : State) :
    l.foldl (fun t j => if p t j then t.rilUpd e fun r => r.slotUpd j (f t j) else t) s =
      s.rilUpd e fun r => { r with slots := slotsWhere l (p s) (f s) r.slots } := by
  induction l generalizing s with
  | nil =>
    rw [rilUpd_eq_withRil]
    exact (withRil_rilOf s e).symm
  | cons j l ih =>
    rw [List.foldl_cons, ih]
    cases hj : p s j with
    | false => simp [slotsWhere, hj]
    | true =>
      simp only [slotsWhere, List.foldl_cons, hj, if_true, hp, hf]
      simp only [State.rilUpd, vupd_vupd]
      rfl

/-- R398: a release turns the drivers of the output slots that `which` names off. -/
def released (s : State) (e : Nat) (which : Nat → Bool) (v : Vector Slot 4) : Vector Slot 4 :=
  slotsWhere (List.range 4) (fun j => s.slotOut e j && which j) (fun _ x => { x with released := true, drive := false }) v

theorem relSlots_eq (s : State) (e : Nat) (which : Nat → Bool) :
    s.relSlots e which = withRil s e { s.rilOf e with slots := released s e which (s.rilOf e).slots } :=
  (foldl_slotUpd (p := fun t j => t.slotOut e j && which j) (fun _ _ => rfl) (fun _ _ => rfl) (List.range 4) s).trans
    (rilUpd_eq_withRil ..)

theorem vget_released {s : State} {e : Nat} {which : Nat → Bool} {v : Vector Slot 4} (j : Fin 4) :
    vget Slot.reset (released s e which v) j =
      if s.slotOut e j = true ∧ which j = true then { vget Slot.reset v j with released := true, drive := false }
      else vget Slot.reset v j := by
  rw [released, vget_slotsWhere (Nat.le_refl 4)]
  simp [j.isLt]

/-- The slots with REL_STOP. -/
def relStop (s : State) (e j : Nat) : Bool := (s.slotCfg e j).getLsbD 27

theorem relStop_eq (s : State) (e j : Nat) : relStop s e j = s.rb Fx.RIL_SLOT_REL_STOP e j :=
  (rb_eq_getLsbD s (x := Fx.RIL_SLOT_REL_STOP) rfl e j).symm

/-- R398, R401: a stop keeps what the engine holds, but for the slots that it releases. -/
theorem rillStop_eq (s : State) {e : Nat} (he : e < 48) : s.rillStop e =
    withRil s e { s.rilOf e with st := 0, waiting := false, slots := released s e (relStop s e) (s.rilOf e).slots } := by
  rw [State.rillStop, rilUpd_eq_withRil, relSlots_eq, withRil_withRil, rilOf_withRil_self _ he]
  rfl

end Sys2Proof.Proofs
end

section
/-!
PROOFS. The instructions of a Rill engine (spec/11, Table 11-2): O49.
-/
namespace Sys2Proof.Proofs
open Sys2Proof Sys2Proof.Machine Sys2Proof.Safety Sys2Proof.Laws

/-! ### An engine after an instruction that changes SR (R391) -/

/-- The engine `x` with the compare stamp of `y`. -/
def restamp (x y : Ril) : Ril := { x with tsNs := y.tsNs, tsFrac := y.tsFrac, tsValid := y.tsValid }

/-- Engine `e` has become `x` but for the stamp of a compare event, and no word but its RIL_STS has changed. -/
structure EngineIs (s t : State) (e : Fin 48) (x : Ril) : Prop where
  rilIs : rilIs s t e x
  rg_eq : ∀ (q : RegId) (k l : Nat), q.addr k l ≠ RegId.addr .RIL_STS e 0 → t.rg q k l = s.rg q k l
  rising : Rising s.regs → Rising t.regs

theorem engineIs_withRil (s : State) (e : Fin 48) (x : Ril) : EngineIs s (withRil s e x) e x := by
  refine ⟨⟨rfl, ?_, fun i hi => rilOf_withRil_ne s (fun h => hi (Fin.ext h)) x⟩, fun _ _ _ _ => rfl, id⟩
  rw [rilOf_withRil_self s e.isLt]

section
variable {s t : State} {e : Fin 48} {x : Ril}

/-- An update that neither reads nor writes the stamp. -/
theorem EngineIs.rilUpd (h : EngineIs s t e x) {f : Ril → Ril} (hf : ∀ y z, f (restamp y z) = restamp (f y) z) :
    EngineIs s (t.rilUpd e f) e (f x) := by
  obtain ⟨⟨hOnly, hSelf, hOther⟩, hRg, hRising⟩ := h
  refine ⟨⟨congrArg (fun u => u.rilUpd e f) hOnly, ?_, fun i hi => ?_⟩, hRg, hRising⟩
  · have hNew : (t.rilUpd e f).rilOf e = restamp (f x) (t.rilOf e) := by
      rw [rilUpd_eq_withRil, rilOf_withRil_self _ e.isLt, ← hf]
      exact congrArg f hSelf
    rw [hNew]
    rfl
  · rw [rilUpd_eq_withRil, rilOf_withRil_ne _ fun h => hi (Fin.ext h), hOther i hi]

/-- A stamp is latched. -/
theorem EngineIs.stamp (h : EngineIs s t e x) (ns frac : Nat) (valid : Bool) :
    EngineIs s (t.rilUpd e fun r => { r with tsNs := ns, tsFrac := frac, tsValid := valid }) e x := by
  obtain ⟨⟨hOnly, hSelf, hOther⟩, hRg, hRising⟩ := h
  refine ⟨⟨congrArg (fun u => u.rilUpd e fun r => { r with tsNs := ns, tsFrac := frac, tsValid := valid }) hOnly, ?_, fun i hi => ?_⟩,
    hRg, hRising⟩
  · rw [rilUpd_eq_withRil, rilOf_withRil_self _ e.isLt, hSelf]
  · rw [rilUpd_eq_withRil, rilOf_withRil_ne _ fun h => hi (Fin.ext h), hOther i hi]

/-- A flag of RIL_STS is set. -/
theorem EngineIs.setFlag (h : EngineIs s t e x) {y : FRef} (hId : y.id = .RIL_STS) (hBit : y.hi = y.lo) (hh : y.hi < 32) :
    EngineIs s (t.wf y 1 e) e x := by
  obtain ⟨⟨hOnly, hSelf, hOther⟩, hRg, hRising⟩ := h
  refine ⟨⟨congrArg (fun u => { u with regs := (t.wf y 1 e).regs }) hOnly, hSelf, hOther⟩, fun q k l hn => ?_,
    fun hs => rising_wf _ _ _ _ _ (hRising hs)⟩
  rw [rg_setFlag_ne hId hBit hh hn, hRg q k l hn]

/-- SR takes a value, with the compare event that this may be. -/
theorem EngineIs.rillSr (h : EngineIs s t e x) (v : Word) (ts : Nat) : EngineIs s (t.rillSr e v ts) e { x with sr := v } := by
  have hSr : EngineIs s (t.rilUpd e fun r => { r with sr := v }) e { x with sr := v } := h.rilUpd fun _ _ => rfl
  unfold State.rillSr
  dsimp only
  split
  · exact (hSr.setFlag rfl rfl (by decide)).stamp ..
  · exact hSr

theorem EngineIs.frac_eq (h : EngineIs s t e x) : t.rf Fx.RIL_DIV_FRAC e = s.rf Fx.RIL_DIV_FRAC e := by
  unfold State.rf
  rw [h.rg_eq]
  show RegId.addr .RIL_DIV e 0 ≠ _
  rw [addr_RIL_DIV, addr_RIL_STS]
  omega

theorem EngineIs.ecfg_eq (h : EngineIs s t e x) {y : FRef} (hId : y.id = .RIL_ECFG) : t.rb y e = s.rb y e := by
  unfold State.rb State.rf
  rw [h.rg_eq]
  rw [hId, addr_RIL_ECFG, addr_RIL_STS]
  omega

/-- The divider runs. -/
theorem EngineIs.rillTicks (h : EngineIs s t e x) (n : Nat) :
    EngineIs s (t.rillTicks e n) e { x with acc := (x.acc + s.rf Fx.RIL_DIV_FRAC e * n) % 256 } := by
  rw [State.rillTicks, h.frac_eq]
  exact h.rilUpd fun _ _ => rfl

/-- The engine goes on at the next address. -/
theorem EngineIs.rillNext (h : EngineIs s t e x) (w : Word) (n : Nat) :
    EngineIs s (t.rillNext e w n) e (ranTo s e (n + rStretch w) (x.pc + 1) x) := by
  obtain ⟨-, hSelf, -⟩ := h.rilIs
  have hPc : (t.rilOf e).pc = x.pc := by rw [hSelf]
  rw [State.rillNext, hPc]
  exact (h.rillTicks _).rilUpd fun _ _ => rfl

end

/-! ### The operands of each instruction (Table 11-2) -/

theorem b2n_lt (b : Bool) : b2n b < 2 := by cases b <;> decide

/-- A bit that an operand spells. -/
theorem getLsbD_of_bits {w : Word} {i : Nat} {b : Bool} (h : bits w i i = b2n b) : w.getLsbD i = b := by
  rw [getLsbD_eq_bits, h]
  cases b <;> rfl

section
variable (cl st : Fin 16)

theorem fields_goto {test slot addr : Nat} (hTest : test < 7) (hSlot : slot < 4) (hAddr : addr < 32)
    (hUse : test = 2 ∨ test = 3 ∨ slot = 0) {x : Nat} (h : x = test * 2 ^ 19 + slot * 2 ^ 17 + addr) :
    let w := rillIns 0 cl st x
    x < 2 ^ 22 ∧ rillUndef w = false ∧ rSel w = test ∧ rSlot w = slot ∧ bits w 4 0 = addr := by
  intro w
  have hx : x < 2 ^ 22 := by omega
  refine ⟨hx, ?_⟩
  simp only [rillUndef, show rOp w = 0 from rOp_rillIns hx]
  simp [w, rSel, rSlot, bits, toNat_rillIns hx]
  omega

theorem fields_await {event slot : Nat} (hEvent : event < 6) (hSlot : slot < 4) (hUse : 4 ≤ event → slot = 0) {x : Nat}
    (h : x = event * 2 ^ 19 + slot * 2 ^ 17) :
    let w := rillIns 1 cl st x
    x < 2 ^ 22 ∧ rillUndef w = false ∧ rSel w = event ∧ rSlot w = slot := by
  intro w
  have hx : x < 2 ^ 22 := by omega
  refine ⟨hx, ?_⟩
  simp only [rillUndef, show rOp w = 1 from rOp_rillIns hx]
  simp [w, rSel, rSlot, bits, toNat_rillIns hx]
  omega

theorem fields_shift {dirs islot oslot n x : Nat} (hDirs : dirs < 4) (hNe : dirs ≠ 0) (hIn : islot < 4) (hOut : oslot < 4) (hn : n < 32)
    (hUse : (dirs = 2 → islot = 0) ∧ (dirs = 1 → oslot = 0)) (h : x = dirs * 2 ^ 20 + islot * 2 ^ 18 + oslot * 2 ^ 16 + n) :
    let w := rillIns 2 cl st x
    x < 2 ^ 22 ∧ rillUndef w = false ∧ rDirs w = dirs ∧ rIslot w = islot ∧ rOslot w = oslot ∧ bits w 4 0 = n := by
  intro w
  have hx : x < 2 ^ 22 := by omega
  refine ⟨hx, ?_⟩
  simp only [rillUndef, show rOp w = 2 from rOp_rillIns hx]
  simp [w, rDirs, rIslot, rOslot, bits, toNat_rillIns hx]
  omega

theorem fields_fetch (reuse : Bool) {x : Nat} (h : x = b2n reuse * 2 ^ 21) :
    let w := rillIns 3 cl st x
    x < 2 ^ 22 ∧ rillUndef w = false ∧ bits w 21 21 = b2n reuse := by
  intro w
  have hReuse : b2n reuse < 2 := b2n_lt reuse
  have hx : x < 2 ^ 22 := by omega
  refine ⟨hx, ?_⟩
  simp only [rillUndef, show rOp w = 3 from rOp_rillIns hx]
  simp [w, bits, toNat_rillIns hx]
  omega

theorem fields_post (stamp drop zero : Bool) {x : Nat} (h : x = b2n stamp * 2 ^ 21 + b2n drop * 2 ^ 20 + b2n zero * 2 ^ 19) :
    let w := rillIns 4 cl st x
    x < 2 ^ 22 ∧ rillUndef w = false ∧ bits w 21 21 = b2n stamp ∧ bits w 20 20 = b2n drop ∧ bits w 19 19 = b2n zero := by
  intro w
  have hStamp : b2n stamp < 2 := b2n_lt stamp
  have hDrop : b2n drop < 2 := b2n_lt drop
  have hZero : b2n zero < 2 := b2n_lt zero
  have hx : x < 2 ^ 22 := by omega
  refine ⟨hx, ?_⟩
  simp only [rillUndef, show rOp w = 4 from rOp_rillIns hx]
  simp [w, bits, toNat_rillIns hx]
  omega

theorem fields_loadSlot {dest slot x : Nat} {b : Bool} (hDest : dest < 2) (hSlot : slot < 4)
    (h : x = dest * 2 ^ 20 + slot * 2 ^ 17 + b2n b) :
    let w := rillIns 5 cl st x
    x < 2 ^ 22 ∧ rillUndef w = false ∧ rDirs w = dest ∧ rSlot w = slot ∧ bits w 0 0 = b2n b := by
  intro w
  have hb : b2n b < 2 := b2n_lt b
  have hx : x < 2 ^ 22 := by omega
  refine ⟨hx, ?_⟩
  simp only [rillUndef, show rOp w = 5 from rOp_rillIns hx]
  simp [w, rDirs, rSlot, bits, toNat_rillIns hx]
  omega

theorem fields_loadCtr (v : BitVec 16) {x : Nat} (h : x = 2 ^ 21 + v.toNat) :
    let w := rillIns 5 cl st x
    x < 2 ^ 22 ∧ rillUndef w = false ∧ rDirs w = 2 ∧ bits w 15 0 = v.toNat := by
  intro w
  have hv : v.toNat < 2 ^ 16 := v.isLt
  have hx : x < 2 ^ 22 := by omega
  refine ⟨hx, ?_⟩
  simp only [rillUndef, show rOp w = 5 from rOp_rillIns hx]
  simp [w, rDirs, rSlot, bits, toNat_rillIns hx]
  omega

theorem fields_copy {sel : Nat} (hSel : sel < 4) {x : Nat} (h : x = sel * 2 ^ 19) :
    let w := rillIns 6 cl st x
    x < 2 ^ 22 ∧ rillUndef w = false ∧ rSel w = sel := by
  intro w
  have hx : x < 2 ^ 22 := by omega
  refine ⟨hx, ?_⟩
  simp only [rillUndef, show rOp w = 6 from rOp_rillIns hx]
  simp [w, rSel, bits, toNat_rillIns hx]
  omega

theorem fields_verify {slot fail : Nat} (level : Bool) (hSlot : slot < 4) (hFail : fail < 32) {x : Nat}
    (h : x = slot * 2 ^ 17 + b2n level * 2 ^ 16 + fail) :
    let w := rillIns 7 cl st x
    x < 2 ^ 22 ∧ rillUndef w = false ∧ bits w 16 16 = b2n level ∧ bits w 4 0 = fail := by
  intro w
  have hLevel : b2n level < 2 := b2n_lt level
  have hx : x < 2 ^ 22 := by omega
  refine ⟨hx, ?_⟩
  simp only [rillUndef, show rOp w = 7 from rOp_rillIns hx]
  simp [w, bits, toNat_rillIns hx]
  omega

end

/-! ### An engine begins its instruction -/

/-- The instruction at PC begins: its control-line action is taken. -/
theorem rill1_begins {s : State} {e : Fin 48} {op cl st : Fin 16} {x n : Nat} (hx : x < 2 ^ 22) (hOp : op.val = n)
    (hAt : rillAt s e (rillIns op cl st x)) (hDef : rillUndef (rillIns op cl st x) = false) (body : State → Word → State) :
    s.rill1 e n body = body (withRil s e (clDone cl (s.rilOf e))) (rillIns op cl st x) := by
  rw [← rillCl_eq (rCl_rillIns hx), ← hOp, ← rOp_rillIns hx]
  exact rill1_of_rillAt hAt hDef body

@[simp] theorem clDone_sr (cl : Fin 16) (r : Ril) : (clDone cl r).sr = r.sr := rfl
@[simp] theorem clDone_ctr (cl : Fin 16) (r : Ril) : (clDone cl r).ctr = r.ctr := rfl
@[simp] theorem clDone_pc (cl : Fin 16) (r : Ril) : (clDone cl r).pc = r.pc := rfl
@[simp] theorem clDone_tx (cl : Fin 16) (r : Ril) : (clDone cl r).tx = r.tx := rfl
@[simp] theorem clDone_rx (cl : Fin 16) (r : Ril) : (clDone cl r).rx = r.rx := rfl

/-- Where an engine holds the same words toward it, the same word is eligible. -/
theorem rillHead_withRil {s : State} {e : Fin 48} {x : Ril} (h : x.tx = (s.rilOf e).tx) : (withRil s e x).rillHead e = s.rillHead e := by
  simp only [State.rillHead, rilOf_withRil_self _ e.isLt, h]
  rfl

section
variable {s : State} {e : Fin 48} {cl st : Fin 16} {lv before : BitVec 4}

/-! ### GOTO and AWAIT -/

/-- TEST of a GOTO. -/
def gotoTaken (s : State) (e : Fin 48) (lv : BitVec 4) (test : Fin 7) (slot : Fin 4) : Bool :=
  match test with
  | 0 => true
  | 1 => decide (2 ≤ (s.rilOf e).ctr)
  | 2 => lv.getLsbD slot
  | 3 => !lv.getLsbD slot
  | 4 => s.rillCmp e (s.rilOf e).sr
  | 5 => !s.rillCmp e (s.rilOf e).sr
  | 6 => (s.rillHead e).isSome

/-- A branch, taken or not. -/
theorem branch_withRil (s : State) (e : Fin 48) (x : Ril) (w : Word) (b : Bool) (addr : Nat) :
    (if b = true then (withRil s e x).rillGo e w 1 addr else (withRil s e x).rillNext e w 1) =
      withRil s e (ranTo s e (1 + rStretch w) (if b = true then addr else x.pc + 1) x) := by
  cases b <;> simp [rillGo_eq, rillNext_eq]

theorem exec_rillGoto {test : Fin 7} {slot : Fin 4} {addr : Fin 32} (hUse : test ≠ 2 ∧ test ≠ 3 → slot = 0)
    (hAt : rillAt s e (rillIns 0 cl st (test * 2 ^ 19 + slot * 2 ^ 17 + addr))) :
    exec (.rillGoto e lv) s = .next (withRil s e (ranTo s e (1 + st) (if gotoTaken s e lv test slot then addr else (s.rilOf e).pc + 1)
      { clDone cl (s.rilOf e) with ctr := if test = 1 then (s.rilOf e).ctr - 1 else (s.rilOf e).ctr })) := by
  obtain ⟨hx, hDef, hSel, hSlot, hAddr⟩ := fields_goto cl st test.isLt slot.isLt addr.isLt (by omega) rfl
  have hStretch := rStretch_rillIns (op := 0) (cl := cl) (st := st) hx
  change Host.Outcome.next (s.rill1 e 0 _) = _
  rw [rill1_begins (n := 0) hx rfl hAt hDef]
  generalize rillIns 0 cl st _ = w at hSel hSlot hAddr hStretch ⊢
  simp only [rilOf_withRil_self _ e.isLt, hSlot, hAddr, hStretch, branch_withRil, rilUpd_eq_withRil, withRil_withRil, clDone_ctr, clDone_pc,
    clDone_sr, rillCmp_withRil, rillHead_withRil (clDone_tx cl (s.rilOf e))]
  have hCases : test = 0 ∨ test = 1 ∨ test = 2 ∨ test = 3 ∨ test = 4 ∨ test = 5 ∨ test = 6 := by omega
  rcases hCases with rfl | rfl | rfl | rfl | rfl | rfl | rfl
  case inl =>
    simp only [hSel, if_true, rillGo_eq, rilOf_withRil_self _ e.isLt, withRil_withRil, ranTo_withRil, hStretch]
    rfl
  case inr.inl =>
    simp only [hSel, gotoTaken, decide_eq_true_eq, bne_iff_ne]
    by_cases hZero : (s.rilOf e).ctr = 0
    · rw [if_pos hZero, if_neg (show ¬ 2 ≤ (s.rilOf e).ctr by omega), show (s.rilOf e).ctr - 1 = (s.rilOf e).ctr by omega]
      rfl
    · rw [if_neg hZero, ite_congr (propext (show (s.rilOf e).ctr ≠ 1 ↔ 2 ≤ (s.rilOf e).ctr by omega)) (fun _ => rfl) fun _ => rfl]
      rfl
  all_goals
    simp only [hSel]
    rfl

/-- EVENT of an AWAIT at a tick: CYCLE holds at its release only. -/
def awaitHolds (s : State) (e : Fin 48) (lv before : BitVec 4) (event : Fin 6) (slot : Fin 4) : Bool :=
  match event with
  | 0 => !lv.getLsbD slot
  | 1 => lv.getLsbD slot
  | 2 => !lv.getLsbD slot && before.getLsbD slot
  | 3 => lv.getLsbD slot && !before.getLsbD slot
  | 4 => s.rillCmp e (s.rilOf e).sr
  | 5 => false

theorem rillEvent_eq {w : Word} {event : Fin 6} {slot : Fin 4} (hSel : rSel w = event) (hSlot : rSlot w = slot) :
    s.rillEvent e w lv before = awaitHolds s e lv before event slot := by
  unfold State.rillEvent awaitHolds
  rw [hSlot, hSel]
  have hCases : event = 0 ∨ event = 1 ∨ event = 2 ∨ event = 3 ∨ event = 4 ∨ event = 5 := by omega
  rcases hCases with rfl | rfl | rfl | rfl | rfl | rfl <;> rfl

theorem exec_rillAwait {event : Fin 6} {slot : Fin 4} (hUse : 4 ≤ event → slot = 0)
    (hAt : rillAt s e (rillIns 1 cl st (event * 2 ^ 19 + slot * 2 ^ 17))) :
    exec (.rillAwait e lv before) s = .next (withRil s e (if awaitHolds s e lv before event slot then
      ranTo s e (1 + st) ((s.rilOf e).pc + 1) (clDone cl (s.rilOf e)) else { clDone cl (s.rilOf e) with waiting := true })) := by
  obtain ⟨hx, hDef, hSel, hSlot⟩ := fields_await cl st event.isLt slot.isLt (by omega) rfl
  have hStretch := rStretch_rillIns (op := 1) (cl := cl) (st := st) hx
  have hEvent : ∀ w, rSel w = event → rSlot w = slot →
      (withRil s e (clDone cl (s.rilOf e))).rillEvent e w lv before = awaitHolds s e lv before event slot := by
    intro w hSel hSlot
    rw [rillEvent_eq hSel hSlot, awaitHolds.eq_def, rilOf_withRil_self _ e.isLt]
    rfl
  change Host.Outcome.next (s.rill1 e 1 _) = _
  rw [rill1_begins (n := 1) hx rfl hAt hDef]
  simp only [hEvent _ hSel hSlot, rillNext_eq, rillHold_eq, rilOf_withRil_self _ e.isLt, withRil_withRil, ranTo_withRil, hStretch,
    clDone_pc]
  split <;> rfl

/-! ### FETCH and POST -/

theorem engineIs_self (s : State) (e : Fin 48) : EngineIs s s e (s.rilOf e) := by
  have h : EngineIs s (withRil s e (s.rilOf e)) e (s.rilOf e) := engineIs_withRil ..
  rwa [withRil_rilOf] at h

/-- The engine takes a word (R387). -/
theorem EngineIs.rillTake {t : State} {x : Ril} (h : EngineIs s t e x) (w v : Word) :
    EngineIs s (t.rillTake e w v) e
      (ranTo s e (1 + rStretch w) (x.pc + 1) { x with sr := v, last := v, bc := 0, tx := x.tx.drop 1 }) :=
  ((h.rilUpd (f := fun r => { r with tx := r.tx.drop 1, last := v, bc := 0 }) fun _ _ => rfl).rillSr v _).rillNext w 1

/-- R391: a change of SR that makes the compare true sets CMP_EV and latches the stamp. -/
theorem rillSr_event {t : State} (hs : Rising t.regs) {v : Word} (hWas : t.rillCmp e (t.rilOf e).sr = false) (hIs : t.rillCmp e v = true)
    (ts : Nat) : (t.rillSr e v ts).rb Fx.RIL_STS_CMP_EV e = true ∧ ((t.rillSr e v ts).rilOf e).tsNs = ts / 65536 % 2 ^ 32 := by
  have hEvent : (!t.rillCmp e (t.rilOf e).sr && t.rillCmp e v) = true := by rw [hWas, hIs]; rfl
  simp only [State.rillSr, hEvent, if_true, rilUpd_eq_withRil, rilOf_withRil_self _ e.isLt, rb_withRil, and_true]
  exact rb_setFlag (x := Fx.RIL_STS_CMP_EV) hs rfl (by decide) e

theorem rillTake_event {t : State} (hs : Rising t.regs) {v : Word} (hWas : t.rillCmp e (t.rilOf e).sr = false) (hIs : t.rillCmp e v = true)
    (w : Word) : (t.rillTake e w v).rb Fx.RIL_STS_CMP_EV e = true ∧ ((t.rillTake e w v).rilOf e).tsNs = t.rillNow e / 65536 % 2 ^ 32 := by
  rw [State.rillTake, rilUpd_eq_withRil, rillNext_eq, rb_withRil, rilOf_withRil_self _ e.isLt]
  exact rillSr_event (t := withRil t e _) hs (by rwa [rilOf_withRil_self _ e.isLt]) hIs _

section
variable {reuse : Bool} (hAt : rillAt s e (rillIns 3 cl st (b2n reuse * 2 ^ 21)))
include hAt

theorem exec_rillFetch_some {v : Word} (hHead : s.rillHead e = some v) :
    ∃ t, exec (.rillFetch e) s = .next t ∧
      EngineIs s t e (ranTo s e (1 + st) ((s.rilOf e).pc + 1)
        { clDone cl (s.rilOf e) with sr := v, last := v, bc := 0, tx := (s.rilOf e).tx.drop 1 }) ∧
      (Rising s.regs → s.rillCmp e (s.rilOf e).sr = false → s.rillCmp e v = true →
        t.rb Fx.RIL_STS_CMP_EV e = true ∧ (t.rilOf e).tsNs = s.rillNow e / 65536 % 2 ^ 32) := by
  obtain ⟨hx, hDef, -⟩ := fields_fetch cl st reuse rfl
  have hStretch := rStretch_rillIns (op := 3) (cl := cl) (st := st) hx
  have hBegins := rill1_begins (n := 3) hx rfl hAt hDef
  generalize rillIns 3 cl st _ = w at hStretch hBegins
  have hExec : exec (.rillFetch e) s = .next ((withRil s e (clDone cl (s.rilOf e))).rillTake e w v) := by
    change Host.Outcome.next (s.rill1 e 3 _) = _
    rw [hBegins]
    simp only [rillHead_withRil (clDone_tx cl (s.rilOf e)), hHead]
  refine ⟨_, hExec, hStretch ▸ (engineIs_withRil s e _).rillTake w v, fun hs hWas hIs => ?_⟩
  exact rillTake_event (t := withRil s e _) hs (by rwa [rilOf_withRil_self _ e.isLt]) hIs w

theorem exec_rillFetch_reuse (hHead : s.rillHead e = none) (hReuse : reuse = true) :
    ∃ t, exec (.rillFetch e) s = .next t ∧
      EngineIs s t e (ranTo s e (1 + st) ((s.rilOf e).pc + 1) { clDone cl (s.rilOf e) with sr := (s.rilOf e).last }) ∧
      (Rising s.regs → t.rb Fx.RIL_STS_REUSED e = true) := by
  obtain ⟨hx, hDef, hBit⟩ := fields_fetch cl st reuse rfl
  have hStretch := rStretch_rillIns (op := 3) (cl := cl) (st := st) hx
  have hBegins := rill1_begins (n := 3) hx rfl hAt hDef
  generalize rillIns 3 cl st _ = w at hStretch hBegins hBit
  have hSr := (engineIs_withRil s e (clDone cl (s.rilOf e))).rillSr (s.rilOf e).last (s.rillNow e)
  have hExec : exec (.rillFetch e) s = .next ((((withRil s e (clDone cl (s.rilOf e))).rillSr e (s.rilOf e).last (s.rillNow e)).wf
      Fx.RIL_STS_REUSED 1 e).rillNext e w 1) := by
    change Host.Outcome.next (s.rill1 e 3 _) = _
    rw [hBegins]
    simp only [rillHead_withRil (clDone_tx cl (s.rilOf e)), hHead, getLsbD_of_bits hBit, hReuse, if_true, rilOf_withRil_self _ e.isLt]
    rfl
  refine ⟨_, hExec, hStretch ▸ (hSr.setFlag (y := Fx.RIL_STS_REUSED) rfl rfl (by decide)).rillNext w 1, fun hs => ?_⟩
  rw [rillNext_eq, rb_withRil]
  exact rb_setFlag (x := Fx.RIL_STS_REUSED) (hSr.rising hs) rfl (by decide) e

theorem exec_rillFetch_wait (hHead : s.rillHead e = none) (hReuse : reuse = false) :
    exec (.rillFetch e) s = .next (withRil s e { clDone cl (s.rilOf e) with waiting := true }) := by
  obtain ⟨hx, hDef, hBit⟩ := fields_fetch cl st reuse rfl
  have hBegins := rill1_begins (n := 3) hx rfl hAt hDef
  generalize rillIns 3 cl st _ = w at hBegins hBit
  change Host.Outcome.next (s.rill1 e 3 _) = _
  rw [hBegins]
  simp only [rillHead_withRil (clDone_tx cl (s.rilOf e)), hHead, getLsbD_of_bits hBit, hReuse, rillHold_eq, rilOf_withRil_self _ e.isLt,
    withRil_withRil]
  rfl

end

/-- The end of a POST. -/
theorem EngineIs.rillPosted {t : State} {x : Ril} (h : EngineIs s t e x) {w : Word} {stamp zero : Bool} (hStamp : w.getLsbD 21 = stamp)
    (hZero : w.getLsbD 19 = zero) : EngineIs s (t.rillPosted e w) e (ranTo s e (1 + rStretch w) (x.pc + 1)
      { x with bc := if stamp then x.bc else 0, sr := if zero then 0#32 else x.sr }) := by
  have hBc : EngineIs s (if stamp then t else t.rilUpd e fun r => { r with bc := 0 }) e { x with bc := if stamp then x.bc else 0 } := by
    cases stamp
    · exact h.rilUpd fun _ _ => rfl
    · exact h
  unfold State.rillPosted
  rw [hStamp, hZero]
  cases zero
  · exact hBc.rillNext w 1
  · exact (hBc.rillSr 0#32 _).rillNext w 1

theorem rillPut_eq (s : State) (e : Nat) (w : Word) : s.rillPut e w =
    withRil s e { s.rilOf e with rx := (s.rilOf e).rx ++ [if w.getLsbD 21 then BitVec.ofNat 32 (s.rilOf e).tsNs else (s.rilOf e).sr] } :=
  rilUpd_eq_withRil ..

/-- A count of an engine leaves the set-up of its divider. -/
theorem ranTo_count {x : FRef} (hId : x.id = .RIL_CNT) (hl : x.lo ≤ x.hi) (hh : x.hi < 32) : ranTo (s.bump x 1 e) e = ranTo s e := by
  have hFrac : (s.bump x 1 e).rf Fx.RIL_DIV_FRAC e = s.rf Fx.RIL_DIV_FRAC e := by
    unfold State.rf
    rw [rg_count_ne hId hl hh]
    show RegId.addr .RIL_DIV e 0 ≠ _
    rw [addr_RIL_DIV, addr_RIL_CNT]
    omega
  funext n pc r
  rw [ranTo, ranTo, hFrac]

section
variable {stamp drop zero : Bool}
  (hAt : rillAt s e (rillIns 4 cl st (b2n stamp * 2 ^ 21 + b2n drop * 2 ^ 20 + b2n zero * 2 ^ 19)))
include hAt

/-- The engine after a POST. -/
def posted (s : State) (e : Fin 48) (cl st : Fin 16) (stamp zero : Bool) (rx : List Word) : Ril :=
  ranTo s e (1 + st) ((s.rilOf e).pc + 1) { clDone cl (s.rilOf e) with
    rx := rx, bc := if stamp then (s.rilOf e).bc else 0, sr := if zero then 0#32 else (s.rilOf e).sr }

theorem exec_rillPost_room (hRoom : (s.rilOf e).rx.length < 4) :
    ∃ t, exec (.rillPost e) s = .next t ∧
      EngineIs s t e (posted s e cl st stamp zero
        ((s.rilOf e).rx ++ [if stamp then BitVec.ofNat 32 (s.rilOf e).tsNs else (s.rilOf e).sr])) := by
  obtain ⟨hx, hDef, hStamp, -, hZero⟩ := fields_post cl st stamp drop zero rfl
  have hStretch := rStretch_rillIns (op := 4) (cl := cl) (st := st) hx
  have hBegins := rill1_begins (n := 4) hx rfl hAt hDef
  generalize rillIns 4 cl st _ = w at hStretch hBegins hStamp hZero
  have hPut := engineIs_withRil s e { clDone cl (s.rilOf e) with
    rx := (s.rilOf e).rx ++ [if stamp then BitVec.ofNat 32 (s.rilOf e).tsNs else (s.rilOf e).sr] }
  have hPosted := hPut.rillPosted (getLsbD_of_bits hStamp) (getLsbD_of_bits hZero)
  rw [hStretch] at hPosted
  refine ⟨_, ?_, hPosted⟩
  change Host.Outcome.next (s.rill1 e 4 _) = _
  rw [hBegins]
  simp only [rilOf_withRil_self _ e.isLt, clDone_rx, hRoom, if_true, rillPut_eq, withRil_withRil, getLsbD_of_bits hStamp]
  rfl

theorem exec_rillPost_drop (hFull : 4 ≤ (s.rilOf e).rx.length) (hDrop : drop = true) :
    ∃ t, exec (.rillPost e) s = .next t ∧ rilIs s t e (posted s e cl st stamp zero (s.rilOf e).rx) ∧
      (Rising s.regs → counted s t Fx.RIL_CNT_RX_OVF e) := by
  obtain ⟨hx, hDef, hStamp, hBit, hZero⟩ := fields_post cl st stamp drop zero rfl
  have hStretch := rStretch_rillIns (op := 4) (cl := cl) (st := st) hx
  have hBegins := rill1_begins (n := 4) hx rfl hAt hDef
  generalize rillIns 4 cl st _ = w at hStretch hBegins hStamp hBit hZero
  have hPosted := (engineIs_withRil (s.bump Fx.RIL_CNT_RX_OVF 1 e) e (clDone cl (s.rilOf e))).rillPosted
    (getLsbD_of_bits hStamp) (getLsbD_of_bits hZero)
  rw [hStretch, ranTo_count rfl (by decide) (by decide)] at hPosted
  refine ⟨_, ?_, hPosted.rilIs, fun hs => ?_⟩
  · change Host.Outcome.next (s.rill1 e 4 _) = _
    rw [hBegins]
    simp only [rilOf_withRil_self _ e.isLt, clDone_rx, Nat.not_lt.mpr hFull, if_false, getLsbD_of_bits hBit, hDrop, if_true]
    rfl
  · unfold counted State.rf
    rw [hPosted.rg_eq]
    · exact counted_bump hs (x := Fx.RIL_CNT_RX_OVF) (by decide) (by decide) e
    · show RegId.addr .RIL_CNT e 0 ≠ _
      rw [addr_RIL_CNT, addr_RIL_STS]
      omega

theorem exec_rillPost_wait (hFull : 4 ≤ (s.rilOf e).rx.length) (hDrop : drop = false) :
    exec (.rillPost e) s = .next (withRil s e { clDone cl (s.rilOf e) with waiting := true }) := by
  obtain ⟨hx, hDef, -, hBit, -⟩ := fields_post cl st stamp drop zero rfl
  have hBegins := rill1_begins (n := 4) hx rfl hAt hDef
  generalize rillIns 4 cl st _ = w at hBegins hBit
  change Host.Outcome.next (s.rill1 e 4 _) = _
  rw [hBegins]
  simp only [rilOf_withRil_self _ e.isLt, clDone_rx, Nat.not_lt.mpr hFull, if_false, getLsbD_of_bits hBit, hDrop, rillHold_eq,
    withRil_withRil]
  rfl

end

/-! ### LOAD and COPY -/

theorem exec_rillLoad_slot {dest : Nat} {slot : Fin 4} {b : Bool} {x : Nat} (hDest : dest < 2)
    (h : x = dest * 2 ^ 20 + slot * 2 ^ 17 + b2n b) (hAt : rillAt s e (rillIns 5 cl st x)) :
    exec (.rillLoad e) s = .next (withRil s e (ranTo s e (1 + st) ((s.rilOf e).pc + 1) { clDone cl (s.rilOf e) with
      slots := vupd (clDone cl (s.rilOf e)).slots slot fun y =>
        if dest = 0 then { y with level := b } else { y with drive := b, released := !b } })) := by
  obtain ⟨hx, hDef, hDirs, hSlot, hVal⟩ := fields_loadSlot cl st hDest slot.isLt h
  have hStretch := rStretch_rillIns (op := 5) (cl := cl) (st := st) hx
  change Host.Outcome.next (s.rill1 e 5 _) = _
  rw [rill1_begins (n := 5) hx rfl hAt hDef]
  obtain rfl | rfl : dest = 0 ∨ dest = 1 := by omega
  all_goals
    simp only [hDirs, hSlot, getLsbD_of_bits hVal, rillNext_eq, rilUpd_eq_withRil, rilOf_withRil_self _ e.isLt, withRil_withRil,
      ranTo_withRil, hStretch]
    rfl

theorem exec_rillLoad_ctr {v : BitVec 16} (hAt : rillAt s e (rillIns 5 cl st (2 ^ 21 + v.toNat))) :
    exec (.rillLoad e) s = .next (withRil s e (ranTo s e (1 + st) ((s.rilOf e).pc + 1)
      { clDone cl (s.rilOf e) with ctr := v.toNat })) := by
  obtain ⟨hx, hDef, hDirs, hVal⟩ := fields_loadCtr cl st v rfl
  have hStretch := rStretch_rillIns (op := 5) (cl := cl) (st := st) hx
  change Host.Outcome.next (s.rill1 e 5 _) = _
  rw [rill1_begins (n := 5) hx rfl hAt hDef]
  simp only [hDirs, hVal, rillNext_eq, rilUpd_eq_withRil, rilOf_withRil_self _ e.isLt, withRil_withRil, ranTo_withRil, hStretch]
  rfl

/-- What a COPY makes of the engine. -/
def copied (sel : Fin 4) (lv : BitVec 4) (x : Ril) : Ril :=
  match sel with
  | 0 => { x with ctr := x.sr.toNat % 65536 }
  | 1 => { x with sr := BitVec.ofNat 32 x.ctr }
  | 2 => { x with sr := lv.setWidth 32 }
  | 3 => { x with ctr := x.bc }

theorem exec_rillCopy {sel : Fin 4} (hAt : rillAt s e (rillIns 6 cl st (sel * 2 ^ 19))) :
    ∃ t, exec (.rillCopy e lv) s = .next t ∧
      EngineIs s t e (ranTo s e (1 + st) ((s.rilOf e).pc + 1) (copied sel lv (clDone cl (s.rilOf e)))) := by
  obtain ⟨hx, hDef, hSel⟩ := fields_copy cl st sel.isLt rfl
  have hStretch := rStretch_rillIns (op := 6) (cl := cl) (st := st) hx
  have hBegins := rill1_begins (n := 6) hx rfl hAt hDef
  generalize rillIns 6 cl st _ = w at hStretch hBegins hSel
  have hc := engineIs_withRil s e (clDone cl (s.rilOf e))
  have hExec : exec (.rillCopy e lv) s = .next _ := congrArg Host.Outcome.next (hBegins _)
  rw [rilOf_withRil_self _ e.isLt, hSel] at hExec
  refine ⟨_, hExec, ?_⟩
  rw [← hStretch]
  have hCases : sel = 0 ∨ sel = 1 ∨ sel = 2 ∨ sel = 3 := by omega
  rcases hCases with rfl | rfl | rfl | rfl
  · have hLow : copied 0 lv (clDone cl (s.rilOf e)) = { clDone cl (s.rilOf e) with ctr := bits (s.rilOf e).sr 15 0 } := by
      simp [copied, bits]
    rw [hLow]
    exact (hc.rilUpd (f := fun r => { r with ctr := bits r.sr 15 0 }) fun _ _ => rfl).rillNext w 1
  · exact (hc.rillSr (BitVec.ofNat 32 (s.rilOf e).ctr) _).rillNext w 1
  · have hWide : copied 2 lv (clDone cl (s.rilOf e)) = { clDone cl (s.rilOf e) with sr := BitVec.ofNat 32 lv.toNat } := by
      simp [copied, BitVec.setWidth, BitVec.setWidth']
    rw [hWide]
    exact (hc.rillSr (BitVec.ofNat 32 lv.toNat) _).rillNext w 1
  · exact (hc.rilUpd (f := fun r => { r with ctr := r.bc }) fun _ _ => rfl).rillNext w 1

/-! ### VERIFY and HALT -/

@[simp] theorem tlog_regs (s : State) (code cls obj data : Nat) : (s.tlog code cls obj data).regs = s.regs := by
  obtain ⟨_, -, h⟩ | h := tlog_only s code cls obj data <;> rw [h]

@[simp] theorem tlog_rilOf (s : State) (code cls obj data i : Nat) : (s.tlog code cls obj data).rilOf i = s.rilOf i := by
  obtain ⟨_, -, h⟩ | h := tlog_only s code cls obj data <;> rw [h] <;> rfl

theorem rg_tlog (s : State) (code cls obj data : Nat) (q : RegId) (i j : Nat) : (s.tlog code cls obj data).rg q i j = s.rg q i j :=
  rg_congr _ _ _ _ _ (tlog_regs ..)

theorem ranTo_tlog (s : State) (code cls obj data : Nat) : ranTo (s.tlog code cls obj data) e = ranTo s e := by
  funext n pc r
  unfold ranTo State.rf
  rw [rg_tlog]

section
variable {slot : Fin 4} {level lvl lvl2 : Bool} {fail : Fin 32}
  (hAt : rillAt s e (rillIns 7 cl st (slot * 2 ^ 17 + b2n level * 2 ^ 16 + fail)))
include hAt

theorem exec_rillVerify_match (hLvl : lvl = level) : exec (.rillVerify e lvl lvl2) s =
    .next (withRil s e (ranTo s e (1 + st) ((s.rilOf e).pc + 1) (clDone cl (s.rilOf e)))) := by
  obtain ⟨hx, hDef, hLevel, -⟩ := fields_verify cl st level slot.isLt fail.isLt rfl
  have hStretch := rStretch_rillIns (op := 7) (cl := cl) (st := st) hx
  have hBegins := rill1_begins (n := 7) hx rfl hAt hDef
  generalize rillIns 7 cl st _ = w at hStretch hBegins hLevel
  change Host.Outcome.next (s.rill1 e 7 _) = _
  rw [hBegins]
  simp only [getLsbD_of_bits hLevel, hLvl, beq_self_eq_true, if_true, rillNext_eq, rilOf_withRil_self _ e.isLt, withRil_withRil,
    ranTo_withRil, hStretch, clDone_pc]

/-- R389: the second sample decides. -/
theorem exec_rillVerify_resample (hLvl : lvl ≠ level) (hResample : s.rf Fx.RIL_ECFG_RESAMPLE e ≠ 0) (hLvl2 : lvl2 = level)
    (hs : regsRising s) : ∃ t, exec (.rillVerify e lvl lvl2) s = .next t ∧
      t.rilOf e = ranTo s e (1 + st) ((s.rilOf e).pc + 1) (clDone cl (s.rilOf e)) ∧ counted s t Fx.RIL_CNT_RESAMPLE_OK e := by
  obtain ⟨hx, hDef, hLevel, -⟩ := fields_verify cl st level slot.isLt fail.isLt rfl
  have hStretch := rStretch_rillIns (op := 7) (cl := cl) (st := st) hx
  have hBegins := rill1_begins (n := 7) hx rfl hAt hDef
  generalize rillIns 7 cl st _ = w at hStretch hBegins hLevel
  have hExec : exec (.rillVerify e lvl lvl2) s = .next
      ((((withRil s e (clDone cl (s.rilOf e))).bump Fx.RIL_CNT_RESAMPLE_OK 1 e).tlog 0x60 1 e 0).rillNext e w 1) := by
    change Host.Outcome.next (s.rill1 e 7 _) = _
    rw [hBegins]
    simp only [getLsbD_of_bits hLevel, hLvl2, rf_withRil]
    simp [hLvl, hResample]
  have hCount : (withRil s e (clDone cl (s.rilOf e))).bump Fx.RIL_CNT_RESAMPLE_OK 1 e =
      withRil (s.bump Fx.RIL_CNT_RESAMPLE_OK 1 e) e (clDone cl (s.rilOf e)) := rfl
  refine ⟨_, hExec, ?_, ?_⟩
  · rw [rillNext_eq, rilOf_withRil_self _ e.isLt, ranTo_tlog, tlog_rilOf, hStretch, hCount, rilOf_withRil_self _ e.isLt, ranTo_withRil,
      ranTo_count rfl (by decide) (by decide), clDone_pc]
  · rw [rillNext_eq]
    unfold counted State.rf
    rw [rg_withRil, rg_tlog]
    exact counted_bump hs (x := Fx.RIL_CNT_RESAMPLE_OK) (by decide) (by decide) e

/-- R389: neither sample matches. -/
theorem exec_rillVerify_fail (hLvl : lvl ≠ level) (hNo : s.rf Fx.RIL_ECFG_RESAMPLE e = 0 ∨ lvl2 ≠ level) (hs : regsRising s) :
    ∃ t, exec (.rillVerify e lvl lvl2) s = .next t ∧
      t.rilOf e = ranTo s e (1 + st) fail (clDone cl (s.rilOf e)) ∧ counted s t Fx.RIL_CNT_FRAME_ERR e := by
  obtain ⟨hx, hDef, hLevel, hFail⟩ := fields_verify cl st level slot.isLt fail.isLt rfl
  have hStretch := rStretch_rillIns (op := 7) (cl := cl) (st := st) hx
  have hBegins := rill1_begins (n := 7) hx rfl hAt hDef
  generalize rillIns 7 cl st _ = w at hStretch hBegins hLevel hFail
  have hExec : exec (.rillVerify e lvl lvl2) s = .next
      (withRil (s.bump Fx.RIL_CNT_FRAME_ERR 1 e) e (ranTo (s.bump Fx.RIL_CNT_FRAME_ERR 1 e) e (1 + st) fail (clDone cl (s.rilOf e)))) := by
    have hNot : ¬ (s.rf Fx.RIL_ECFG_RESAMPLE e ≠ 0 ∧ lvl2 = level) := fun h => hNo.elim h.1 fun h2 => h2 h.2
    have hCount : (withRil s e (clDone cl (s.rilOf e))).bump Fx.RIL_CNT_FRAME_ERR 1 e =
        withRil (s.bump Fx.RIL_CNT_FRAME_ERR 1 e) e (clDone cl (s.rilOf e)) := rfl
    change Host.Outcome.next (s.rill1 e 7 _) = _
    rw [hBegins]
    simp only [getLsbD_of_bits hLevel, rf_withRil, hCount, rillGo_eq, rilOf_withRil_self _ e.isLt, withRil_withRil,
      ranTo_withRil, hStretch, hFail]
    simp only [beq_iff_eq, hLvl, if_false, Bool.and_eq_true, bne_iff_ne, hNot]
  refine ⟨_, hExec, ?_, counted_bump hs (x := Fx.RIL_CNT_FRAME_ERR) (by decide) (by decide) e⟩
  rw [rilOf_withRil_self _ e.isLt, ranTo_count rfl (by decide) (by decide)]

end

/-- HALT: the engine stops where it stands, and says so. -/
theorem exec_rillHalt (hAt : rillAt s e 0xF0000000#32) (hs : regsRising s) :
    ∃ t, exec (.rillHalt e) s = .next t ∧ (t.rilOf e).st = 0 ∧ t.rb Fx.RIL_STS_DONE e = true ∧ (t.rilOf e).sr = (s.rilOf e).sr ∧
      (t.rilOf e).pc = (s.rilOf e).pc ∧ (t.rilOf e).tx = (s.rilOf e).tx ∧ (t.rilOf e).rx = (s.rilOf e).rx := by
  have hBegins := rill1_of_rillAt hAt (by decide)
  have hExec : exec (.rillHalt e) s = .next (((s.rillStop e).wf Fx.RIL_STS_DONE 1 e)) := by
    change Host.Outcome.next (s.rill1 e (rOp 0xF0000000#32) _) = _
    rw [hBegins]
    rfl
  have hKept : ((s.rillStop e).wf Fx.RIL_STS_DONE 1 e).rilOf e = (s.rillStop e).rilOf e := rfl
  have hRegs : Rising (s.rillStop e).regs := by rwa [rillStop_eq s e.isLt]
  refine ⟨_, hExec, ?_, rb_setFlag (x := Fx.RIL_STS_DONE) hRegs rfl (by decide) e, ?_⟩
  all_goals
    rw [hKept, rillStop_eq s e.isLt, rilOf_withRil_self _ e.isLt]
  exact ⟨rfl, rfl, rfl, rfl⟩

/-! ### What ends a wait -/

section
variable {w : Word} (hSt : (s.rilOf e).st = 1) (hWaiting : (s.rilOf e).waiting = true) (hw : s.rillWord e = w)
include hSt hWaiting hw

theorem exec_rillWaitEnd_await {slot : Fin 4} (h : w = rillIns 1 cl st (2 ^ 19 + slot * 2 ^ 17)) :
    exec (.rillWaitEnd e lv before) s =
      if lv.getLsbD slot then .next (withRil s e (ranTo s e (1 + st) ((s.rilOf e).pc + 1) (s.rilOf e))) else .next s := by
  obtain ⟨hx, -, hSel, hSlot⟩ := fields_await cl st (event := 1) (by decide) slot.isLt (by omega)
    (x := 2 ^ 19 + slot * 2 ^ 17) (by omega)
  have hOp := rOp_rillIns (op := 1) (cl := cl) (st := st) hx
  have hStretch := rStretch_rillIns (op := 1) (cl := cl) (st := st) hx
  rw [← h] at hSel hSlot hOp hStretch
  have hEvent : s.rillEvent e w lv before = lv.getLsbD slot := rillEvent_eq (event := 1) hSel hSlot
  change execRillWaitEnd e lv before s = _
  simp only [execRillWaitEnd, hSt, hWaiting, hw, hOp, hEvent, rillNext_eq, hStretch]
  rfl

theorem exec_rillWaitEnd_fetch (h : w = rillIns 3 cl st 0) {v : Word} (hHead : s.rillHead e = some v) :
    ∃ t, exec (.rillWaitEnd e lv before) s = .next t ∧ EngineIs s t e (ranTo s e (1 + st) ((s.rilOf e).pc + 1)
      { s.rilOf e with sr := v, last := v, bc := 0, tx := (s.rilOf e).tx.drop 1 }) := by
  have hOp := rOp_rillIns (op := 3) (cl := cl) (st := st) (x := 0) (by decide)
  have hStretch := rStretch_rillIns (op := 3) (cl := cl) (st := st) (x := 0) (by decide)
  rw [← h] at hOp hStretch
  refine ⟨s.rillTake e w v, ?_, hStretch ▸ (engineIs_self s e).rillTake w v⟩
  change execRillWaitEnd e lv before s = _
  simp only [execRillWaitEnd, hSt, hWaiting, hw, hOp, hHead]
  rfl

theorem exec_rillWaitEnd_post (h : w = rillIns 4 cl st 0) (hRoom : (s.rilOf e).rx.length < 4) :
    exec (.rillWaitEnd e lv before) s = .next (withRil s e (ranTo s e (1 + st) ((s.rilOf e).pc + 1)
      { s.rilOf e with rx := (s.rilOf e).rx ++ [(s.rilOf e).sr], bc := 0 })) := by
  obtain ⟨hx, -, hStamp, -, hZero⟩ := fields_post cl st false false false (x := 0) rfl
  have hOp := rOp_rillIns (op := 4) (cl := cl) (st := st) hx
  have hStretch := rStretch_rillIns (op := 4) (cl := cl) (st := st) hx
  rw [← h] at hStamp hZero hOp hStretch
  have hPosted : (s.rillPut e w).rillPosted e w = withRil s e (ranTo s e (1 + st) ((s.rilOf e).pc + 1)
      { s.rilOf e with rx := (s.rilOf e).rx ++ [(s.rilOf e).sr], bc := 0 }) := by
    simp only [State.rillPosted, getLsbD_of_bits hStamp, getLsbD_of_bits hZero, rillPut_eq, rilUpd_eq_withRil, rillNext_eq,
      Bool.false_eq_true, if_false, rilOf_withRil_self _ e.isLt, withRil_withRil, ranTo_withRil, hStretch]
  rw [← hPosted]
  change execRillWaitEnd e lv before s = _
  simp only [execRillWaitEnd, hSt, hWaiting, hw, hOp, hRoom]
  rfl

end

/-! ### Faults (R390) -/

/-- The commands of an instruction, at whatever word. -/
theorem rill1_of_instr (lv before : BitVec 4) {i : Instr}
    (hi : i ∈ [Instr.rillGoto e lv, .rillAwait e lv before, .rillFetch e, .rillPost e, .rillLoad e, .rillCopy e lv, .rillHalt e])
    (s : State) : ∃ op body, exec i s = .next (s.rill1 e op body) := by
  simp only [List.mem_cons, List.not_mem_nil, or_false] at hi
  rcases hi with rfl | rfl | rfl | rfl | rfl | rfl | rfl <;> exact ⟨_, _, rfl⟩

theorem bad_of_fault {w : Word} (h : rOp w = 8 ∨ (rOp w = 15 ∧ w ≠ 0xF0000000#32) ∨ (rOp w = 3 ∧ w.getLsbD 0 = true) ∨
    (rOp w ≠ 15 ∧ rCl w ≠ 0 ∧ s.slotOut e 3 = false)) : (rillUndef w || s.rillForbid e w) = true := by
  rw [Bool.or_eq_true]
  rcases h with hOp | ⟨hOp, hNe⟩ | ⟨hOp, hBit⟩ | ⟨-, hCl, hSlot⟩
  · simp [rillUndef, hOp]
  · left
    have hBits : bits w 27 0 ≠ 0 := by
      intro hZero
      refine hNe (BitVec.eq_of_toNat_eq ?_)
      unfold bits at hZero
      unfold rOp bits at hOp
      have hWord : w.toNat < 2 ^ 32 := w.isLt
      simp at hZero hOp ⊢
      omega
    simp [rillUndef, hOp, hBits]
  · left
    have hBits : bits w 20 0 ≠ 0 := by
      rw [getLsbD_eq_bits, beq_iff_eq] at hBit
      unfold bits at hBit ⊢
      simp at hBit ⊢
      omega
    simp [rillUndef, hOp, hBits]
  · right
    simp [State.rillForbid, hCl, hSlot]

/-- R390: the engine stops, at the faulting address. -/
theorem rillFault_stops (hs : regsRising s) : ((s.rillFault e).rilOf e).st = 0 ∧ ((s.rillFault e).rilOf e).pc = (s.rilOf e).pc ∧
    ((s.rillFault e).rilOf e).sr = (s.rilOf e).sr ∧ (s.rillFault e).rb Fx.RIL_STS_FAULT e = true := by
  have hRegs : Rising (s.rillStop e).regs := by rwa [rillStop_eq s e.isLt]
  have hEng : (s.rillFault e).rilOf e = (s.rillStop e).rilOf e := tlog_rilOf ..
  have hFlag : (s.rillFault e).rb Fx.RIL_STS_FAULT e = true := by
    unfold State.rillFault State.rb State.rf
    rw [rg_tlog]
    exact rb_setFlag (x := Fx.RIL_STS_FAULT) hRegs rfl (by decide) e
  rw [hEng, rillStop_eq s e.isLt, rilOf_withRil_self _ e.isLt]
  exact ⟨rfl, rfl, rfl, hFlag⟩

end

/-! ### SHIFT (R388) -/

/-- One bit of a SHIFT: SR moves by one place, and the bit that leaves it is driven. -/
def bitShifted (inp out right : Bool) (oslot : Nat) (x : Ril) (b : Bool) : Ril :=
  { x with
    sr := shiftIn right x.sr [inp && b]
    bc := min 32 (x.bc + 1)
    slots := if out then vupd x.slots oslot fun y => { y with level := x.sr.getLsbD (if right then 0 else 31) } else x.slots }

/-- The SHIFT `w` samples (`inp`), drives `oslot` (`out`), and moves SR right or left. -/
structure ShiftIs (s : State) (e : Fin 48) (w : Word) (inp out right : Bool) (oslot : Nat) : Prop where
  inp_eq : decide (rDirs w % 2 = 1) = inp
  out_eq : decide (2 ≤ rDirs w) = out
  right_eq : (if out then s.rb Fx.RIL_ECFG_OUT_SHR e else s.rb Fx.RIL_ECFG_IN_SHR e) = right
  oslot_eq : rOslot w = oslot

section
variable {s t : State} {e : Fin 48} {x : Ril} {w : Word} {inp out right : Bool} {oslot : Nat}

theorem EngineIs.shiftBit (h : EngineIs s t e x) (hw : ShiftIs s e w inp out right oslot) (b : Bool) (ts : Nat) :
    EngineIs s (t.shiftBit e w b ts) e (bitShifted inp out right oslot x b) := by
  obtain ⟨hInp, hOut, hRight, hOslot⟩ := hw
  obtain ⟨-, hSelf, -⟩ := h.rilIs
  have hSr : (t.rilOf e).sr = x.sr := by rw [hSelf]
  have hDir : (if 2 ≤ rDirs w then t.rb Fx.RIL_ECFG_OUT_SHR e else t.rb Fx.RIL_ECFG_IN_SHR e) = right := by
    rw [h.ecfg_eq rfl, h.ecfg_eq rfl, ← hRight, ← hOut]
    simp only [decide_eq_true_eq]
  have hMoved : (if rDirs w % 2 = 1 ∧ b = true then
      (if right then x.sr >>> 1 else x.sr <<< 1) ||| (if right then 0x80000000#32 else 1#32)
    else if right then x.sr >>> 1 else x.sr <<< 1) = shiftIn right x.sr [inp && b] := by
    rw [← hInp]
    by_cases hOdd : rDirs w % 2 = 1 <;> cases b <;> cases right <;> simp [shiftIn, hOdd]
  have hLevel : (if right then x.sr.getLsbD 0 else x.sr.getLsbD 31) = x.sr.getLsbD (if right then 0 else 31) := by cases right <;> rfl
  have hDriven : EngineIs s (if 2 ≤ rDirs w then
      t.rilUpd e fun r => r.slotUpd oslot fun y => { y with level := x.sr.getLsbD (if right then 0 else 31) } else t) e
        { x with slots := (bitShifted inp out right oslot x b).slots } := by
    rw [← hOut]
    unfold bitShifted
    by_cases hDrives : 2 ≤ rDirs w
    · simp only [hDrives, if_true, decide_true]
      exact h.rilUpd fun _ _ => rfl
    · simp only [hDrives, if_false, decide_false]
      exact h
  unfold State.shiftBit
  simp only [hDir, hSr, hOslot, hMoved, hLevel]
  exact (hDriven.rillSr _ _).rilUpd (f := fun r => { r with bc := min 32 (r.bc + 1) }) fun _ _ => rfl

theorem EngineIs.shiftBits (hw : ShiftIs s e w inp out right oslot) (samples : List (Bool × Nat)) :
    ∀ {t x}, EngineIs s t e x → EngineIs s (samples.foldl (fun u p => u.shiftBit e w p.1 p.2) t) e
      ((samples.map Prod.fst).foldl (bitShifted inp out right oslot) x) := by
  induction samples with
  | nil => exact id
  | cons p l ih => exact fun h => ih (h.shiftBit hw p.1 p.2)

end

/-- A place of SR before it has moved right by one. -/
theorem getLsbD_shiftIn_right (v : Word) (b : Bool) {i : Nat} (h : i < 31) : (shiftIn true v [b]).getLsbD i = v.getLsbD (i + 1) := by
  have hTop : (0x80000000#32).getLsbD i = false := by
    rw [show 0x80000000#32 = BitVec.twoPow 32 31 from rfl, BitVec.getLsbD_twoPow]
    simp [show 31 ≠ i by omega]
  have hIn : (if b then 0x80000000#32 else 0#32).getLsbD i = false := by cases b; exacts [BitVec.getLsbD_zero, hTop]
  change (v >>> 1 ||| if b then 0x80000000#32 else 0#32).getLsbD i = _
  rw [BitVec.getLsbD_or, hIn, Bool.or_false, BitVec.getLsbD_ushiftRight, Nat.add_comm]

/-- A place of SR before it has moved left by one. -/
theorem getLsbD_shiftIn_left (v : Word) (b : Bool) {i : Nat} (h : i < 31) : (shiftIn false v [b]).getLsbD (i + 1) = v.getLsbD i := by
  have hIn : (if b then 1#32 else 0#32).getLsbD (i + 1) = false := by cases b <;> simp
  change (v <<< 1 ||| if b then 1#32 else 0#32).getLsbD (i + 1) = _
  rw [BitVec.getLsbD_or, hIn, Bool.or_false, BitVec.getLsbD_shiftLeft]
  simp [show i + 1 < 32 by omega]

/-- The bits of a SHIFT, all of them: SR has taken the samples, and the slot keeps the level of the last bit driven. -/
theorem foldl_bitShifted (inp out right : Bool) (oslot : Nat) {bs : List Bool} (hSome : bs ≠ []) (hLen : bs.length ≤ 32) (x : Ril) :
    bs.foldl (bitShifted inp out right oslot) x = { x with
      sr := shiftIn right x.sr (bs.map (inp && ·))
      bc := min 32 (x.bc + bs.length)
      slots := if out then
          vupd x.slots oslot fun y => { y with level := x.sr.getLsbD (if right then bs.length - 1 else 32 - bs.length) }
        else x.slots } := by
  induction bs generalizing x with
  | nil => exact absurd rfl hSome
  | cons b l ih =>
    by_cases hl : l = []
    · subst hl
      cases right <;> rfl
    · have hPos : 0 < l.length := List.length_pos_iff.mpr hl
      rw [List.length_cons] at hLen
      rw [List.foldl_cons, ih hl (by omega)]
      have hBc : min 32 (min 32 (x.bc + 1) + l.length) = min 32 (x.bc + (l.length + 1)) := by omega
      have hBit : (shiftIn right x.sr [inp && b]).getLsbD (if right then l.length - 1 else 32 - l.length) =
          x.sr.getLsbD (if right then l.length else 31 - l.length) := by
        cases right with
        | false =>
          rw [show (if false = true then l.length - 1 else 32 - l.length) = (31 - l.length) + 1 by simp; omega,
            getLsbD_shiftIn_left _ _ (by omega)]
          rfl
        | true =>
          rw [if_pos rfl, if_pos rfl, getLsbD_shiftIn_right _ _ (by omega), Nat.sub_add_cancel hPos]
      simp only [bitShifted, hBc, hBit]
      cases out
      · rfl
      · have hPlace : (if right then l.length else 31 - l.length) = if right then l.length + 1 - 1 else 32 - (l.length + 1) := by
          cases right <;> simp
        simp only [if_true, vupd_vupd, List.length_cons, hPlace]
        rfl

/-- Nothing sampled, SR is shifted. -/
theorem shiftIn_false (right : Bool) (v : Word) (n : Nat) :
    shiftIn right v (List.replicate n false) = if right then v >>> n else v <<< n := by
  induction n generalizing v with
  | zero => cases right <;> simp [shiftIn]
  | succ n ih =>
    have hStep : shiftIn right v (List.replicate (n + 1) false) = shiftIn right (shiftIn right v [false]) (List.replicate n false) := rfl
    rw [hStep, ih]
    cases right
    · simp [shiftIn, Nat.add_comm n 1, BitVec.shiftLeft_add]
    · simp [shiftIn, Nat.add_comm n 1, BitVec.shiftRight_add]

/-- What a SHIFT of `bs` makes of the engine. -/
def shifted (inp out right : Bool) (oslot : Nat) (bs : List Bool) (x : Ril) : Ril :=
  { x with
    sr := shiftIn right x.sr (bs.map (inp && ·))
    bc := min 32 (x.bc + bs.length)
    slots := if out then
        vupd x.slots oslot fun y => { y with level := x.sr.getLsbD (if right then bs.length - 1 else 32 - bs.length) }
      else x.slots }

section
variable (right : Bool) (oslot : Nat) (bs : List Bool) (x : Ril)

theorem shifted_in : shifted true false right oslot bs x =
    { x with sr := shiftIn right x.sr bs, bc := min 32 (x.bc + bs.length) } := by
  simp [shifted]

theorem shifted_out : shifted false true right oslot bs x =
    { x with
      sr := if right then x.sr >>> bs.length else x.sr <<< bs.length
      bc := min 32 (x.bc + bs.length)
      slots := vupd x.slots oslot fun y =>
        { y with level := if right then x.sr.getLsbD (bs.length - 1) else x.sr.getLsbD (32 - bs.length) } } := by
  have hNone : bs.map (false && ·) = List.replicate bs.length false := List.map_const' ..
  rw [shifted, hNone, shiftIn_false]
  cases right <;> rfl

theorem shifted_both : shifted true true right oslot bs x =
    { x with
      sr := shiftIn right x.sr bs
      bc := min 32 (x.bc + bs.length)
      slots := vupd x.slots oslot fun y =>
        { y with level := if right then x.sr.getLsbD (bs.length - 1) else x.sr.getLsbD (32 - bs.length) } } := by
  have hAll : bs.map (true && ·) = bs := List.map_id ..
  rw [shifted, hAll]
  cases right <;> rfl

end

/-- The operands of a SHIFT with the directions `inp` and `out`. -/
def shiftBitsOf (inp out : Bool) (islot oslot n : Nat) : Nat := (b2n inp + 2 * b2n out) * 2 ^ 20 + islot * 2 ^ 18 + oslot * 2 ^ 16 + n

theorem exec_rillShift {s : State} {e : Fin 48} {cl st : Fin 16} {inp out : Bool} {islot oslot : Fin 4} {samples : List (Bool × Nat)}
    {x : Nat} (hLen : samples.length ≤ 32) (hSome : samples ≠ []) (hDirs : inp = true ∨ out = true) (hIn : inp = false → islot = 0)
    (hOut : out = false → oslot = 0) (h : x = shiftBitsOf inp out islot oslot (samples.length - 1))
    (hAt : rillAt s e (rillIns 2 cl st x)) :
    ∃ t, exec (.rillShift e samples) s = .next t ∧ rilIs s t e (ranTo s e (samples.length + st) ((s.rilOf e).pc + 1)
      (shifted inp out (if out then s.rb Fx.RIL_ECFG_OUT_SHR e else s.rb Fx.RIL_ECFG_IN_SHR e) oslot (samples.map Prod.fst)
        (clDone cl (s.rilOf e)))) := by
  have hPos : 0 < samples.length := List.length_pos_iff.mpr hSome
  have hBoth : b2n inp + 2 * b2n out < 4 := by cases inp <;> cases out <;> decide
  have hSomeDir : b2n inp + 2 * b2n out ≠ 0 := by rcases hDirs with rfl | rfl <;> simp [b2n]
  have hUse : (b2n inp + 2 * b2n out = 2 → islot.val = 0) ∧ (b2n inp + 2 * b2n out = 1 → oslot.val = 0) := by
    constructor <;> intro hb
    · rw [hIn (by revert hb; cases inp <;> cases out <;> decide)]; rfl
    · rw [hOut (by revert hb; cases inp <;> cases out <;> decide)]; rfl
  obtain ⟨hx, hDef, hRDirs, -, hROslot, hN⟩ := fields_shift cl st hBoth hSomeDir islot.isLt oslot.isLt (by omega) hUse h
  have hOp : rOp (rillIns 2 cl st x) = 2 := rOp_rillIns hx
  have hStretch := rStretch_rillIns (op := 2) (cl := cl) (st := st) hx
  have hBegins := rill1_begins (n := 2) hx rfl hAt hDef
  obtain ⟨-, -, hRun, -, hWord, -⟩ := hAt
  generalize rillIns 2 cl st x = w at hStretch hBegins hRDirs hROslot hN hOp hWord
  have hShift : ShiftIs s e w inp out (if out then s.rb Fx.RIL_ECFG_OUT_SHR e else s.rb Fx.RIL_ECFG_IN_SHR e) oslot :=
    ⟨by rw [hRDirs]; cases inp <;> cases out <;> rfl, by rw [hRDirs]; cases inp <;> cases out <;> rfl, rfl, hROslot⟩
  have hShifted := ((engineIs_withRil s e (clDone cl (s.rilOf e))).shiftBits hShift samples)
  rw [foldl_bitShifted _ _ _ _ (by simpa using hSome) (by simpa using hLen)] at hShifted
  have hNext := (hShifted.rillNext w samples.length).rilIs
  rw [hStretch] at hNext
  refine ⟨_, ?_, hNext⟩
  change execRillShift e samples s = _
  have hCut : ¬ (rOp w = 2 ∧ (s.rilOf e).st = 2 ∧ samples.length < samples.length) := fun hc => absurd hc.2.2 (Nat.lt_irrefl _)
  have hBad : ¬ (rOp w = 2 ∧ samples.length ≠ samples.length) := fun hc => hc.2 rfl
  have hCount : bits w 4 0 + 1 = samples.length := by omega
  simp only [execRillShift, State.rillWord, hWord, hCount, hCut, hBad, if_false]
  rw [hBegins]

theorem rillHead_nil {s : State} {e : Nat} (h : (s.rilOf e).tx = []) : s.rillHead e = none := by simp [State.rillHead, h]

/-- R394: the head word is eligible, of an engine with CYC_SYNC once a tick has passed since its push. -/
theorem rillHead_cons {s : State} {e : Nat} {v : Word} {n : Nat} {l : List (Word × Nat)} (h : (s.rilOf e).tx = (v, n) :: l) :
    s.rillHead e = if s.rb Fx.RIL_ECFG_CYC_SYNC e = true → n < s.cyc.ticks then some v else none := by
  cases hSync : s.rb Fx.RIL_ECFG_CYC_SYNC e <;> simp [State.rillHead, h, hSync]

/-- Settles O49: each instruction is its rule above, in the words of Table 11-2. That FETCH with REUSE keeps BC (log entry 127), that POST
with DROP clears BC and SR all the same (log entry 128), that LOAD with DEST 0b01 and 0 leaves its slot released (log entry 214), and that
the divider's accumulator runs at each tick of an instruction (log entry 216) are the model's readings of the spec. -/
theorem rillInstructions : Obligations.RillInstructions := by
  unfold Obligations.RillInstructions
  intro s e cl st lv before r c next put cmp head wait
  have hHead : s.rillHead e = head := by
    rcases hTx : (s.rilOf e).tx with _ | ⟨⟨v, t⟩, l⟩
    · simp only [rillHead_nil hTx, head, r, hTx]
    · simp only [rillHead_cons hTx, head, r, hTx]
  refine ⟨?goto, ?await, ?shift, ?fetch, ?post, ?load, ?copy, ?verify, exec_rillHalt, ?waitEnd, ?fault⟩
  case goto =>
    intro test slot addr hUse hAt taken
    refine (exec_rillGoto hUse hAt).trans ?_
    unfold gotoTaken
    rw [hHead]
    rfl
  case await =>
    intro event slot hUse hAt holds
    refine (exec_rillAwait hUse hAt).trans ?_
    change Host.Outcome.next (withRil s e (if holds = true then _ else _)) = _
    split <;> rfl
  case shift =>
    intro islot oslot samples hLen hSome n bits_ right rightOut driven drives
    have hCount : (samples.map Prod.fst).length = n := List.length_map ..
    refine ⟨fun hAt => ?_, fun hAt => ?_, fun hAt hSame => ?_⟩
    · have hX : 2 ^ 20 + islot * 2 ^ 18 + (n - 1) = shiftBitsOf true false islot 0 (n - 1) := by simp [shiftBitsOf, b2n]
      obtain ⟨t, hExec, hIs⟩ := exec_rillShift hLen hSome (.inl rfl) nofun (fun _ => rfl) hX hAt
      rw [shifted_in, hCount] at hIs
      exact ⟨t, hExec, hIs⟩
    · have hX : 2 ^ 21 + oslot * 2 ^ 16 + (n - 1) = shiftBitsOf false true 0 oslot (n - 1) := by simp [shiftBitsOf, b2n]
      obtain ⟨t, hExec, hIs⟩ := exec_rillShift hLen hSome (.inr rfl) (fun _ => rfl) nofun hX hAt
      rw [shifted_out, hCount] at hIs
      exact ⟨t, hExec, hIs⟩
    · have hX : 2 ^ 21 + 2 ^ 20 + islot * 2 ^ 18 + oslot * 2 ^ 16 + (n - 1) = shiftBitsOf true true islot oslot (n - 1) := by
        simp [shiftBitsOf, b2n]
      obtain ⟨t, hExec, hIs⟩ := exec_rillShift (out := true) hLen hSome (.inl rfl) nofun nofun hX hAt
      rw [shifted_both, hCount, if_pos rfl] at hIs
      exact ⟨t, hExec, hSame ▸ hIs⟩
  case fetch =>
    intro reuse hAt
    refine ⟨fun v hv => ?_, fun hNone hReuse => ?_, fun hNone hReuse => exec_rillFetch_wait hAt (hHead.trans hNone) hReuse⟩
    · obtain ⟨t, hExec, hIs, hEvent⟩ := exec_rillFetch_some hAt (hHead.trans hv)
      refine ⟨t, hExec, hIs.rilIs, fun hs hWas hMatch => ?_⟩
      have hNow : s.rillNow e / 65536 = s.tbTime (s.rf Fx.RIL_ECFG_TS_TB e) / 2 ^ 32 := Nat.div_div_eq_div_mul ..
      rw [← hNow]
      exact hEvent hs hWas (beq_iff_eq.mpr hMatch)
    · obtain ⟨t, hExec, hIs, hReused⟩ := exec_rillFetch_reuse hAt (hHead.trans hNone) hReuse
      exact ⟨t, hExec, hIs.rilIs, hReused⟩
  case post =>
    intro stamp drop zero hAt after
    refine ⟨fun hRoom => ?_, exec_rillPost_drop hAt, exec_rillPost_wait hAt⟩
    obtain ⟨t, hExec, hIs⟩ := exec_rillPost_room hAt hRoom
    exact ⟨t, hExec, hIs.rilIs⟩
  case load =>
    intro slot v
    exact ⟨fun b hAt => exec_rillLoad_slot (dest := 0) (by decide) (by omega) hAt,
      fun b hAt => exec_rillLoad_slot (dest := 1) (by decide) (by omega) hAt, exec_rillLoad_ctr⟩
  case copy =>
    intro sel hAt
    obtain ⟨t, hExec, hIs⟩ := exec_rillCopy (lv := lv) hAt
    exact ⟨t, hExec, hIs.rilIs⟩
  case verify =>
    intro slot level lvl lvl2 fail hAt
    exact ⟨exec_rillVerify_match hAt, exec_rillVerify_resample hAt, exec_rillVerify_fail hAt⟩
  case waitEnd =>
    intro hSt hWaiting w hWord goes
    refine ⟨fun slot hw => exec_rillWaitEnd_await hSt hWaiting hWord hw, fun hw v hv => ?_, exec_rillWaitEnd_post hSt hWaiting hWord⟩
    obtain ⟨t, hExec, hIs⟩ := exec_rillWaitEnd_fetch (lv := lv) (before := before) hSt hWaiting hWord hw (hHead.trans hv)
    exact ⟨t, hExec, hIs.rilIs⟩
  case fault =>
    intro hEng hPll hSt hWaiting hs w hFault i hi
    obtain ⟨op, body, hExec⟩ := rill1_of_instr lv before hi s
    refine ⟨_, hExec, ?_⟩
    rw [rill1_of_bad hEng hPll hSt hWaiting (bad_of_fault hFault)]
    exact rillFault_stops hs

end Sys2Proof.Proofs
end

section
/-!
PROOFS. The control of the Rill engines (spec/11, R398 to R406): O50.
-/
namespace Sys2Proof.Proofs
open Sys2Proof Sys2Proof.Machine Sys2Proof.Safety Sys2Proof.Laws

/-! ### Writes of the command registers (R14, R524) -/

section
variable {s : State} {r : RegId} {i j : Nat} {v : Word} {bad : Bool}

theorem regDead_engine (hLive : live s) (hOwner : r.defn.owner = .eng) (hHere : i < s.variant.engines) : s.regDead r i j = false := by
  unfold live at hLive
  simp [State.regDead, absentReg, hOwner, hLive, hHere]

theorem regDead_always (hLive : live s) (hOwner : r.defn.owner = .always) : s.regDead r i j = false := by
  unfold live at hLive
  simp [State.regDead, absentReg, hOwner, hLive]

/-- A word of plain encodings is rejected for the lock of a set-up register, or for the rules of its own register. -/
theorem cmdWrite_plain (hHere : s.regDead r i j = false) (hRsv : rsvBitBad r i v = false) (hEnc : encBadFields r v = false) (m : Master)
    (act : State → State) : s.cmdWrite m r i j v bad act =
      if (s.lock && hasRwl r) = true then s.reject m .locked (r.addr i j) v
      else if bad then s.reject m .rsvEnc (r.addr i j) v else act s := by
  have hCause : writeCause s r i v bad = if s.lock && hasRwl r then some .locked else if bad then some .rsvEnc else none := by
    simp [writeCause, hRsv, hEnc]
  rw [State.cmdWrite, if_neg (by simp [hHere]), hCause]
  cases s.lock && hasRwl r with
  | true => rfl
  | false => cases bad <;> rfl

end

/-! ### RIL_CTL (R401, R404, R405) -/

/-- The word of RIL_CTL that RIL_START writes. -/
def startWord (clr flush : Bool) : Word := BitVec.ofNat 32 (b2n flush * 8 + b2n clr * 4 + 1)

theorem startWord_bits (clr flush : Bool) : (startWord clr flush).getLsbD 0 = true ∧ (startWord clr flush).getLsbD 1 = false ∧
    (startWord clr flush).getLsbD 2 = clr ∧ (startWord clr flush).getLsbD 3 = flush := by
  cases clr <;> cases flush <;> decide

theorem rsvBitBad_RIL_CTL {v : Word} (h : v &&& 0xFFFFFFF0#32 = 0#32) (e : Nat) : rsvBitBad .RIL_CTL e v = false := by
  have hMask : ~~~(BitVec.ofNat 32 (fieldMask RegId.RIL_CTL.defn.flds)) ||| extraRsv .RIL_CTL e = 0xFFFFFFF0#32 := by
    simp only [extraRsv, reduceCtorEq, false_and, if_false]
    decide
  rw [rsvBitBad, hMask, h]
  rfl

section
variable {s : State} {e : Fin 48} (hLive : live s) (hHere : e.val < s.variant.engines)
include hLive hHere

/-- A write of RIL_CTL acts, or is rejected for R405. -/
theorem rilCmd_eq (m : Master) {v : Word} (hPlain : v &&& 0xFFFFFFF0#32 = 0#32) :
    s.rilCmd m e v = if s.rilCtlBad e v then s.reject m .rsvEnc (0x71010 + 0x40 * e.val) v else s.rilCtl e v := by
  rw [State.rilCmd, cmdWrite_plain (regDead_engine hLive rfl hHere) (rsvBitBad_RIL_CTL hPlain e) rfl,
    show hasRwl .RIL_CTL = false by decide, Bool.and_false, if_neg Bool.false_ne_true]
  rfl

/-- R404, R405: a start is served where the engine is STOPPED and its clock not, and rejected otherwise. -/
theorem exec_rilStart (m : Master) (clr flush : Bool) : exec (.rilStart m e clr flush) s = .next (
    if s.pllStopped pllRill = true ∨ (s.rilOf e).st ≠ 0 then
      s.reject m .rsvEnc (0x71010 + 0x40 * e.val) (BitVec.ofNat 32 (b2n flush * 8 + b2n clr * 4 + 1))
    else s.rillStart e clr flush) := by
  obtain ⟨h0, h1, h2, h3⟩ := startWord_bits clr flush
  have hBad : s.rilCtlBad e (startWord clr flush) = (s.pllStopped pllRill || (s.rilOf e).st != 0) := by
    simp only [State.rilCtlBad, h0, h1, Bool.true_and, Bool.and_false, Bool.not_true, Bool.or_false]
  have hPlain : startWord clr flush &&& 0xFFFFFFF0#32 = 0#32 := by cases clr <;> cases flush <;> decide
  refine congrArg Host.Outcome.next ((rilCmd_eq hLive hHere m hPlain).trans ?_)
  simp only [hBad, Bool.or_eq_true, bne_iff_ne, State.rilCtl, h0, h2, h3, if_true]
  rfl

/-- R401: a stop is noted by a RUNNING engine. -/
theorem exec_rilStop (m : Master) :
    exec (.rilStop m e) s = .next (if (s.rilOf e).st = 1 then s.rilUpd e fun r => { r with st := 2 } else s) := by
  have hBad : s.rilCtlBad e 2#32 = false := rfl
  refine congrArg Host.Outcome.next ((rilCmd_eq hLive hHere m (by decide)).trans ?_)
  rw [hBad, if_neg Bool.false_ne_true, State.rilCtl]
  simp

/-! ### Program words (R402) -/

theorem exec_programWordWrite (m : Master) (i : Fin 32) (v : Word) : exec (.programWordWrite m e i v) s = .next (
    if s.lock then s.reject m .locked (0x74000 + 0x80 * e.val + 4 * i.val) v
    else if (s.rilOf e).st = 0 then s.sg .RIL_PROG e i v else s.wf Fx.RIL_STS_PROG_REJ 1 e) := by
  have hSetUp : hasRwl .RIL_PROG = true := by decide
  have hRsv : rsvBitBad .RIL_PROG e v = false := by
    have hMask : ~~~(BitVec.ofNat 32 (fieldMask RegId.RIL_PROG.defn.flds)) ||| extraRsv .RIL_PROG e = 0#32 := by
      simp only [extraRsv, reduceCtorEq, false_and, if_false]
      decide
    rw [rsvBitBad, hMask, BitVec.and_zero]
    rfl
  refine congrArg Host.Outcome.next ?_
  rw [cmdWrite_plain (regDead_engine hLive rfl hHere) hRsv rfl, hSetUp, Bool.and_true]
  rfl

end

/-! ### Starts (R398, R404) -/

/-- R398: an output slot that is released takes its initial level and driver state. -/
def slotInit (s : State) (e j : Nat) (x : Slot) : Slot :=
  if x.released then ⟨(s.slotCfg e j).getLsbD 28, (s.slotCfg e j).getLsbD 29, false⟩ else x

/-- The engine at its start edge, but for CLR_SR. -/
def startedRil (s : State) (e : Nat) (flush : Bool) : Ril :=
  { s.rilOf e with
    st := 1, pc := s.rf Fx.RIL_ECFG_ENTRY e, bc := 0, acc := 0, waiting := false
    tx := if flush then [] else (s.rilOf e).tx, rx := if flush then [] else (s.rilOf e).rx
    slots := slotsWhere (List.range 4) (s.slotOut e) (slotInit s e) (s.rilOf e).slots }

theorem rillStart_eq (s : State) {e : Nat} (he : e < 48) (clr flush : Bool) : s.rillStart e clr flush =
    if clr then (withRil s e (startedRil s e flush)).rillSr e 0#32 (s.rillNow e) else withRil s e (startedRil s e flush) := by
  have hSlots := foldl_slotUpd (p := fun t j => t.slotOut e j) (f := fun t j => slotInit t e j) (e := e) (fun _ _ => rfl) (fun _ _ => rfl)
    (List.range 4) s
  have hInit : (s.rilUpd e fun r => { r with slots := slotsWhere (List.range 4) (s.slotOut e) (slotInit s e) r.slots }).rilUpd e (fun r =>
      { r with st := 1, pc := s.rf Fx.RIL_ECFG_ENTRY e, bc := 0, acc := 0, waiting := false,
               tx := if flush then [] else r.tx, rx := if flush then [] else r.rx }) = withRil s e (startedRil s e flush) := by
    simp only [rilUpd_eq_withRil, withRil_withRil, rilOf_withRil_self _ he]
    rfl
  rw [← hInit, ← hSlots]
  rfl

/-- What a start makes of the engine (R404). -/
def Started (s : State) (e : Fin 48) (x : Ril) (clr flush : Bool) : Prop :=
  x.st = 1 ∧ x.pc = s.rf Fx.RIL_ECFG_ENTRY e ∧ x.bc = 0 ∧ x.acc = 0 ∧ x.ctr = (s.rilOf e).ctr ∧ x.last = (s.rilOf e).last ∧
    x.sr = (if clr then 0#32 else (s.rilOf e).sr) ∧ x.tx = (if flush then [] else (s.rilOf e).tx) ∧
    x.rx = (if flush then [] else (s.rilOf e).rx) ∧
    ∀ j : Fin 4, s.slotOut e j = true → (vget Slot.reset (s.rilOf e).slots j).released = true →
      vget Slot.reset x.slots j = ⟨s.rb Fx.RIL_SLOT_LVL_INIT e j, s.rb Fx.RIL_SLOT_OE_INIT e j, false⟩

theorem vget_startedRil {s : State} {e : Fin 48} {flush : Bool} {j : Fin 4} (hOut : s.slotOut e j = true)
    (hReleased : (vget Slot.reset (s.rilOf e).slots j).released = true) :
    vget Slot.reset (startedRil s e flush).slots j = ⟨s.rb Fx.RIL_SLOT_LVL_INIT e j, s.rb Fx.RIL_SLOT_OE_INIT e j, false⟩ := by
  rw [startedRil, vget_slotsWhere (Nat.le_refl 4), if_pos ⟨j.isLt, hOut⟩, slotInit, if_pos hReleased,
    rb_eq_getLsbD s (x := Fx.RIL_SLOT_LVL_INIT) rfl, rb_eq_getLsbD s (x := Fx.RIL_SLOT_OE_INIT) rfl]
  rfl

theorem started_rillStart (s : State) (e : Fin 48) (clr flush : Bool) : Started s e ((s.rillStart e clr flush).rilOf e) clr flush ∧
    ∀ i : Fin 48, i ≠ e → (s.rillStart e clr flush).rilOf i = s.rilOf i := by
  have hIs : EngineIs s (s.rillStart e clr flush) e { startedRil s e flush with sr := if clr then 0#32 else (s.rilOf e).sr } := by
    rw [rillStart_eq s e.isLt]
    cases clr
    · exact engineIs_withRil ..
    · exact (engineIs_withRil ..).rillSr ..
  obtain ⟨-, hSelf, hOther⟩ := hIs.rilIs
  rw [hSelf]
  exact ⟨⟨rfl, rfl, rfl, rfl, rfl, rfl, rfl, rfl, rfl, fun j => vget_startedRil (flush := flush)⟩, hOther⟩

/-! ### Stops (R401) -/

theorem exec_rilStopEffect {s : State} {e : Fin 48} (hSt : (s.rilOf e).st = 2) :
    ∃ t, exec (.rilStopEffect e) s = .next t ∧ t.regs = s.regs ∧
      t.rilOf e = { s.rilOf e with st := 0, waiting := false, slots := (t.rilOf e).slots } ∧
      ∀ j : Fin 4, vget Slot.reset (t.rilOf e).slots j =
        if s.slotOut e j = true ∧ s.rb Fx.RIL_SLOT_REL_STOP e j = true then
          { vget Slot.reset (s.rilOf e).slots j with released := true, drive := false }
        else vget Slot.reset (s.rilOf e).slots j := by
  refine ⟨s.rillStop e, if_pos hSt, ?_⟩
  rw [rillStop_eq s e.isLt, rilOf_withRil_self _ e.isLt]
  refine ⟨rfl, rfl, fun j => ?_⟩
  rw [vget_released, relStop_eq]

/-- R401: the bits of a SHIFT that a stop cuts. -/
theorem exec_rillShift_cut {s : State} {e : Fin 48} {st : Fin 16} {islot : Fin 4} {n : Fin 32} {samples : List (Bool × Nat)}
    (hHere : e.val < s.variant.engines) (hSt : (s.rilOf e).st = 2) (hPll : s.pll pllRill = true)
    (hWord : s.rillWord e = rillIns 2 0 st (2 ^ 20 + islot * 2 ^ 18 + n)) (hIn : s.slotEn e islot = true) (hLen : samples.length ≤ n) :
    ∃ t, exec (.rillShift e samples) s = .next t ∧
      (t.rilOf e).sr = shiftIn (s.rb Fx.RIL_ECFG_IN_SHR e) (s.rilOf e).sr (samples.map Prod.fst) ∧
      (t.rilOf e).bc = (if samples = [] then (s.rilOf e).bc else min 32 ((s.rilOf e).bc + samples.length)) ∧
      (t.rilOf e).pc = (s.rilOf e).pc ∧ (t.rilOf e).st = 2 := by
  obtain ⟨hx, hDef, hDirs, hIslot, hOslot, hN⟩ := fields_shift 0 st (dirs := 1) (islot := islot) (oslot := 0) (n := n)
    (by decide) (by decide) islot.isLt (by decide) n.isLt ⟨nofun, fun _ => rfl⟩ (x := 2 ^ 20 + islot * 2 ^ 18 + n) (by omega)
  have hOp : rOp (rillIns 2 0 st _) = 2 := rOp_rillIns hx
  have hCl : rCl (rillIns 2 0 st _) = 0 := rCl_rillIns hx
  generalize rillIns 2 0 st _ = w at hWord hDef hDirs hIslot hOslot hN hOp hCl
  have hAllowed : s.rillForbid e w = false := by simp [State.rillForbid, hOp, hCl, hDirs, hIslot, hIn]
  have hExec : exec (.rillShift e samples) s = .next (s.rillCut e samples) := by
    change execRillShift e samples s = _
    rw [execRillShift, hWord, if_pos ⟨hOp, hSt, by omega⟩]
  refine ⟨_, hExec, ?_⟩
  by_cases hNone : samples = []
  · subst hNone
    simp [State.rillCut, shiftIn, hSt]
  · have hSome : samples.isEmpty = false := by simpa using hNone
    have hCut : s.rillCut e samples = (samples.foldl (fun u p => u.shiftBit e w p.1 p.2) s).rillTicks e samples.length := by
      simp [State.rillCut, State.rillCl, hWord, hHere, hPll, hDef, hAllowed, hSome, hCl]
    have hShift : ShiftIs s e w true false (s.rb Fx.RIL_ECFG_IN_SHR e) 0 := ⟨by simp [hDirs], by simp [hDirs], rfl, hOslot⟩
    obtain ⟨⟨-, hSelf, -⟩, -, -⟩ := ((engineIs_self s e).shiftBits hShift samples).rillTicks samples.length
    rw [foldl_bitShifted _ _ _ _ (by simpa using hNone) (by rw [List.length_map]; omega)] at hSelf
    rw [hCut, hSelf, if_neg hNone, List.length_map]
    simp only [Bool.true_and, List.map_id']
    exact ⟨trivial, trivial, trivial, hSt⟩

/-! ### An operation on every engine -/

section
variable {α σ : Type} {f : σ → α → σ} {a : α} {l : List α}

/-- Of the steps over a list, what is not the step of `a` keeps what `R` says of `a`. -/
theorem foldl_around {R : σ → σ → Prop} (hRefl : ∀ t, R t t) (hTrans : ∀ {t u v}, R t u → R u v → R t v)
    (hStep : ∀ b ∈ l, b ≠ a → ∀ t, R t (f t b)) (hNodup : l.Nodup) (hMem : a ∈ l) (s : σ) :
    ∃ t, R s t ∧ R (f t a) (l.foldl f s) := by
  have hOthers : ∀ k : List α, (∀ b ∈ k, b ∈ l) → a ∉ k → ∀ t, R t (k.foldl f t) := by
    intro k
    induction k with
    | nil => exact fun _ _ => hRefl
    | cons b k ih =>
      intro hSub hNot t
      obtain ⟨hNe, hNotTail⟩ := not_or.mp (List.mem_cons.not.mp hNot)
      exact hTrans (hStep b (hSub b List.mem_cons_self) (Ne.symm hNe) t) (ih (fun c hc => hSub c (List.mem_cons_of_mem b hc)) hNotTail _)
  obtain ⟨front, back, rfl⟩ := List.append_of_mem hMem
  obtain ⟨-, hNodupBack, hApart⟩ := List.nodup_append.mp hNodup
  have hFront : a ∉ front := fun h => hApart a h a List.mem_cons_self rfl
  have hBack : a ∉ back := (List.nodup_cons.mp hNodupBack).1
  refine ⟨front.foldl f s, hOthers front (fun b hb => List.mem_append_left _ hb) hFront s, ?_⟩
  rw [List.foldl_append]
  exact hOthers back (fun b hb => List.mem_append_right _ (List.mem_cons_of_mem a hb)) hBack _

/-- A step that only `a` takes. -/
theorem foldl_lone (hStep : ∀ b ∈ l, b ≠ a → ∀ t, f t b = t) (hNodup : l.Nodup) (hMem : a ∈ l) (s : σ) :
    l.foldl f s = f s a := by
  obtain ⟨t, rfl, hAfter⟩ := foldl_around (R := Eq) (fun _ => rfl) Eq.trans (fun b hb h t => (hStep b hb h t).symm) hNodup hMem s
  exact hAfter.symm

end

/-! ### Phase restarts (R385, R399, R400) -/

section
variable (s : State) (e : Fin 48)

theorem inAwaitCycle_rillPhase : (s.rillPhase e).inAwaitCycle e = s.inAwaitCycle e := by
  simp only [State.inAwaitCycle, State.rillWord, rillPhase_eq, rilOf_withRil_self _ e.isLt, rg_withRil]

theorem rillWord_rillPhase : (s.rillPhase e).rillWord e = s.rillWord e := by
  simp only [State.rillWord, rillPhase_eq, rilOf_withRil_self _ e.isLt, rg_withRil]

/-- An engine released from AWAIT CYCLE by a phase restart. -/
def cycleReleased : Ril := ranTo s e (1 + rStretch (s.rillWord e)) ((s.rilOf e).pc + 1) { s.rilOf e with acc := 0 }

theorem rillNext_rillPhase : (s.rillPhase e).rillNext e (s.rillWord e) 1 = withRil s e (cycleReleased s e) := by
  rw [rillNext_eq, rillPhase_eq, rilOf_withRil_self _ e.isLt, withRil_withRil, ranTo_withRil]
  rfl

end

/-! ### Synchronous commands (R399) -/

section
variable {s : State} {e : Fin 48} {v : Word}

/-- The reserved cases of a RIL_SYNC_CMD that names one engine. -/
theorem syncBad_of_lone (hLone : ∀ i < 48, s.syncNames v i = decide (i = e.val)) : s.syncBad v =
    (s.pllStopped pllRill || (decide (s.variant.engines ≤ e) || (s.rilOf e).st == 3 || (bits v 31 30 == 1 && (s.rilOf e).st != 0))) := by
  unfold State.syncBad
  congr 1
  rw [Bool.eq_iff_iff, List.any_eq_true]
  constructor
  · rintro ⟨i, hi, hBad⟩
    rw [hLone i (List.mem_range.mp hi)] at hBad
    obtain ⟨hName, hBad⟩ := Bool.and_eq_true_iff.mp hBad
    rwa [of_decide_eq_true hName] at hBad
  · intro hBad
    refine ⟨e, List.mem_range.mpr e.isLt, ?_⟩
    rw [hLone e e.isLt, decide_eq_true rfl, Bool.true_and]
    exact hBad

/-- The names of RIL_SYNC_LO are used up. -/
def namesUsed (s : State) : State := { s with rilSyncLo := 0 }

theorem namesUsed_withRil (h : s.rilSyncLo = 0) (x : Ril) : namesUsed (withRil s e x) = withRil s e x := by
  have hNone : namesUsed s = s := by
    rw [namesUsed, ← h]
  exact congrArg (fun u => withRil u e x) hNone

/-- What a RIL_SYNC_CMD that names one engine does: a START of it, or a PHASE with the release of its AWAIT CYCLE (R385, R400, R404). -/
theorem syncOp_of_lone (hLone : ∀ i < 48, s.syncNames v i = decide (i = e.val)) : s.syncOp v = namesUsed (
    if bits v 31 30 = 1 then s.rillStart e false false
    else withRil s e (if s.rb Fx.RIL_ECFG_CYC_SYNC e = false ∧ (s.rilOf e).st = 1 ∧ s.inAwaitCycle e = true then cycleReleased s e
      else { s.rilOf e with acc := 0 })) := by
  have hIdle : ∀ i ∈ List.range 48, i ≠ e.val → s.syncNames v i = false := fun i hi hNe => by
    rw [hLone i (List.mem_range.mp hi), decide_eq_false hNe]
  have hSt : ((s.rillPhase e).rilOf e).st = (s.rilOf e).st := by rw [rillPhase_eq, rilOf_withRil_self _ e.isLt]
  have hCyc : (s.rillPhase e).rb Fx.RIL_ECFG_CYC_SYNC e = s.rb Fx.RIL_ECFG_CYC_SYNC e := rfl
  have hCond : (!s.rb Fx.RIL_ECFG_CYC_SYNC e && s.inAwaitCycle e && (s.rilOf e).st == 1) = true ↔
      s.rb Fx.RIL_ECFG_CYC_SYNC e = false ∧ (s.rilOf e).st = 1 ∧ s.inAwaitCycle e = true := by
    simp only [Bool.and_eq_true, Bool.not_eq_true', beq_iff_eq]
    tauto
  unfold State.syncOp
  rw [foldl_lone (a := e.val) (fun i hi hNe t => by rw [hIdle i hi hNe]; rfl) List.nodup_range (List.mem_range.mpr e.isLt),
    if_pos (by rw [hLone e e.isLt, decide_eq_true rfl])]
  refine congrArg namesUsed (ite_congr rfl (fun _ => rfl) fun _ => ?_)
  simp only [hSt, hCyc, inAwaitCycle_rillPhase, rillWord_rillPhase, rillNext_rillPhase, hCond]
  rw [rillPhase_eq, ← apply_ite (withRil s e)]

end

section
variable {s : State} {e : Fin 48} (hLive : live s)
include hLive

/-- A write of RIL_SYNC_CMD acts, or is rejected for R399. -/
theorem syncCmd_eq (m : Master) {v : Word} (hRsv : rsvBitBad .RIL_SYNC_CMD 0 v = false) (hEnc : encBadFields .RIL_SYNC_CMD v = false) :
    s.syncCmd m v = if s.syncBad v then s.reject m .rsvEnc 0x70004 v else s.syncOp v := by
  rw [State.syncCmd, cmdWrite_plain (regDead_always hLive rfl) hRsv hEnc, show hasRwl .RIL_SYNC_CMD = false by decide, Bool.and_false,
    if_neg Bool.false_ne_true]
  rfl

/-- SYNC_START of a lone engine, named in RIL_SYNC_LO (R399, R404). -/
theorem exec_syncStart (hHere : e.val < s.variant.engines) (m : Master) (he : e.val < 16) (hLow : s.rilSyncLo = 2 ^ e.val) :
    exec (.syncStart m 0) s = .next (
      if s.pllStopped pllRill = true ∨ (s.rilOf e).st ≠ 0 then s.reject m .rsvEnc 0x70004 0x40000000#32
      else namesUsed (s.rillStart e false false)) := by
  have hLone : ∀ i < 48, s.syncNames 0x40000000#32 i = decide (i = e.val) := by
    intro i hi
    rw [State.syncNames, hLow]
    by_cases hSmall : i < 32
    · rw [if_pos hSmall, Nat.testBit_two_pow]
      exact decide_eq_decide.mpr eq_comm
    · have hNone : ∀ k : Fin 16, (0x40000000#32).getLsbD k = false := by decide
      rw [if_neg hSmall, decide_eq_false (by omega)]
      exact hNone ⟨i - 32, by omega⟩
  have hOp : bits 0x40000000#32 31 30 = 1 := by decide
  have hBad : s.syncBad 0x40000000#32 = true ↔ s.pllStopped pllRill = true ∨ (s.rilOf e).st ≠ 0 := by
    simp only [syncBad_of_lone hLone, hOp, Bool.or_eq_true, Bool.and_eq_true, decide_eq_true_eq, beq_iff_eq, bne_iff_ne, true_and]
    refine or_congr Iff.rfl ?_
    omega
  have hServed : s.syncOp 0x40000000#32 = namesUsed (s.rillStart e false false) := by rw [syncOp_of_lone hLone, if_pos hOp]
  refine congrArg Host.Outcome.next ((syncCmd_eq hLive m (v := 0x40000000#32) (by decide) (by decide)).trans ?_)
  simp only [hBad, hServed]

/-- SYNC_PHASE of a lone engine, named in the command (R399, R385). -/
theorem exec_syncPhase (hHere : e.val < s.variant.engines) (m : Master) (hi : Fin 16) (he : e.val = 32 + hi.val) (hLow : s.rilSyncLo = 0)
    (hPll : s.pllStopped pllRill = false) (hSt : (s.rilOf e).st ≠ 3) :
    exec (.syncPhase m (BitVec.ofNat 16 (2 ^ hi.val))) s = .next (s.rilUpd e fun r =>
      if s.rb Fx.RIL_ECFG_CYC_SYNC e = false ∧ r.st = 1 ∧ s.inAwaitCycle e = true then
        ranTo s e (1 + rStretch (s.rillWord e)) (r.pc + 1) { r with acc := 0 }
      else { r with acc := 0 }) := by
  have hWord : ∀ hi : Fin 16, let v := BitVec.ofNat 32 (2 ^ 31 + (BitVec.ofNat 16 (2 ^ hi.val)).toNat)
      rsvBitBad .RIL_SYNC_CMD 0 v = false ∧ encBadFields .RIL_SYNC_CMD v = false ∧ bits v 31 30 = 2 ∧
        ∀ k : Fin 16, v.getLsbD k = decide (k = hi) := by decide
  obtain ⟨hRsv, hEnc, hOp, hBits⟩ := hWord hi
  refine congrArg Host.Outcome.next ((syncCmd_eq hLive m hRsv hEnc).trans ?_)
  generalize BitVec.ofNat 32 (2 ^ 31 + (BitVec.ofNat 16 (2 ^ hi.val)).toNat) = v at hOp hBits
  have hLone : ∀ i < 48, s.syncNames v i = decide (i = e.val) := by
    intro i h48
    rw [State.syncNames, hLow]
    by_cases hSmall : i < 32
    · rw [if_pos hSmall, Nat.zero_testBit, decide_eq_false (by omega)]
    · rw [if_neg hSmall]
      refine (hBits ⟨i - 32, by omega⟩).trans (decide_eq_decide.mpr ?_)
      rw [Fin.ext_iff]
      simp only
      omega
  have hServed : s.syncBad v = false := by
    rw [syncBad_of_lone hLone, hPll, hOp]
    simp [hSt, hHere]
  rw [hServed, if_neg Bool.false_ne_true, syncOp_of_lone hLone, hOp, if_neg (by decide), namesUsed_withRil hLow, rilUpd_eq_withRil]
  rfl

end

/-! ### The release of each cycle (R400) -/

/-- Engine `e` is as it was, and no word has changed but the counts of other engines. -/
structure EngineKept (e : Fin 48) (s t : State) : Prop where
  rilOf_eq : t.rilOf e = s.rilOf e
  rg_eq : ∀ (q : RegId) (k l : Nat), (∀ i < 48, i ≠ e.val → q.addr k l ≠ RegId.addr .RIL_CNT i 0) → t.rg q k l = s.rg q k l
  rising : Rising s.regs → Rising t.regs

/-- The step of one engine at the release. -/
def releaseStep (s : State) (e : Nat) : State :=
  if s.rb Fx.RIL_ECFG_CYC_SYNC e && ((s.rilOf e).st == 1 || (s.rilOf e).st == 2) then
    let t := s.rillPhase e
    if s.inAwaitCycle e && (s.rilOf e).st == 1 then t.rillNext e (s.rillWord e) 1
    else if s.inAwaitCycle e then t
    else t.bump Fx.RIL_CNT_SYNC_MISS 1 e
  else s

section
variable {e : Fin 48} {s t u : State}

theorem engineKept_refl (e : Fin 48) (s : State) : EngineKept e s s := ⟨rfl, fun _ _ _ _ => rfl, id⟩

theorem EngineKept.trans (h : EngineKept e s t) (k : EngineKept e t u) : EngineKept e s u :=
  ⟨k.rilOf_eq.trans h.rilOf_eq, fun q a b hn => (k.rg_eq q a b hn).trans (h.rg_eq q a b hn), fun hs => k.rising (h.rising hs)⟩

theorem EngineKept.withRil_ne (h : EngineKept e s t) {i : Fin 48} (hi : i ≠ e) (x : Ril) : EngineKept e s (withRil t i x) :=
  ⟨(rilOf_withRil_ne t (fun hEq => hi (Fin.ext hEq.symm)) x).trans h.rilOf_eq, h.rg_eq, h.rising⟩

theorem EngineKept.miss_ne (h : EngineKept e s t) {i : Fin 48} (hi : i ≠ e) : EngineKept e s (t.bump Fx.RIL_CNT_SYNC_MISS 1 i) :=
  ⟨h.rilOf_eq, fun q a b hn => (rg_count_ne rfl (by decide) (by decide) (hn i i.isLt (Fin.val_ne_of_ne hi))).trans (h.rg_eq q a b hn),
    fun hs => rising_wf _ _ _ _ _ (h.rising hs)⟩

/-- The release of one engine, in the three cases. -/
theorem releaseStep_idle (h : s.rb Fx.RIL_ECFG_CYC_SYNC e = false ∨ (s.rilOf e).st = 0 ∨ (s.rilOf e).st = 3) : releaseStep s e = s := by
  refine if_neg ?_
  rcases h with h | h | h <;> simp [h]

theorem releaseStep_release (hCyc : s.rb Fx.RIL_ECFG_CYC_SYNC e = true) (hSt : (s.rilOf e).st = 1) (hAwait : s.inAwaitCycle e = true) :
    releaseStep s e = withRil s e (cycleReleased s e) := by
  simp [releaseStep, hCyc, hSt, hAwait, rillNext_rillPhase]

theorem releaseStep_miss (hCyc : s.rb Fx.RIL_ECFG_CYC_SYNC e = true) (hSt : (s.rilOf e).st = 1) (hAwait : s.inAwaitCycle e = false) :
    releaseStep s e = (withRil s e { s.rilOf e with acc := 0 }).bump Fx.RIL_CNT_SYNC_MISS 1 e := by
  simp [releaseStep, hCyc, hSt, hAwait, rillPhase_eq]

theorem releaseStep_ne {i : Fin 48} (hi : i ≠ e) (t : State) : EngineKept e t (releaseStep t i) := by
  have hSame : EngineKept e t t := engineKept_refl e t
  have hPhase : EngineKept e t (t.rillPhase i) := by
    rw [rillPhase_eq]
    exact hSame.withRil_ne hi _
  unfold releaseStep
  split
  · dsimp only
    split
    · rw [rillNext_rillPhase]
      exact hSame.withRil_ne hi _
    · split
      · exact hPhase
      · exact hPhase.miss_ne hi
  · exact hSame

theorem releaseStep_cyc (t : State) (i : Nat) : (releaseStep t i).cyc = t.cyc := by
  unfold releaseStep
  dsimp only
  split_ifs <;> rfl

/-- The words that engine `e` reads at the release. -/
theorem EngineKept.rb_cyc (h : EngineKept e s t) : t.rb Fx.RIL_ECFG_CYC_SYNC e = s.rb Fx.RIL_ECFG_CYC_SYNC e := by
  unfold State.rb State.rf
  rw [h.rg_eq]
  intro i _ _
  show RegId.addr .RIL_ECFG e 0 ≠ _
  rw [addr_RIL_ECFG, addr_RIL_CNT]
  omega

theorem EngineKept.rillWord (h : EngineKept e s t) : t.rillWord e = s.rillWord e := by
  rw [State.rillWord, State.rillWord, h.rilOf_eq, h.rg_eq]
  intro i _ _
  rw [addr_RIL_PROG, addr_RIL_CNT]
  omega

theorem EngineKept.inAwaitCycle (h : EngineKept e s t) : t.inAwaitCycle e = s.inAwaitCycle e := by
  rw [State.inAwaitCycle, State.inAwaitCycle, h.rilOf_eq, h.rillWord]

theorem EngineKept.cycleReleased (h : EngineKept e s t) : cycleReleased t e = cycleReleased s e := by
  have hFrac : t.rf Fx.RIL_DIV_FRAC e = s.rf Fx.RIL_DIV_FRAC e := by
    unfold State.rf
    rw [h.rg_eq]
    intro i _ _
    show RegId.addr .RIL_DIV e 0 ≠ _
    rw [addr_RIL_DIV, addr_RIL_CNT]
    omega
  simp only [Proofs.cycleReleased, ranTo, hFrac, h.rilOf_eq, h.rillWord]

theorem EngineKept.rf_miss (h : EngineKept e s t) : t.rf Fx.RIL_CNT_SYNC_MISS e = s.rf Fx.RIL_CNT_SYNC_MISS e := by
  unfold State.rf
  rw [h.rg_eq]
  intro i _ hi
  show RegId.addr .RIL_CNT e 0 ≠ _
  rw [addr_RIL_CNT, addr_RIL_CNT]
  omega

end

/-- The release of an engine among those of the others: it goes on from AWAIT CYCLE, or the miss is counted (R400). -/
theorem release_engine {e : Fin 48} {s u t : State} (hBefore : EngineKept e s u) (hAfter : EngineKept e (releaseStep u e) t)
    (hRising : Rising s.regs) :
    (s.rb Fx.RIL_ECFG_CYC_SYNC e = false ∨ (s.rilOf e).st = 0 ∨ (s.rilOf e).st = 3 → t.rilOf e = s.rilOf e) ∧
    (s.rb Fx.RIL_ECFG_CYC_SYNC e = true → (s.rilOf e).st = 1 →
      (s.inAwaitCycle e = true → t.rilOf e = cycleReleased s e) ∧
      (s.inAwaitCycle e = false → t.rilOf e = { s.rilOf e with acc := 0 } ∧ counted s t Fx.RIL_CNT_SYNC_MISS e)) := by
  have hRil : t.rilOf e = (releaseStep u e).rilOf e := hAfter.rilOf_eq
  rw [hRil, counted, hAfter.rf_miss, ← hBefore.rb_cyc, ← hBefore.rilOf_eq, ← hBefore.inAwaitCycle, ← hBefore.rf_miss,
    ← hBefore.cycleReleased]
  refine ⟨fun hIdle => ?_, fun hSync hSt => ⟨fun hAwait => ?_, fun hAwait => ?_⟩⟩
  · rw [releaseStep_idle hIdle]
  · rw [releaseStep_release hSync hSt hAwait, rilOf_withRil_self _ e.isLt]
  · rw [releaseStep_miss hSync hSt hAwait]
    exact ⟨rilOf_withRil_self u e.isLt _,
      counted_bump (s := withRil u e _) (x := Fx.RIL_CNT_SYNC_MISS) (hBefore.rising hRising) (by decide) (by decide) e⟩

/-- The release comes to the engines one by one. -/
theorem exec_rillSyncRelease {s : State} (hDue : s.cyc.rillDone = false) (hRun : s.tickRun = true) :
    ∃ t, exec .rillSyncRelease s = .next { t with cyc := { t.cyc with rillDone := true } } ∧ t.cyc = s.cyc ∧
      ∀ e : Fin 48, ∃ u, EngineKept e s u ∧ EngineKept e (releaseStep u e) t := by
  refine ⟨(List.range 48).foldl releaseStep s, ?_, ?_, fun e => ?_⟩
  · change execRillSyncRelease s = _
    rw [execRillSyncRelease, if_neg (by simp [hDue, hRun])]
    rfl
  · exact List.foldlRecOn (motive := fun t => t.cyc = s.cyc) _ _ rfl fun t ht i _ => (releaseStep_cyc t i).trans ht
  · exact foldl_around (engineKept_refl e) EngineKept.trans
      (fun i hi hNe t => releaseStep_ne (i := ⟨i, List.mem_range.mp hi⟩) (fun h => hNe (congrArg Fin.val h)) t)
      List.nodup_range (List.mem_range.mpr e.isLt) s

/-! ### Groups (R406) -/

/-- The fields of the word of RIL_GRP_CMD. -/
theorem grpWord (g : Fin 12) : let v := BitVec.ofNat 32 (2 ^ 30 + g.val); let w := BitVec.ofNat 32 (2 ^ 31 + g.val)
    (rsvBitBad .RIL_GRP_CMD 0 v = false ∧ encBadFields .RIL_GRP_CMD v = false ∧ bits v 31 30 = 1 ∧ bits v 3 0 = g.val) ∧
      rsvBitBad .RIL_GRP_CMD 0 w = false ∧ encBadFields .RIL_GRP_CMD w = false ∧ bits w 31 30 = 2 ∧ bits w 3 0 = g.val := by
  revert g
  decide

/-- A bit of a sum of powers of two is its term. -/
theorem testBit_sum_range (p : Nat → Bool) (n g : Nat) :
    (((List.range n).map fun i => if p i then 2 ^ i else 0).sum).testBit g = (decide (g < n) && p g) := by
  have hSum : ∀ n, ((List.range (n + 1)).map fun i => if p i then 2 ^ i else 0).sum =
      2 ^ n * (p n).toNat + ((List.range n).map fun i => if p i then 2 ^ i else 0).sum := by
    intro n
    rw [List.range_succ, List.map_append, List.sum_append, Nat.add_comm, List.map_singleton, List.sum_singleton]
    cases p n <;> simp
  have hLt : ∀ n, ((List.range n).map fun i => if p i then 2 ^ i else 0).sum < 2 ^ n := by
    intro n
    induction n with
    | zero => exact Nat.one_pos
    | succ n ih =>
      rw [hSum, Nat.pow_succ]
      have hTop : 2 ^ n * (p n).toNat ≤ 2 ^ n * 1 := Nat.mul_le_mul_left _ (Bool.toNat_le (p n))
      omega
  induction n with
  | zero => simp
  | succ n ih =>
    rw [hSum, Nat.testBit_two_pow_mul_add _ (hLt n), ih]
    by_cases hg : g < n
    · simp [hg, Nat.lt_succ_of_lt hg]
    · rw [if_neg hg, Nat.testBit_bool_toNat]
      by_cases hn : g = n
      · subst hn
        simp
      · simp [show g - n ≠ 0 by omega, show ¬ g < n + 1 by omega]

theorem testBit_grpSts (s : State) (g : Fin 12) : s.grpSts.testBit g = s.groupOos g := by
  rw [State.grpSts, testBit_sum_range, decide_eq_true g.isLt, Bool.true_and]

/-- The reserved cases of RIL_GRP_CMD at a group that is there. -/
theorem grpBad_eq {s : State} {g : Fin 12} {v : Word} {op : Nat} (hOp : bits v 31 30 = op) (hGrp : bits v 3 0 = g.val)
    (hHere : 4 * g.val < s.variant.engines) :
    s.grpBad v = (op == 1 && s.groupOos g || op == 2 && !s.groupOos g) := by
  rw [State.grpBad, hOp, hGrp, decide_eq_false (by omega), Bool.false_or]

section
variable {s : State} (hLive : live s) {g : Fin 12}
include hLive

/-- A write of RIL_GRP_CMD acts, or is rejected. -/
theorem grpCmd_eq (m : Master) {v : Word} (hRsv : rsvBitBad .RIL_GRP_CMD 0 v = false) (hEnc : encBadFields .RIL_GRP_CMD v = false) :
    s.grpCmd m v = if s.grpBad v then s.reject m .rsvEnc 0x70010 v else s.grpOp v := by
  rw [State.grpCmd, cmdWrite_plain (regDead_always hLive rfl) hRsv hEnc, show hasRwl .RIL_GRP_CMD = false by decide, Bool.and_false,
    if_neg Bool.false_ne_true]
  rfl

theorem exec_groupOutOfService (m : Master) (hHere : 4 * g.val < s.variant.engines) {n : Fin 16} (hn : n.val = g.val) :
    exec (.groupOutOfService m n) s = .next (
      if (s.rilOf (4 * g.val)).st = 3 then s.reject m .rsvEnc 0x70010 (BitVec.ofNat 32 (1 * 2 ^ 30 + g.val))
      else s.grpOp (BitVec.ofNat 32 (2 ^ 30 + g.val))) := by
  obtain ⟨⟨hRsv, hEnc, hOp, hGrp⟩, -⟩ := grpWord g
  change Host.Outcome.next (s.grpCmd m (BitVec.ofNat 32 (2 ^ 30 + n.val))) = _
  rw [hn, grpCmd_eq hLive m hRsv hEnc, grpBad_eq hOp hGrp hHere]
  simp only [State.groupOos, beq_self_eq_true, Bool.true_and, Bool.or_eq_true, beq_iff_eq]
  simp

theorem exec_groupInService (m : Master) (hHere : 4 * g.val < s.variant.engines) {n : Fin 16} (hn : n.val = g.val) :
    exec (.groupInService m n) s = .next (
      if (s.rilOf (4 * g.val)).st = 3 then s.grpOp (BitVec.ofNat 32 (2 ^ 31 + g.val))
      else s.reject m .rsvEnc 0x70010 (BitVec.ofNat 32 (2 * 2 ^ 30 + g.val))) := by
  obtain ⟨-, hRsv, hEnc, hOp, hGrp⟩ := grpWord g
  change Host.Outcome.next (s.grpCmd m (BitVec.ofNat 32 (2 ^ 31 + n.val))) = _
  rw [hn, grpCmd_eq hLive m hRsv hEnc, grpBad_eq hOp hGrp hHere]
  simp [State.groupOos]

end

/-- Engine `e` and the set-up words are as they were. -/
def RilKept (e : Nat) (s t : State) : Prop := t.rilOf e = s.rilOf e ∧ t.regs = s.regs

/-- A command on a group makes of each of its engines what the engine's own step makes of it. -/
theorem foldl_group {g : Fin 12} {f : State → Nat → State} (hStep : ∀ t (i : Fin 48), ∃ x, f t i = withRil t i x)
    (s : State) (j : Fin 4) : ∃ u, RilKept (4 * g + j) s u ∧
      RilKept (4 * g + j) (f u (4 * g + j)) ((List.range 4).foldl (fun t j => f t (4 * g + j)) s) := by
  refine foldl_around (a := j.val) (fun t => ⟨rfl, rfl⟩) (fun h k => ⟨k.1.trans h.1, k.2.trans h.2⟩) (fun i hi hNe t => ?_)
    List.nodup_range (List.mem_range.mpr j.isLt) s
  have hi : i < 4 := List.mem_range.mp hi
  obtain ⟨x, hx⟩ := hStep t ⟨4 * g + i, by omega⟩
  dsimp only at hx ⊢
  rw [hx]
  exact ⟨rilOf_withRil_ne t (by omega) x, rfl⟩

/-- The engine after its group has left service (R406). -/
def outOfService (s : State) (e : Nat) : Ril :=
  { s.rilOf e with
    st := 3, waiting := false
    slots := released s e (fun _ => true) (released s e (relStop s e) (s.rilOf e).slots) }

theorem oosStep_eq (s : State) (e : Fin 48) :
    ((s.rillStop e).relSlots e fun _ => true).rilUpd e (fun r => { r with st := 3 }) = withRil s e (outOfService s e) := by
  rw [rillStop_eq s e.isLt, relSlots_eq, rilUpd_eq_withRil]
  simp only [withRil_withRil, rilOf_withRil_self _ e.isLt]
  rfl

theorem rilOf_grpOp_out (s : State) (g : Fin 12) (j : Fin 4) :
    (s.grpOp (BitVec.ofNat 32 (2 ^ 30 + g.val))).rilOf (4 * g + j) = outOfService s (4 * g + j) := by
  obtain ⟨⟨-, -, hOp, hGrp⟩, -⟩ := grpWord g
  have he : 4 * g.val + j.val < 48 := by omega
  obtain ⟨u, ⟨hRil, hRegs⟩, hAfter, -⟩ := foldl_group (g := g)
    (f := fun t e => ((t.rillStop e).relSlots e fun _ => true).rilUpd e fun r => { r with st := 3 })
    (fun t i => ⟨_, oosStep_eq t i⟩) s j
  simp only [State.grpOp, hOp, hGrp, if_true]
  refine hAfter.trans ?_
  have hStep := oosStep_eq u ⟨4 * g + j, he⟩
  dsimp only at hStep ⊢
  rw [hStep, rilOf_withRil_self _ he]
  simp only [outOfService, released, relStop, State.slotOut, State.slotEn, State.slotCfg, State.rg, hRil, hRegs]

theorem rilOf_grpOp_in (s : State) (g : Fin 12) (j : Fin 4) :
    (s.grpOp (BitVec.ofNat 32 (2 ^ 31 + g.val))).rilOf (4 * g + j) = { s.rilOf (4 * g + j) with st := 0 } := by
  obtain ⟨-, -, -, hOp, hGrp⟩ := grpWord g
  have he : 4 * g.val + j.val < 48 := by omega
  obtain ⟨u, ⟨hRil, hRegs⟩, hAfter, -⟩ := foldl_group (g := g) (f := fun t e => t.rilUpd e fun r => { r with st := 0 })
    (fun t i => ⟨_, rilUpd_eq_withRil ..⟩) s j
  simp only [State.grpOp, hOp, hGrp, if_neg (show (2 : Nat) ≠ 1 by decide)]
  refine hAfter.trans ?_
  rw [rilUpd_eq_withRil, rilOf_withRil_self _ he, hRil]

/-- R398, R406: every output slot of an engine out of service is released. -/
theorem vget_outOfService {s : State} {e : Nat} {k : Fin 4} (hOut : s.slotOut e k = true) :
    (vget Slot.reset (outOfService s e).slots k).released = true ∧ (vget Slot.reset (outOfService s e).slots k).drive = false := by
  rw [outOfService, vget_released, if_pos ⟨hOut, rfl⟩]
  exact ⟨rfl, rfl⟩

/-- RIL_GRP_STS shows the service of the group. -/
theorem testBit_grpSts_grpOp (s : State) (g : Fin 12) :
    (s.grpOp (BitVec.ofNat 32 (2 ^ 30 + g.val))).grpSts.testBit g = true ∧
      (s.grpOp (BitVec.ofNat 32 (2 ^ 31 + g.val))).grpSts.testBit g = false := by
  simp only [testBit_grpSts, State.groupOos]
  exact ⟨congrArg (fun x => x.st == 3) (rilOf_grpOp_out s g 0), congrArg (fun x => x.st == 3) (rilOf_grpOp_in s g 0)⟩

/-- Settles O50: each command by its rule above, START through `started_rillStart`, the release and the group commands engine by engine
through `foldl_around`. The model's choices that it proves with the spec: RIL_SYNC_LO is used up (log entry 130), a group is stopped at
the command and judged against its present service (132, 131), the bits of a SHIFT that a stop cuts (215), and SYNC_MISS (129). -/
theorem rillControl : Obligations.RillControl := by
  unfold Obligations.RillControl
  refine ⟨fun s m e hLive hHere _ => ?_, fun s hDue hRun hRising => ?_, fun s m g hLive hHere _ => ?_⟩
  · have hServed : s.pllStopped pllRill = false → (s.rilOf e).st = 0 → ¬ (s.pllStopped pllRill = true ∨ (s.rilOf e).st ≠ 0) :=
      fun hPll hSt => by simp [hPll, hSt]
    refine ⟨fun clr flush => ⟨fun hSt hPll => ?_, fun hSt => ?_⟩, exec_rilStop hLive hHere m, exec_rilStopEffect,
      fun st islot n samples => exec_rillShift_cut hHere, fun i v hLock => ⟨fun hSt => ?_, fun hSt => ?_⟩, fun i v hLock => ?_,
      fun he hLow hSt hPll => ?_, fun he hLow hSt => ?_,
      fun hLow hPll hi he hSt => exec_syncPhase hLive hHere m hi he hLow hPll hSt⟩
    · rw [exec_rilStart hLive hHere, if_neg (hServed hPll hSt)]
      exact ⟨_, rfl, started_rillStart s e clr flush⟩
    · rw [exec_rilStart hLive hHere, if_pos (Or.inr hSt)]
    · rw [exec_programWordWrite hLive hHere, hLock, if_neg Bool.false_ne_true, if_pos hSt]
    · rw [exec_programWordWrite hLive hHere, hLock, if_neg Bool.false_ne_true, if_neg hSt]
    · rw [exec_programWordWrite hLive hHere, hLock, if_pos rfl]
    · rw [exec_syncStart hLive hHere m he hLow, if_neg (hServed hPll hSt)]
      obtain ⟨hSelf, hOther⟩ := started_rillStart s e false false
      exact ⟨_, rfl, hSelf, hOther, rfl⟩
    · rw [exec_syncStart hLive hHere m he hLow, if_pos (Or.inr hSt)]
  · obtain ⟨t, hExec, hCyc, hEach⟩ := exec_rillSyncRelease hDue hRun
    refine ⟨_, hExec, by rw [← hCyc], fun e => ?_⟩
    obtain ⟨u, hBefore, hAfter⟩ := hEach e
    exact release_engine (t := t) hBefore hAfter hRising
  · obtain ⟨hOos, hBack⟩ := testBit_grpSts_grpOp s g
    refine ⟨fun hIn => ⟨?_, ?_⟩, fun hOut => ⟨?_, ?_⟩⟩
    · rw [exec_groupInService hLive m hHere rfl, if_neg hIn]
    · rw [exec_groupOutOfService hLive m hHere rfl, if_neg hIn]
      refine ⟨_, rfl, hOos, fun j k => ?_⟩
      dsimp only
      rw [rilOf_grpOp_out]
      exact ⟨rfl, vget_outOfService⟩
    · rw [exec_groupOutOfService hLive m hHere rfl, if_pos hOut]
    · rw [exec_groupInService hLive m hHere rfl, if_pos hOut]
      exact ⟨_, rfl, hBack, rilOf_grpOp_in s g⟩

end Sys2Proof.Proofs
end
